-- ==== Sys2Proof/Word.lean ====
section
/-!
DEFINITION. The plain words and numberings of the DPC-16 (spec/00_scope.md 0.6.3): bytes of the serial links, tags, and
the index ranges of ports, bays, clusters, roster slots, groups, profiles, departure entries and sweepers.
-/

namespace Sys2Proof

/-- One byte of a transaction (R174). -/
abbrev Byte := BitVec 8

/-- A pack's identity, read from its coded plug: 32 bits. The value 0 is no identity (00_scope.md 0.5, 'tag'). -/
abbrev Tag := BitVec 32

/-- A port, P0 to P5. -/
abbrev PortId := Fin 6

/-- A bay in global numbering, 0 to 15. -/
abbrev BayId := Fin 16

/-- A cluster, 0 to 3: bays 4c to 4c + 3. -/
abbrev ClusterId := Fin 4

/-- A roster slot, 0 to 63. -/
abbrev SlotId := Fin 64

/-- A roster group, 0 to 7: slots 8g to 8g + 7. -/
abbrev GroupId := Fin 8

/-- A charge profile, 0 to 7. -/
abbrev ProfileId := Fin 8

/-- A departure entry, 0 to 47. -/
abbrev EntryId := Fin 48

/-- A sweeper, 1 to 63; 0 means none (00_scope.md 0.5, 'sweeper'). -/
abbrev SweeperId := Fin 64

/-- The strap codes of P0 to P5, three pins each (R176). -/
abbrev Straps := Vector (Fin 8) 6

end Sys2Proof
end

