-- ==== Sys2Proof/Machine/CommandTable.lean ====
section
/-!
DEFINITION. The command table of the ports (spec/11_command_ports.md 11.3): each command's code, class, number of parameter
bytes and the point at which it is taken.
-/

namespace Sys2Proof.Machine

/-- The three classes of commands (R176). -/
inductive CommandClass where
  | common
  | cluster
  | depot
  deriving DecidableEq, Repr

/-- The point of a transaction at which a command is taken (R174): its command byte, its last parameter byte, or select
rise. -/
inductive TakePoint where
  | commandByte
  | lastParameter
  | selectRise
  deriving DecidableEq, Repr

/-- A row of the command table. -/
structure CommandRow where
  code : Byte
  cls : CommandClass
  parameters : Nat
  take : TakePoint
  deriving DecidableEq, Repr

def rowIdentify : CommandRow := ⟨0x01, .common, 0, .commandByte⟩
def rowReadNotices : CommandRow := ⟨0x02, .common, 0, .commandByte⟩
def rowAckNotices : CommandRow := ⟨0x03, .common, 2, .selectRise⟩
def rowSetNoticeMask : CommandRow := ⟨0x04, .common, 3, .selectRise⟩
def rowReadBaySummary : CommandRow := ⟨0x05, .common, 0, .commandByte⟩
def rowReadPack : CommandRow := ⟨0x10, .common, 5, .lastParameter⟩
def rowReadGroup : CommandRow := ⟨0x11, .common, 1, .lastParameter⟩
def rowReadMarks : CommandRow := ⟨0x12, .common, 0, .commandByte⟩
def rowReadBay : CommandRow := ⟨0x13, .common, 1, .lastParameter⟩
def rowReadSupply : CommandRow := ⟨0x14, .common, 0, .commandByte⟩
def rowReadDeparture : CommandRow := ⟨0x15, .common, 1, .lastParameter⟩
def rowReadCounters : CommandRow := ⟨0x16, .common, 0, .commandByte⟩
def rowReadQueue : CommandRow := ⟨0x17, .common, 1, .lastParameter⟩
def rowReadClock : CommandRow := ⟨0x18, .common, 0, .commandByte⟩
def rowReadRecall : CommandRow := ⟨0x19, .common, 1, .lastParameter⟩
def rowDock : CommandRow := ⟨0x20, .cluster, 8, .selectRise⟩
def rowUndock : CommandRow := ⟨0x21, .cluster, 5, .selectRise⟩
def rowReport : CommandRow := ⟨0x22, .cluster, 9, .selectRise⟩
def rowGrantAck : CommandRow := ⟨0x23, .cluster, 3, .selectRise⟩
def rowClearFault : CommandRow := ⟨0x24, .cluster, 1, .selectRise⟩
def rowReadGrants : CommandRow := ⟨0x25, .cluster, 0, .commandByte⟩
def rowSetClock : CommandRow := ⟨0x30, .depot, 3, .selectRise⟩
def rowSetSupply : CommandRow := ⟨0x31, .depot, 6, .selectRise⟩
def rowOtherLoad : CommandRow := ⟨0x32, .depot, 3, .selectRise⟩
def rowHold : CommandRow := ⟨0x33, .depot, 0, .selectRise⟩
def rowResume : CommandRow := ⟨0x34, .depot, 0, .selectRise⟩
def rowSetZone : CommandRow := ⟨0x35, .depot, 2, .selectRise⟩
def rowZoneOn : CommandRow := ⟨0x36, .depot, 0, .selectRise⟩
def rowZoneOff : CommandRow := ⟨0x37, .depot, 0, .selectRise⟩
def rowSetSite : CommandRow := ⟨0x38, .depot, 20, .selectRise⟩
def rowSetWindow : CommandRow := ⟨0x40, .depot, 3, .selectRise⟩
/-- TABLE_WRITE: its bytes form a stream, so no number of parameters is asked of it (R179). -/
def rowTableWrite : CommandRow := ⟨0x41, .depot, 0, .selectRise⟩
def rowTableRead : CommandRow := ⟨0x42, .depot, 0, .commandByte⟩
def rowAddDeparture : CommandRow := ⟨0x43, .depot, 6, .selectRise⟩
def rowCancelDeparture : CommandRow := ⟨0x44, .depot, 1, .selectRise⟩
def rowDraw : CommandRow := ⟨0x50, .depot, 2, .lastParameter⟩
def rowCancelDraw : CommandRow := ⟨0x51, .depot, 1, .selectRise⟩
def rowQuarantine : CommandRow := ⟨0x52, .depot, 1, .selectRise⟩
def rowRelease : CommandRow := ⟨0x53, .depot, 1, .selectRise⟩
def rowForget : CommandRow := ⟨0x54, .depot, 1, .selectRise⟩
def rowLatchCounters : CommandRow := ⟨0x55, .depot, 0, .selectRise⟩
def rowSoftReset : CommandRow := ⟨0x5A, .depot, 0, .selectRise⟩

/-- The command table of 11.3, in its order. -/
def commandTable : List CommandRow :=
  [rowIdentify, rowReadNotices, rowAckNotices, rowSetNoticeMask, rowReadBaySummary, rowReadPack, rowReadGroup,
    rowReadMarks, rowReadBay, rowReadSupply, rowReadDeparture, rowReadCounters, rowReadQueue, rowReadClock,
    rowReadRecall] ++
  [rowDock, rowUndock, rowReport, rowGrantAck, rowClearFault, rowReadGrants] ++
  [rowSetClock, rowSetSupply, rowOtherLoad, rowHold, rowResume, rowSetZone, rowZoneOn, rowZoneOff, rowSetSite] ++
  [rowSetWindow, rowTableWrite, rowTableRead, rowAddDeparture, rowCancelDeparture, rowDraw, rowCancelDraw,
    rowQuarantine, rowRelease, rowForget, rowLatchCounters, rowSoftReset]

/-- The code is in the command table (R177, check 2). -/
def knownCode (code : Byte) : Bool := commandTable.any fun r => r.code == code

end Sys2Proof.Machine
end

