-- ==== Sys2Proof/Syntax.lean ====
section
/-!
DEFINITION. The commands and events of the DPC-16: one constructor of Instr for each row of spec/opcode_table.json.

A command of a port carries the port and, where it has parameters, the parameter BYTES that arrived in its transaction
(R174): fewer than the command needs is a transaction cut short (R177), bytes beyond them are ignored. An event of a timer
carries the bay it concerns. The bytes of a TABLE_WRITE stream arrive one by one (R179): each is a PROFILE_ENTRY_TAKE or a
SCHEDULE_ENTRY_TAKE by the table it is for, and the entry is taken at its last (notes/assumptions/11.md).
-/

namespace Sys2Proof

/-- What befell the stored bits of a roster record since they were last written (R17, R18): one bad bit or two. -/
inductive Upset where
  | oneBit
  | twoBits
  deriving DecidableEq, Repr

/-- A part of a TABLE_READ transaction (R180): the command byte, at which the command is taken, or the moment at which the
first byte of the window's next entry is shifted out, at which that entry is formed. -/
inductive ReadPart where
  | command
  | nextEntry
  deriving DecidableEq, Repr

/-- The commands and events of spec/opcode_table.json, in the table's order. -/
inductive Instr where
  | powerOn (straps : Straps)
  | hardReset (straps : Straps)
  | scanComplete
  | unknownCode (p : PortId) (code : Byte)
  | shortTransaction (p : PortId)
  | identify (p : PortId)
  | readNotices (p : PortId)
  | ackNotices (p : PortId) (params : List Byte)
  | setNoticeMask (p : PortId) (params : List Byte)
  | readBaySummary (p : PortId)
  | readPack (p : PortId) (params : List Byte)
  | readGroup (p : PortId) (params : List Byte)
  | readMarks (p : PortId)
  | readBay (p : PortId) (params : List Byte)
  | readSupply (p : PortId)
  | readDeparture (p : PortId) (params : List Byte)
  | readCounters (p : PortId)
  | readQueue (p : PortId) (params : List Byte)
  | readClock (p : PortId)
  | readRecall (p : PortId) (params : List Byte)
  | dock (p : PortId) (params : List Byte)
  | undock (p : PortId) (params : List Byte)
  | report (p : PortId) (params : List Byte)
  | grantAck (p : PortId) (params : List Byte)
  | clearFault (p : PortId) (params : List Byte)
  | readGrants (p : PortId)
  | setClock (p : PortId) (params : List Byte)
  | setSupply (p : PortId) (params : List Byte)
  | otherLoad (p : PortId) (params : List Byte)
  | hold (p : PortId)
  | resume (p : PortId)
  | setZone (p : PortId) (params : List Byte)
  | zoneOn (p : PortId)
  | zoneOff (p : PortId)
  | setSite (p : PortId) (params : List Byte)
  | setWindow (p : PortId) (params : List Byte)
  | tableWrite (p : PortId)
  | profileEntryTake (p : PortId) (b : Byte)
  | scheduleEntryTake (p : PortId) (b : Byte)
  | tableRead (p : PortId) (part : ReadPart)
  | addDeparture (p : PortId) (params : List Byte)
  | cancelDeparture (p : PortId) (params : List Byte)
  | draw (p : PortId) (params : List Byte)
  | cancelDraw (p : PortId) (params : List Byte)
  | quarantine (p : PortId) (params : List Byte)
  | release (p : PortId) (params : List Byte)
  | forget (p : PortId) (params : List Byte)
  | latchCounters (p : PortId)
  | softReset (p : PortId)
  | timebaseSecond (upsets : List (SlotId × Upset))
  | clockMinuteChange
  | scrubVisit
  | reportTimeoutSilent (b : BayId)
  | lostTimeout (b : BayId)
  | stallHoldEnd (b : BayId)
  | equaliseEnd (b : BayId)
  | restEnd (b : BayId)
  | confirmTimerExpiry (b : BayId)
  | meterStale
  | windDownEnd
  | rampEnd
  | allocationPeriodExpiry
  | allocationPass
  | planningPass
  | tableWriteStreamEnd (p : PortId)
  | hardResetEnd
  deriving DecidableEq, Repr

end Sys2Proof
end

