-- ==== Sys2Proof/Decode.lean ====
section
/-!
DEFINITION. Which command the bytes of a transaction are (R174, R177 and the command table of 11.3), and the command that a word of
the opcode table spells. No row of spec/opcode_table.json gives bits: a command is a transaction of bytes at a port or an event of
a timer (notes/assumptions/20.md).
-/

namespace Sys2Proof

open Machine

/-- A row of the command table with the command that its code names, given the port and the bytes after the code. -/
structure CommandSpelling where
  row : CommandRow
  command : PortId → List Byte → Instr

/-- The common commands (R176). -/
def commonSpellings : List CommandSpelling :=
  [⟨rowIdentify, fun p _ => .identify p⟩, ⟨rowReadNotices, fun p _ => .readNotices p⟩, ⟨rowAckNotices, .ackNotices⟩,
    ⟨rowSetNoticeMask, .setNoticeMask⟩, ⟨rowReadBaySummary, fun p _ => .readBaySummary p⟩, ⟨rowReadPack, .readPack⟩,
    ⟨rowReadGroup, .readGroup⟩, ⟨rowReadMarks, fun p _ => .readMarks p⟩, ⟨rowReadBay, .readBay⟩,
    ⟨rowReadSupply, fun p _ => .readSupply p⟩, ⟨rowReadDeparture, .readDeparture⟩,
    ⟨rowReadCounters, fun p _ => .readCounters p⟩, ⟨rowReadQueue, .readQueue⟩, ⟨rowReadClock, fun p _ => .readClock p⟩,
    ⟨rowReadRecall, .readRecall⟩]

/-- The cluster commands (R176). -/
def clusterSpellings : List CommandSpelling :=
  [⟨rowDock, .dock⟩, ⟨rowUndock, .undock⟩, ⟨rowReport, .report⟩, ⟨rowGrantAck, .grantAck⟩, ⟨rowClearFault, .clearFault⟩,
    ⟨rowReadGrants, fun p _ => .readGrants p⟩]

/-- The depot commands (R176). TABLE_WRITE and TABLE_READ are taken up at their command byte; the bytes of a TABLE_WRITE follow one by
one (R179). -/
def depotSpellings : List CommandSpelling :=
  [⟨rowSetClock, .setClock⟩, ⟨rowSetSupply, .setSupply⟩, ⟨rowOtherLoad, .otherLoad⟩, ⟨rowHold, fun p _ => .hold p⟩,
    ⟨rowResume, fun p _ => .resume p⟩, ⟨rowSetZone, .setZone⟩, ⟨rowZoneOn, fun p _ => .zoneOn p⟩,
    ⟨rowZoneOff, fun p _ => .zoneOff p⟩, ⟨rowSetSite, .setSite⟩] ++
  [⟨rowSetWindow, .setWindow⟩, ⟨rowTableWrite, fun p _ => .tableWrite p⟩,
    ⟨rowTableRead, fun p _ => .tableRead p .command⟩, ⟨rowAddDeparture, .addDeparture⟩,
    ⟨rowCancelDeparture, .cancelDeparture⟩, ⟨rowDraw, .draw⟩, ⟨rowCancelDraw, .cancelDraw⟩, ⟨rowQuarantine, .quarantine⟩,
    ⟨rowRelease, .release⟩, ⟨rowForget, .forget⟩, ⟨rowLatchCounters, fun p _ => .latchCounters p⟩,
    ⟨rowSoftReset, fun p _ => .softReset p⟩]

/-- The command table of 11.3 with the commands its codes name. -/
def commandSpellings : List CommandSpelling := commonSpellings ++ clusterSpellings ++ depotSpellings

/-- The command of a transaction (R174, R177): its first byte is the command code and the bytes after it are the parameters; a code
outside the command table is an unknown code, and a transaction without a whole byte is a short one. -/
def commandOfBytes (p : PortId) : List Byte → Instr
  | [] => .shortTransaction p
  | code :: params =>
    match commandSpellings.find? fun x => x.row.code == code with
    | some x => x.command p params
    | none => .unknownCode p code

/-- The command a table word spells: none, as no row gives bits. -/
def decodeTableWord (_nbits _w : Nat) : Option Instr := none

end Sys2Proof
end

