-- ==== Sys2Proof/Config.lean ====
section
/-!
DEFINITION. What this model of the DPC-16 leaves free, and the constants of the part's identity.
-/

namespace Sys2Proof

/-- FREE VALUE (notes/assumptions/8.md). The seen stamp of a record rebuilt as DAMAGED: R18 gives the record the fresh
values of R2, and neither rule states a seen stamp, which R1 makes present in every record that is not FREE. The argument
is the number of rebuilds before this one (State.freeUses). -/
opaque Config.rebuiltStamp : Nat → BitVec 32

/-- FREE VALUE (notes/assumptions/34.md). The local number that an answer to a cluster's port sends for a bay of another cluster:
R184 sends every bay there as a local number, and R176 gives a cluster's port local numbers for its own four bays alone. -/
opaque Config.foreignBay : ClusterId → BayId → Byte

/-- Vendor code in the answer of IDENTIFY (R182). -/
def Config.vendorCode : Nat := 0x47

/-- Part code in the answer of IDENTIFY (R182). -/
def Config.partCode : Nat := 0x16D2

/-- Revision in the answer of IDENTIFY, for parts described by this manual (R182). -/
def Config.revision : Nat := 0x01

end Sys2Proof
end

