-- ==== Sys2Proof/Machine/Flags.lean ====
section
/-!
DEFINITION. Sets of flags as the ports carry them (R184): inhibit sets, notice kinds, bay summaries, change marks and the
slots of a ready queue. A set over n places is a word of n bits; bit i stands for place i.
-/

namespace Sys2Proof.Machine

/-- A set of places 0 to n-1. -/
abbrev FlagSet (n : Nat) := BitVec n

/-- Place i is in the set. -/
def hasFlag {n : Nat} (f : FlagSet n) (i : Fin n) : Bool := f.getLsbD i

/-- The set with place i. -/
def addFlag {n : Nat} (f : FlagSet n) (i : Fin n) : FlagSet n := f ||| BitVec.twoPow n i

/-- The set without place i. -/
def dropFlag {n : Nat} (f : FlagSet n) (i : Fin n) : FlagSet n := f &&& ~~~ BitVec.twoPow n i

/-- The reasons of an inhibit set (R39), in the order of their bits (R184). -/
inductive Inhibit where
  | temperature
  | restricted
  | hold
  | profile
  | unlisted
  | quarantine
  | called
  | fault
  | stallHold
  deriving DecidableEq, Repr

/-- The bit of an inhibit reason (R184). -/
def Inhibit.bit : Inhibit → Fin 9
  | .temperature => 0
  | .restricted => 1
  | .hold => 2
  | .profile => 3
  | .unlisted => 4
  | .quarantine => 5
  | .called => 6
  | .fault => 7
  | .stallHold => 8

/-- The twelve notice kinds (R167), in the order of their bits (R184). -/
inductive NoticeKind where
  | bay
  | grant
  | fault
  | counter
  | recall
  | ready
  | draw
  | short
  | supply
  | roster
  | clock
  | profile
  deriving DecidableEq, Repr

/-- The bit of a notice kind (R184). -/
def NoticeKind.bit : NoticeKind → Fin 12
  | .bay => 0
  | .grant => 1
  | .fault => 2
  | .counter => 3
  | .recall => 4
  | .ready => 5
  | .draw => 6
  | .short => 7
  | .supply => 8
  | .roster => 9
  | .clock => 10
  | .profile => 11

end Sys2Proof.Machine
end

