-- ==== Sys2Proof/Machine/Records.lean ====
section
/-!
DEFINITION. The records the nine blocks of the DPC-16 keep (spec/00_scope.md 0.3), as plain data, each with the value it
takes after power-on. A field that the spec calls present only under a condition is an Option, or, where the condition is
that the bay is not EMPTY or the record not FREE, a plain field that stands at 0 while absent and is reported absent
(notes/assumptions/13.md).
-/

namespace Sys2Proof.Machine

/-! ### Pack Roster (R1) -/

/-- A record's lifecycle (R1), coded in this order (R184). -/
inductive Lifecycle where
  | free
  | stored
  | docked
  | ready
  | called
  | issued
  | quarantined
  deriving DecidableEq, Repr

/-- Why a record is QUARANTINED (R1). -/
inductive Reason where
  | operator
  | heat
  | damaged
  deriving DecidableEq, Repr

/-- A pack record (R1). The slot is the record's place in the roster. The tag is 0 while the record is FREE or its tag
unknown. -/
structure PackRecord where
  tag : Tag
  profile : ProfileId
  lifecycle : Lifecycle
  bay : Option BayId
  sweeper : Option SweeperId
  reservation : Option EntryId
  estimate : Nat
  residue : Nat
  capacity : Nat
  cycles : Nat
  sinceEqualise : Nat
  readySince : Option Nat
  seen : Nat
  reason : Option Reason
  deriving DecidableEq, Repr

/-- A FREE record holds only its slot and its lifecycle (R2). -/
def freeRecord : PackRecord :=
  { tag := 0, profile := 0, lifecycle := .free, bay := none, sweeper := none, reservation := none, estimate := 0,
    residue := 0, capacity := 0, cycles := 0, sinceEqualise := 0, readySince := none, seen := 0, reason := none }

/-- What a check of a record's check code finds (R17, R18). -/
inductive CheckCode where
  | clean
  | oneBit
  | twoBits
  deriving DecidableEq, Repr

/-! ### Profile Table (R23) -/

/-- A profile entry (R23). Every field holds any value its bytes can (R184). Breakpoint b1 is at place 0, factor f0 at
place 0. -/
structure Profile where
  valid : Bool
  family : Nat
  nominalVoltage : Nat
  rated : Nat
  maxCurrent : Nat
  minCurrent : Nat
  finishCurrent : Nat
  absorbPoint : Nat
  acceptance : Nat
  efficiency : Nat
  restMinutes : Nat
  equaliseInterval : Nat
  equaliseCurrent : Nat
  equaliseMinutes : Nat
  returnEstimate : Nat
  breakpoints : Vector Int 5
  factors : Vector Nat 6
  deriving DecidableEq, Repr

/-- A profile entry after power-on: invalid with every field 0 (R36). -/
def blankProfile : Profile :=
  { valid := false, family := 0, nominalVoltage := 0, rated := 0, maxCurrent := 0, minCurrent := 0, finishCurrent := 0,
    absorbPoint := 0, acceptance := 0, efficiency := 0, restMinutes := 0, equaliseInterval := 0, equaliseCurrent := 0,
    equaliseMinutes := 0, returnEstimate := 0, breakpoints := Vector.replicate 5 0, factors := Vector.replicate 6 0 }

/-! ### Bay Units (R37, R64, R119) -/

/-- A bay's charging stage (R37). -/
inductive Stage where
  | empty
  | bulk
  | absorb
  | equalise
  | resting
  | done
  deriving DecidableEq, Repr

/-- A bay's report state (R64). -/
inductive ReportState where
  | normal
  | silent
  | lost
  deriving DecidableEq, Repr

/-- A bay's stall state (R64). -/
inductive StallState where
  | clear
  | holding
  | probation
  deriving DecidableEq, Repr

/-- The five event counters of a bay (R80), in the order of the layouts (R184). -/
inductive EventCounter where
  | stall
  | overtemp
  | silence
  | confirmTimeout
  | overdraw
  deriving DecidableEq, Repr

/-- The place of an event counter (R184). -/
def EventCounter.place : EventCounter → Fin 5
  | .stall => 0
  | .overtemp => 1
  | .silence => 2
  | .confirmTimeout => 3
  | .overdraw => 4

/-- A counter or its image, with its saturated mark (R64). -/
structure CounterCell where
  value : Nat
  saturated : Bool
  deriving DecidableEq, Repr

/-- The last report of a docking (R37), clamped as R51 states, the interval as sent (R184). -/
structure LastReport where
  current : Nat
  voltage : Nat
  temperature : Int
  interval : Nat
  terminated : Bool
  chargerFault : Bool
  deriving DecidableEq, Repr

/-- A bay record (R37, R64, R119). -/
structure Bay where
  stage : Stage
  inhibits : FlagSet 9
  slot : Option SlotId
  tag : Tag
  profile : ProfileId
  dockTemperature : Int
  band : Fin 6
  debounce : Nat
  sensorLimit : Bool
  last : Option LastReport
  sinceReport : Nat
  session : Nat
  restEnd : Option Nat
  equaliseEnd : Option Nat
  grant : Nat
  allowance : Nat
  power : Nat
  reduction : Bool
  confirmTimer : Option Nat
  overdrawStreak : Nat
  report : ReportState
  silence : Nat
  stall : StallState
  stallStreak : Nat
  probation : Option Nat
  declarations : Nat
  holdEnd : Option Nat
  heat : Nat
  counters : Vector CounterCell 5
  images : Vector CounterCell 5
  deriving DecidableEq, Repr

/-- A bay after power-on and after hard reset (R62, R84, R132). -/
def emptyBay : Bay :=
  { stage := .empty, inhibits := 0, slot := none, tag := 0, profile := 0, dockTemperature := 0, band := 0, debounce := 0,
    sensorLimit := false, last := none, sinceReport := 0, session := 0, restEnd := none, equaliseEnd := none, grant := 0,
    allowance := 0, power := 0, reduction := false, confirmTimer := none, overdrawStreak := 0, report := .normal,
    silence := 0, stall := .clear, stallStreak := 0, probation := none, declarations := 0, holdEnd := none, heat := 0,
    counters := Vector.replicate 5 ⟨0, false⟩, images := Vector.replicate 5 ⟨0, false⟩ }

/-- A pending increase on the pending list (R119): the bay and its new grant. -/
structure Increase where
  bay : BayId
  grant : Nat
  deriving DecidableEq, Repr

/-! ### Site settings (R181) -/

/-- The stall criterion (R65). -/
inductive StallCriterion where
  | strict
  | lenient
  deriving DecidableEq, Repr

/-- The latch mode (R65). -/
inductive LatchMode where
  | manual
  | auto
  deriving DecidableEq, Repr

/-- The site settings that SET_SITE writes (R181). -/
structure Site where
  period : Nat
  reportTimeout : Nat
  lostTimeout : Nat
  confirmTimeout : Nat
  criterion : StallCriterion
  latchMode : LatchMode
  shiftStarts : Vector Nat 4
  horizon : Nat
  grace : Nat
  rampTime : Nat
  minimumIssue : Nat
  deriving DecidableEq, Repr

/-- The defaults of R181, taken at power-on and hard reset (R65, R94, R102, R120, R135, R156). -/
def defaultSite : Site :=
  { period := 4, reportTimeout := 5, lostTimeout := 30, confirmTimeout := 3, criterion := .strict, latchMode := .manual,
    shiftStarts := Vector.replicate 4 1440, horizon := 720, grace := 15, rampTime := 30, minimumIssue := 40 }

/-! ### Supply Monitor (R85 to R99) -/

/-- The meter mode (R85). -/
inductive MeterMode where
  | metered
  | unmetered
  deriving DecidableEq, Repr

/-- The meter condition (R87). -/
inductive MeterCondition where
  | empty
  | fresh
  | stale
  deriving DecidableEq, Repr

/-- The hold state (5.4), coded in this order (R184). -/
inductive HoldState where
  | running
  | windingDown
  | held
  | ramping
  deriving DecidableEq, Repr

/-- The Supply Monitor's state (R99). The readings stand oldest first. -/
structure Supply where
  limit : Nat
  reserve : Nat
  meterMode : MeterMode
  readings : List Nat
  condition : MeterCondition
  age : Option Nat
  hold : HoldState
  windDown : Option Nat
  elapsed : Option Nat
  passFigure : Nat
  zoneFirst : BayId
  zoneLast : BayId
  zoneOn : Bool
  deriving DecidableEq, Repr

/-- The Supply Monitor after power-on and hard reset (R99): HELD until scan complete. -/
def resetSupply : Supply :=
  { limit := 0, reserve := 0, meterMode := .metered, readings := [], condition := .empty, age := none, hold := .held,
    windDown := none, elapsed := none, passFigure := 0, zoneFirst := 0, zoneLast := 15, zoneOn := false }

/-! ### Departure Planner (R133 to R152) -/

/-- A set depot clock (R133). -/
structure Clock where
  minute : Nat
  second : Nat
  deriving DecidableEq, Repr

/-- The status of a departure entry (R137), coded in this order (R184). -/
inductive EntryStatus where
  | idle
  | planned
  | short
  | late
  | called
  | served
  | missed
  | finished
  deriving DecidableEq, Repr

/-- A departure entry (R137). The written fields hold any value their bytes can, as an invalid entry keeps them. -/
structure Entry where
  valid : Bool
  weekly : Bool
  sweeper : Nat
  minute : Nat
  profile : Nat
  required : Nat
  status : EntryStatus
  reserved : Option SlotId
  renewal : Bool
  deriving DecidableEq, Repr

/-- An entry after power-on: invalid, every field 0, status IDLE, renewal mark clear (R152). -/
def blankEntry : Entry :=
  { valid := false, weekly := false, sweeper := 0, minute := 0, profile := 0, required := 0, status := .idle,
    reserved := none, renewal := false }

/-! ### Rotation Unit (R153 to R166) -/

/-- A recall (R161). -/
structure Recall where
  bay : BayId
  slot : SlotId
  tag : Tag
  sweeper : SweeperId
  minute : Nat
  deriving DecidableEq, Repr

/-- A draw in the draw table (R160): the slot, and the matching entry or none. -/
structure Draw where
  slot : SlotId
  entry : Option EntryId
  deriving DecidableEq, Repr

/-! ### Port Units (11) -/

/-- A port's role (R176). -/
inductive Role where
  | cluster (c : ClusterId)
  | depot
  | observer
  | off
  deriving DecidableEq, Repr

/-- The result codes (R177). -/
inductive ResultCode where
  | ok
  | okPartial
  | starting
  | unknown
  | short
  | role
  | scope
  | range
  | state
  | full
  | notFound
  | conflict
  | stale
  | noneReady
  deriving DecidableEq, Repr

/-- The fault-edge option (R169). -/
inductive EdgeOption where
  | declare
  | both
  deriving DecidableEq, Repr

/-- A table window (R178): a table with a first and a last entry. -/
inductive Window where
  | profiles (first last : ProfileId)
  | schedule (first last : EntryId)
  deriving DecidableEq, Repr

/-- An open stream over a window (R179, R180): the entry being written or next read (none past the last), and the window's last
entry; or a stream whose window a soft reset took away (R183). -/
inductive Stream where
  | profiles (next : Option ProfileId) (last : ProfileId)
  | schedule (next : Option EntryId) (last : EntryId)
  | windowGone
  deriving DecidableEq, Repr

/-- A Port Unit (11, opening list). 'raised' is the pending set of notices (R167); 'held' the bytes of the incomplete entry that the
port's stream holds, whose number is the stream's byte position within the entry (R179); 'out' the bytes the port shifts out in its
latest transaction, after which it shifts out 0xFF (R174). -/
structure Port where
  strap : Fin 8
  role : Role
  conflict : Bool
  lastResult : ResultCode
  raised : FlagSet 12
  mask : FlagSet 12
  edge : EdgeOption
  summary : FlagSet 16
  marks : FlagSet 8
  peak : Nat
  window : Option Window
  stream : Option Stream
  held : List Byte
  reading : Option Stream
  out : List Byte
  deriving DecidableEq, Repr

/-- The role that a strap code gives by itself (R176). -/
def roleOfStrap (code : Fin 8) : Role :=
  if h : code.val < 4 then .cluster ⟨code.val, h⟩
  else if code.val = 4 then .depot
  else if code.val = 5 then .observer
  else .off

/-- A lower-numbered port is strapped to the same cluster (R176). -/
def strapConflict (straps : Straps) (p : PortId) : Bool :=
  (straps[p]).val < 4 && (List.finRange 6).any fun q => q < p && straps[q] == straps[p]

/-- The role of a port (R176): where two or more ports are strapped to one cluster, the lowest-numbered takes it. -/
def portRole (straps : Straps) (p : PortId) : Role :=
  if strapConflict straps p then .off else roleOfStrap (straps[p])

/-- The pending set of a role after power-on and hard reset (R173). -/
def resetNotices : Role → FlagSet 12
  | .off => 0
  | .depot => addFlag (addFlag 0 NoticeKind.clock.bit) NoticeKind.supply.bit
  | _ => addFlag 0 NoticeKind.supply.bit

/-- A Port Unit after power-on (marks clear) or hard reset (marks set) with these straps (R21, R97, R173, R175, R176,
R178). -/
def resetPort (straps : Straps) (marks : FlagSet 8) (p : PortId) : Port :=
  { strap := straps[p], role := portRole straps p, conflict := strapConflict straps p, lastResult := .starting,
    raised := resetNotices (portRole straps p), mask := 0, edge := .declare, summary := 0, marks := marks, peak := 0,
    window := none, stream := none, held := [], reading := none, out := [] }

/-! ### The part as a whole -/

/-- What the part is doing as a whole (R20): taking commands, scanning after power-on or after a hard reset, or held by the
RESET pin. -/
inductive Phase where
  | running
  | scanAfterPowerOn
  | scanAfterHardReset
  | heldInReset
  deriving DecidableEq, Repr

/-- The six Port Units after power-on or hard reset. -/
def resetPorts (straps : Straps) (marks : FlagSet 8) : Vector Port 6 := Vector.ofFn (resetPort straps marks)

end Sys2Proof.Machine
end

