-- ==== Sys2Proof/Machine/Operands.lean ====
section
/-!
DEFINITION. Reading parameter bytes, writing answer bytes, and the whole-number arithmetic of the manual
(spec/00_scope.md 0.2, 0.6; R174, R184).
-/

namespace Sys2Proof.Machine

/-! ### Whole-number arithmetic (00_scope.md 0.2) -/

/-- ⌈a / b⌉, the least whole number not below a / b. -/
def ceilDiv (a b : Nat) : Nat := (a + (b - 1)) / b

/-- Rounded down to a multiple of 5. -/
def downTo5 (n : Nat) : Nat := n / 5 * 5

/-- Rounded up to a multiple of 5. -/
def upTo5 (n : Nat) : Nat := ceilDiv n 5 * 5

/-- A whole number clamped into a range. -/
def clampNat (low high n : Nat) : Nat := if n < low then low else if high < n then high else n

/-- A signed number clamped into a range. -/
def clampInt (low high n : Int) : Int := if n < low then low else if high < n then high else n

/-- A count that stays at its greatest value (saturating). -/
def countTo (most n : Nat) : Nat := if n < most then n + 1 else n

/-- The largest multiple of 5 among 5, 10, ..., 5k that passes the test, or none. -/
def largestStep (ok : Nat → Bool) : Nat → Option Nat
  | 0 => none
  | k + 1 => if ok (5 * (k + 1)) then some (5 * (k + 1)) else largestStep ok k

/-- Lexicographic order of keys: the first place that differs decides. -/
def keyLe : List Int → List Int → Bool
  | [], _ => true
  | _ :: _, [] => false
  | a :: as, b :: bs => if a < b then true else if b < a then false else keyLe as bs

/-- A list put in ascending order of its keys. -/
def sortByKey {α : Type} (key : α → List Int) (l : List α) : List α :=
  l.insertionSort fun a b => keyLe (key a) (key b) = true

/-- Every place of a table changed by its own function. -/
def updateAll {α : Type} {n : Nat} (v : Vector α n) (f : Fin n → α → α) : Vector α n :=
  Vector.ofFn fun i => f i v[i]

/-- A number as an index below n, where it is one. -/
def index (n v : Nat) : Option (Fin n) := if h : v < n then some ⟨v, h⟩ else none

/-- The index after k, while k has not reached the last. -/
def nextUpTo {n : Nat} (k last : Fin n) : Option (Fin n) :=
  if h : k.val < last.val then some ⟨k.val + 1, by omega⟩ else none

/-! ### Parameter bytes (R174: most significant byte first, signed values in two's complement) -/

/-- Parameter byte i. -/
def byteAt (ps : List Byte) (i : Nat) : Nat := (ps.getD i 0).toNat

/-- The two bytes from i. -/
def u16At (ps : List Byte) (i : Nat) : Nat := byteAt ps i * 256 + byteAt ps (i + 1)

/-- The three bytes from i. -/
def u24At (ps : List Byte) (i : Nat) : Nat := u16At ps i * 256 + byteAt ps (i + 2)

/-- The four bytes from i. -/
def u32At (ps : List Byte) (i : Nat) : Nat := u24At ps i * 256 + byteAt ps (i + 3)

/-- The signed byte i. -/
def s8At (ps : List Byte) (i : Nat) : Int := (ps.getD i 0).toInt

/-- The signed two bytes from i. -/
def s16At (ps : List Byte) (i : Nat) : Int := (BitVec.ofNat 16 (u16At ps i)).toInt

/-- The tag in the four bytes from i. -/
def tagAt (ps : List Byte) (i : Nat) : Tag := BitVec.ofNat 32 (u32At ps i)

/-! ### Answer bytes (R184) -/

/-- A whole number in n bytes, most significant first. -/
def be : Nat → Nat → List Byte
  | 0, _ => []
  | n + 1, v => BitVec.ofNat 8 (v / 256 ^ n) :: be n v

/-- An absent field of n bytes: all 0xFF. -/
def absentField (n : Nat) : List Byte := List.replicate n 0xFF

/-- A field of n bytes that may be absent. -/
def optionBe (n : Nat) : Option Nat → List Byte
  | some v => be n v
  | none => absentField n

/-- A field of n bytes that is present while a condition holds. -/
def beWhen (present : Bool) (n v : Nat) : List Byte := if present then be n v else absentField n

/-- A signed byte. -/
def beSigned (t : Int) : List Byte := [BitVec.ofInt 8 t]

/-- A temperature, absent as 0x80. -/
def temperatureBytes : Option Int → List Byte
  | some t => beSigned t
  | none => [0x80]

/-- A bit of a byte. -/
def bitOf (b : Bool) (i : Nat) : Nat := if b then 2 ^ i else 0

/-! ### Code values (R184, R177, R182) -/

def Lifecycle.code : Lifecycle → Nat
  | .free => 0
  | .stored => 1
  | .docked => 2
  | .ready => 3
  | .called => 4
  | .issued => 5
  | .quarantined => 6

def Reason.code : Reason → Nat
  | .operator => 1
  | .heat => 2
  | .damaged => 3

def Stage.code : Stage → Nat
  | .empty => 0
  | .bulk => 1
  | .absorb => 2
  | .equalise => 3
  | .resting => 4
  | .done => 5

def ReportState.code : ReportState → Nat
  | .normal => 0
  | .silent => 1
  | .lost => 2

def StallState.code : StallState → Nat
  | .clear => 0
  | .holding => 1
  | .probation => 2

/-- The family codes (R184): a profile entry holds the byte as written. -/
def familyFloodedLead : Nat := 0
def familySealedLead : Nat := 1
def familyLithiumPhosphate : Nat := 2

def EntryStatus.code : EntryStatus → Nat
  | .idle => 0
  | .planned => 1
  | .short => 2
  | .late => 3
  | .called => 4
  | .served => 5
  | .missed => 6
  | .finished => 7

def MeterMode.code : MeterMode → Nat
  | .metered => 0
  | .unmetered => 1

def MeterCondition.code : MeterCondition → Nat
  | .empty => 0
  | .fresh => 1
  | .stale => 2

def HoldState.code : HoldState → Nat
  | .running => 0
  | .windingDown => 1
  | .held => 2
  | .ramping => 3

def EdgeOption.code : EdgeOption → Nat
  | .declare => 0
  | .both => 1

/-- The role byte of IDENTIFY (R182). -/
def Role.code : Role → Nat
  | .cluster c => c.val
  | .depot => 4
  | .observer => 5
  | .off => 6

/-- The result code of R177, as the byte a port shifts out. -/
def ResultCode.byte : ResultCode → Byte
  | .ok => 0x00
  | .okPartial => 0x01
  | .starting => 0x10
  | .unknown => 0x20
  | .short => 0x21
  | .role => 0x22
  | .scope => 0x23
  | .range => 0x24
  | .state => 0x25
  | .full => 0x26
  | .notFound => 0x27
  | .conflict => 0x28
  | .stale => 0x29
  | .noneReady => 0x2A

end Sys2Proof.Machine
end

