-- ==== Sys2Proof/Machine/State.lean ====
section
/-!
DEFINITION. The whole state of the DPC-16 as plain data, the reasons a step can stop, and the state after power-on.
-/

namespace Sys2Proof.Machine

/-- The state of the part. 'pending' is the queue of waiting commands, first in, first out; 'scrubDue', 'minuteDue' and
'freeUses' are the model's own (notes/assumptions/37.md, 5.md and 8.md); every other field is the spec's, named in INVENTORY.md with its rule. -/
structure State where
  pending : List Instr
  phase : Phase
  ports : Vector Port 6
  records : Vector PackRecord 64
  checks : Vector CheckCode 64
  seenCounter : Nat
  corrected : Nat
  scrub : SlotId
  scrubDue : Bool
  profiles : Vector Profile 8
  bays : Vector Bay 16
  latchNumber : Nat
  site : Site
  supply : Supply
  periodTimer : Option Nat
  passMark : Bool
  pendingList : List Increase
  clock : Option Clock
  minuteDue : Option Nat
  planMark : Bool
  entries : Vector Entry 48
  readyQueues : Vector (FlagSet 64) 8
  recalls : Vector (List Recall) 4
  draws : Vector (Option Draw) 64
  freeUses : Nat
  deriving DecidableEq, Repr

/-- The spec describes no condition in which the part stops, so no meaning answers a fault: there is no reason for one. -/
inductive Fault where
  deriving DecidableEq, Repr

/-- Why a step is refused. -/
inductive Refusal where
  /-- Raised by exec's arm for a command that has no meaning yet, with its row's mnemonic. Safe. -/
  | notModelled (mnemonic : String)
  /-- Raised by exec for a term that is no command of the part: UNKNOWN_CODE with a code of the command table
  (WellFormed.lean, R177). Safe: the part never meets it. -/
  | illFormed (mnemonic : String)
  deriving DecidableEq, Repr

/-- The state that POWER_ON leaves with these straps and this queue (R21, R36, R62, R84, R99, R117, R132, R152, R166, R173,
R175). The scan after power-on is running. -/
def State.poweredOn (straps : Straps) (queue : List Instr) : State :=
  { pending := queue
    phase := .scanAfterPowerOn
    ports := resetPorts straps 0
    records := Vector.replicate 64 freeRecord
    checks := Vector.replicate 64 .clean
    seenCounter := 0
    corrected := 0
    scrub := 0
    scrubDue := false
    profiles := Vector.replicate 8 blankProfile
    bays := Vector.replicate 16 emptyBay
    latchNumber := 0
    site := defaultSite
    supply := resetSupply
    periodTimer := none
    passMark := false
    pendingList := []
    clock := none
    minuteDue := none
    planMark := false
    entries := Vector.replicate 48 blankEntry
    readyQueues := Vector.replicate 8 0
    recalls := Vector.replicate 4 []
    draws := Vector.replicate 64 none
    freeUses := 0 }

/-- DESIGN CHOICE (notes/assumptions/2.md): the strap pins of State.reset, four clusters on P0 to P3 and two depot computers
on P4 and P5, as 00_scope.md 0.1 describes a depot. The pins are inputs; POWER_ON and HARD_RESET sample any. -/
def resetStraps : Straps := #v[0, 1, 2, 3, 4, 4]

/-- The machine right after reset: power-on has been taken and the scan is running. -/
def State.reset : State := State.poweredOn resetStraps []

end Sys2Proof.Machine
end

