-- ==== Sys2Proof/Machine/Ops.lean ====
section
/-!
DEFINITION. The named operations over the state that every command is made of: reading and writing each table, raising
notices (10_notices.md), setting change marks (R7), requests for passes (R101, R143), eligibility (R40), reductions (R121),
inhibits (R39) and event counters (R80).
-/

namespace Sys2Proof.Machine

/-! ### Numbering (00_scope.md 0.6.3) -/

/-- The cluster of a bay. -/
def clusterOf (b : BayId) : ClusterId := ⟨b.val / 4, by omega⟩

/-- The place of a bay within its cluster. -/
def localOf (b : BayId) : Fin 4 := ⟨b.val % 4, by omega⟩

/-- Local bay k of cluster c is global bay 4c + k. -/
def globalBay (c : ClusterId) (k : Fin 4) : BayId := ⟨4 * c.val + k.val, by omega⟩

/-- The group of a slot. -/
def groupOf (i : SlotId) : GroupId := ⟨i.val / 8, by omega⟩

/-- All bays, slots and entries in ascending order. -/
def allBays : List BayId := List.finRange 16
def allSlots : List SlotId := List.finRange 64
def allEntries : List EntryId := List.finRange 48
def allSweepers : List SweeperId := List.finRange 64

/-! ### Reading and writing the tables -/

def State.port (s : State) (p : PortId) : Port := s.ports[p]
def State.record (s : State) (i : SlotId) : PackRecord := s.records[i]
def State.check (s : State) (i : SlotId) : CheckCode := s.checks[i]
def State.profile (s : State) (k : ProfileId) : Profile := s.profiles[k]
def State.bay (s : State) (b : BayId) : Bay := s.bays[b]
def State.entry (s : State) (e : EntryId) : Entry := s.entries[e]
def State.queue (s : State) (k : ProfileId) : FlagSet 64 := s.readyQueues[k]
def State.recall (s : State) (c : ClusterId) : List Recall := s.recalls[c]
def State.drawOf (s : State) (w : SweeperId) : Option Draw := s.draws[w]

def State.setPort (s : State) (p : PortId) (x : Port) : State := { s with ports := s.ports.set p x }
def State.setBay (s : State) (b : BayId) (x : Bay) : State := { s with bays := s.bays.set b x }
/-- A bay changed by a function. -/
def State.modBay (s : State) (b : BayId) (f : Bay → Bay) : State := s.setBay b (f (s.bay b))

def State.setProfile (s : State) (k : ProfileId) (x : Profile) : State := { s with profiles := s.profiles.set k x }
def State.setEntry (s : State) (e : EntryId) (x : Entry) : State := { s with entries := s.entries.set e x }
def State.setDraw (s : State) (w : SweeperId) (d : Option Draw) : State := { s with draws := s.draws.set w d }

/-- Store a record with a fresh check code (R17), without regard to the change marks. -/
def State.storeRecord (s : State) (i : SlotId) (r : PackRecord) : State :=
  { s with records := s.records.set i r, checks := s.checks.set i .clean }

/-- The Supply Monitor's state replaced. -/
def State.setSupply (s : State) (x : Supply) : State := { s with supply := x }

/-- The clock's minute of week, or 0 while the clock is UNSET: what ready-since (R15, R60, R164) and a recall's issue minute
(R161) take. -/
def State.minuteNow (s : State) : Nat := match s.clock with
  | some c => c.minute
  | none => 0

/-! ### Notices (R167 to R169, R172) -/

/-- What a notice is raised for (10_notices.md): one bay, one cluster, or the part as a whole. -/
inductive Scope where
  | bay (b : BayId)
  | cluster (c : ClusterId)
  | part
  deriving DecidableEq, Repr

/-- The role takes a notice of this kind and scope (R167). -/
def Role.takes (role : Role) (k : NoticeKind) (w : Scope) : Bool :=
  match role with
  | .depot => true
  | .observer => true
  | .off => false
  | .cluster c =>
    match w with
    | .bay b => clusterOf b == c
    | .cluster d => d == c
    | .part => k == .supply

/-- A bay summary joined by the bay a notice was raised for (R172). -/
def Scope.joinSummary (w : Scope) (f : FlagSet 16) : FlagSet 16 :=
  match w with
  | .bay b => addFlag f b
  | _ => f

/-- Delivery of a notice at a port (R167, R172). -/
def Port.deliver (x : Port) (k : NoticeKind) (w : Scope) : Port :=
  if x.role.takes k w then { x with raised := addFlag x.raised k.bit, summary := w.joinSummary x.summary } else x

/-- A notice raised (R167): delivered at every port whose role and scope take it. A FAULT notice so raised is a declaration
(R169). -/
def State.notify (s : State) (k : NoticeKind) (w : Scope) : State :=
  { s with ports := updateAll s.ports fun _ x => x.deliver k w }

/-- A FAULT notice raised as a clear (R169): delivered only to ports in scope whose option is BOTH. -/
def State.notifyFaultClear (s : State) (b : BayId) : State :=
  { s with ports := updateAll s.ports fun _ x => if x.edge == .both then x.deliver .fault (.bay b) else x }

/-- The attention line of a port is asserted (R168): a kind is both pending and in the mask. -/
def State.attention (s : State) (p : PortId) : Bool := (s.port p).raised &&& (s.port p).mask != 0

/-! ### Change marks and record writes (R7, R17) -/

/-- The mark of a group set at every port, strapped OFF or not (R7). -/
def State.markGroup (s : State) (g : GroupId) : State :=
  { s with ports := updateAll s.ports fun _ x => { x with marks := addFlag x.marks g } }

/-- Two records agree in every field whose change sets a mark (R7; a change of tag comes with one of these). -/
def PackRecord.sameMarked (r t : PackRecord) : Bool :=
  r.lifecycle == t.lifecycle && r.bay == t.bay && r.sweeper == t.sweeper && r.reservation == t.reservation &&
    r.profile == t.profile && r.capacity == t.capacity && r.cycles == t.cycles && r.reason == t.reason

/-- A record written: a fresh check code (R17), and the group's mark at every port where a marked field changes (R7). -/
def State.putRecord (s : State) (i : SlotId) (r : PackRecord) : State :=
  if (s.record i).sameMarked r then s.storeRecord i r else (s.storeRecord i r).markGroup (groupOf i)

/-! ### Requests (R101, R143) -/

/-- An allocation pass requested (R101). -/
def State.requestPass (s : State) : State := { s with passMark := true }

/-- A planning pass requested (R143). -/
def State.requestPlan (s : State) : State := { s with planMark := true }

/-! ### The effective other load and the budget (R88, R89, R90) -/

/-- The effective other load O (R88). -/
def Supply.otherLoad (x : Supply) : Nat :=
  match x.meterMode with
  | .unmetered => 0
  | .metered =>
    match x.condition with
    | .empty => x.limit
    | .fresh => x.readings.getLastD 0
    | .stale => x.readings.foldl max 0

/-- The open budget (R89): limit − reserve − O, raised to 0 and lowered to the limit. -/
def Supply.openBudget (x : Supply) : Nat := min (x.limit - x.reserve - x.otherLoad) x.limit

/-- The budget figure (R89). -/
def State.budget (s : State) : Nat :=
  match s.supply.hold with
  | .running => s.supply.openBudget
  | .ramping => s.supply.openBudget * s.supply.elapsed.getD 0 / s.site.rampTime
  | .windingDown => 0
  | .held => 0

/-- The pass request of R90, at an event of R89: a budget figure below the pass figure requests a pass. -/
def State.checkBudget (s : State) : State := if s.budget < s.supply.passFigure then s.requestPass else s

/-! ### Bays: eligibility, inhibits, reductions (R38 to R40, R121) -/

/-- The stage is one of the charging stages (R40). -/
def Stage.charging : Stage → Bool
  | .bulk => true
  | .absorb => true
  | .equalise => true
  | _ => false

/-- The bay is eligible (R40). -/
def Bay.eligible (x : Bay) : Bool := x.stage.charging && x.inhibits == 0 && x.report == .normal

/-- The bay carries an inhibit reason (R39). -/
def Bay.carries (x : Bay) (r : Inhibit) : Bool := hasFlag x.inhibits r.bit

/-- The bay's pending increase, where one stands on the pending list (R119). -/
def State.pendingIncrease (s : State) (b : BayId) : Option Nat :=
  (s.pendingList.find? fun x => x.bay == b).map (·.grant)

/-- The bay's pending increase dropped; the others keep their places (R127). -/
def State.dropIncrease (s : State) (b : BayId) : State :=
  { s with pendingList := s.pendingList.filter fun x => x.bay != b }

/-- What follows a change of eligibility (R40): a request, and a dropped increase where the bay ceased to be eligible. -/
def State.afterEligibility (s : State) (b : BayId) (was : Bool) : State :=
  if (s.bay b).eligible == was then s
  else if was then (s.requestPass).dropIncrease b
  else s.requestPass

/-- A bay changed, with what follows from a change of its eligibility (R40). -/
def State.changeBay (s : State) (b : BayId) (f : Bay → Bay) : State :=
  (s.modBay b f).afterEligibility b (s.bay b).eligible

/-- A bay after its grant is lowered to v (R121, steps 1, 2, 4 and 5). -/
def Bay.reduced (x : Bay) (v timeout : Nat) : Bay :=
  { x with grant := v, reduction := true, confirmTimer := if x.reduction then x.confirmTimer else some timeout }

/-- A reduction of a bay's grant to v (R121). A grant already at or below v is left: that is no reduction. -/
def State.lower (s : State) (b : BayId) (v : Nat) : State :=
  if v < (s.bay b).grant then (s.modBay b fun x => x.reduced v s.site.confirmTimeout).notify .grant (.bay b) else s

/-- An inhibit reason added: the grant goes to 0 as a reduction at the same event (R39), with the effects of R40. -/
def State.addInhibit (s : State) (b : BayId) (r : Inhibit) : State :=
  (s.changeBay b fun x => { x with inhibits := addFlag x.inhibits r.bit }).lower b 0

/-- An inhibit reason removed: the grant stays (R39), with the effects of R40. -/
def State.removeInhibit (s : State) (b : BayId) (r : Inhibit) : State :=
  s.changeBay b fun x => { x with inhibits := dropFlag x.inhibits r.bit }

/-- The FAULT inhibit added, with its lowering and its FAULT notice as a declaration, present before or not (R69). -/
def State.addFault (s : State) (b : BayId) : State := (s.addInhibit b .fault).notify .fault (.bay b)

/-- The bay's stage set: a move out of the charging stages lowers the grant to 0 (R39) with the effects of R40, and a BAY
notice is raised. -/
def State.enterStage (s : State) (b : BayId) (st : Stage) : State :=
  let moved := s.changeBay b fun x => { x with stage := st }
  (if st.charging then moved else moved.lower b 0).notify .bay (.bay b)

/-! ### Event counters (R80, R81) -/

/-- A counter's cell after one more event (R80). -/
def CounterCell.counted (c : CounterCell) : CounterCell :=
  if c.value < 65535 then ⟨c.value + 1, c.saturated || c.value + 1 == 65535⟩ else c

/-- An event counted at a bay (R80): the increase that reaches 65535 raises COUNTER. -/
def State.count (s : State) (b : BayId) (k : EventCounter) : State :=
  let cell := (s.bay b).counters[k.place]
  let counted := s.modBay b fun x => { x with counters := x.counters.set k.place cell.counted }
  if cell.value + 1 == 65535 then counted.notify .counter (.bay b) else counted

/-- A bay latched (R81): each counter copied to its image and set to 0. -/
def Bay.latched (x : Bay) : Bay := { x with images := x.counters, counters := Vector.replicate 5 ⟨0, false⟩ }

/-- A latch of all 16 bays at one event, advancing the latch number (R81). -/
def State.latch (s : State) : State :=
  { s with bays := updateAll s.bays fun _ x => x.latched
           latchNumber := if s.latchNumber < 65535 then s.latchNumber + 1 else 0 }

end Sys2Proof.Machine
end

