-- ==== Sys2Proof/Machine/Grants.lean ====
section
/-!
DEFINITION. The power of a current (R104, R105) and the Grant Release Unit (spec/07_grant_release.md): confirmation (R123),
release (R129), overdraw (R130) and the hand-over of a pass's targets (R122).
-/

namespace Sys2Proof.Machine

/-! ### The power of a current (R104, R105) -/

/-- The voltage V and the efficiency η of a bay's power (R104). -/
def State.powerTerms (s : State) (b : BayId) : Nat × Nat :=
  let x := s.bay b
  let pr := s.profile x.profile
  if x.stage == .empty || !pr.valid then (9999, 70)
  else
    match x.last with
    | some l => (max l.voltage pr.nominalVoltage, pr.efficiency)
    | none => (pr.nominalVoltage, pr.efficiency)

/-- The power of a current at a bay (R104): ⌈I × V / (10 × η)⌉. -/
def State.powerOf (s : State) (b : BayId) (current : Nat) : Nat :=
  ceilDiv (current * (s.powerTerms b).1) (10 * (s.powerTerms b).2)

/-- A bay's allowance written, with its allowance power computed at this event (R105). -/
def State.setAllowance (s : State) (b : BayId) (a : Nat) : State :=
  s.modBay b fun x => { x with allowance := a, power := s.powerOf b a }

/-- The sum of the allowance power of every bay (R129). -/
def State.totalPower (s : State) : Nat := (allBays.map fun b => (s.bay b).power).sum

/-- No bay's reduction mark is set: the unresolved list is empty (R119). -/
def State.allResolved (s : State) : Bool := allBays.all fun b => !(s.bay b).reduction

/-- The number of bays on the unresolved list (R119, R131). -/
def State.unresolvedCount (s : State) : Nat := allBays.countP fun b => (s.bay b).reduction

/-! ### Release (R129) -/

/-- The allowance a release to v gives (R129, step 1). -/
def Bay.releaseAllowance (x : Bay) (v : Nat) : Nat := max v x.allowance

/-- A grant of v at the bay fits (R129, step 2). -/
def State.releaseFits (s : State) (b : BayId) (v : Nat) : Bool :=
  s.totalPower - (s.bay b).power + s.powerOf b ((s.bay b).releaseAllowance v) ≤ s.budget

/-- The grant a pending increase releases (R129, steps 2 and 3), or none. -/
def State.releaseValue (s : State) (inc : Increase) : Option Nat :=
  if s.releaseFits inc.bay inc.grant then some inc.grant
  else
    largestStep
      (fun v => v > (s.bay inc.bay).grant && v ≥ (s.profile (s.bay inc.bay).profile).minCurrent &&
        s.releaseFits inc.bay v)
      ((inc.grant - 1) / 5)

/-- One increase of the walk (R129, steps 1 to 4). -/
def State.releaseOne (s : State) (inc : Increase) : State :=
  match s.releaseValue inc with
  | some v =>
    ((s.modBay inc.bay fun x => { x with grant := v }).setAllowance inc.bay
      ((s.bay inc.bay).releaseAllowance v)).notify .grant (.bay inc.bay)
  | none => s

/-- The pending list released, in its order; every increase leaves the list (R129). -/
def State.release (s : State) : State :=
  { s.pendingList.foldl State.releaseOne s with pendingList := [] }

/-- The pending list released where the unresolved list stands empty (R122, R123, R126). -/
def State.releaseIfResolved (s : State) : State := if s.allResolved then s.release else s

/-! ### Confirmation and overdraw (R123, R124, R130) -/

/-- The reduction of a bay is resolved: its mark is cleared and its timer stopped, and where the list is thereby left empty
the pending list is released (R123, R126). A bay whose mark is clear resolves nothing. -/
def State.resolve (s : State) (b : BayId) : State :=
  if (s.bay b).reduction then
    (s.modBay b fun x => { x with reduction := false, confirmTimer := none }).releaseIfResolved
  else s

/-- A bay holds something a confirmation would bring down (R123): its mark is set or its allowance stands above its
grant. -/
def Bay.unconfirmed (x : Bay) : Bool := x.reduction || x.allowance > x.grant

/-- A confirmation (R123, R124): the allowance falls to the grant and the reduction is resolved. -/
def State.confirm (s : State) (b : BayId) : State :=
  if (s.bay b).unconfirmed then (s.setAllowance b (s.bay b).grant).resolve b else s

/-- The tolerance of a grant (R123): the greater of 10 and ⌈G × 5 / 100⌉. -/
def tolerance (g : Nat) : Nat := max 10 (ceilDiv (g * 5) 100)

/-- The overdraw streak of a bay set. -/
def State.setOverdrawStreak (s : State) (b : BayId) (n : Nat) : State := s.modBay b fun x => { x with overdrawStreak := n }

/-- An allowance raised by overdraw (R130, step 2). -/
def State.raiseAllowance (s : State) (b : BayId) (current : Nat) : State :=
  if (s.bay b).allowance < upTo5 current then (s.setAllowance b (upTo5 current)).notify .grant (.bay b) else s

/-- A report above the tolerance (R130). -/
def State.overdrawn (s : State) (b : BayId) (current : Nat) : State :=
  if (s.bay b).overdrawStreak + 1 < 2 then s.setOverdrawStreak b ((s.bay b).overdrawStreak + 1)
  else ((s.count b .overdraw).raiseAllowance b current).setOverdrawStreak b 0

/-- A report's current compared with the grant (R51 step 3, R53, R123, R130). -/
def State.compareCurrent (s : State) (b : BayId) (current : Nat) : State :=
  if current ≤ (s.bay b).grant + tolerance (s.bay b).grant then (s.confirm b).setOverdrawStreak b 0
  else s.overdrawn b current

/-! ### Targets (R122) -/

/-- A target of a pass. -/
structure Target where
  bay : BayId
  current : Nat
  deriving DecidableEq, Repr

/-- A target applied (R122, step 2). A bay that is SILENT, or not eligible, is left as it is. -/
def State.applyTarget (s : State) (t : Target) : State :=
  if (s.bay t.bay).eligible then
    if (s.bay t.bay).grant < t.current then { s with pendingList := s.pendingList ++ [⟨t.bay, t.current⟩] }
    else s.lower t.bay t.current
  else s

/-- The targets of a pass handed over (R122): earlier increases discarded, each target applied in order, and the pending list
released where nothing is unresolved. -/
def State.handOver (s : State) (targets : List Target) : State :=
  (targets.foldl State.applyTarget { s with pendingList := [] }).releaseIfResolved

end Sys2Proof.Machine
end

