-- ==== Sys2Proof/Machine/Roster.lean ====
section
/-!
DEFINITION. The Pack Roster (spec/01_pack_roster.md): reservations, queues and draws that hang on a record, quarantine
(R13), record integrity (R17, R18), listing, eviction and relisting (R9 to R12).
-/

namespace Sys2Proof.Machine

/-! ### What hangs on a record: reservation, ready queue, recall and draw -/

/-- The reservation of entry e on slot i cleared on both sides outside a planning pass, with the two requests (R150). -/
def State.dropReservation (s : State) (e : EntryId) (i : SlotId) : State :=
  (((s.setEntry e { s.entry e with reserved := none }).putRecord i
    { s.record i with reservation := none }).requestPlan).requestPass

/-- A record's reservation, if it holds one, cleared outside a planning pass (R150). -/
def State.clearReservation (s : State) (i : SlotId) : State :=
  match (s.record i).reservation with
  | some e => s.dropReservation e i
  | none => s

/-- The entry whose reserved slot names the slot. -/
def State.entryReserving (s : State) (i : SlotId) : Option EntryId :=
  allEntries.find? fun e => (s.entry e).reserved == some i

/-- A slot joins the ready queue of a profile (R153). -/
def State.joinReady (s : State) (k : ProfileId) (i : SlotId) : State :=
  { s with readyQueues := s.readyQueues.set k (addFlag (s.queue k) i) }

/-- A slot leaves its ready queue (R153). -/
def State.leaveReady (s : State) (i : SlotId) : State :=
  { s with readyQueues := updateAll s.readyQueues fun _ q => dropFlag q i }

/-- A ready queue holds the slot. -/
def State.inReadyQueue (s : State) (i : SlotId) : Bool :=
  (List.finRange 8).any fun k => hasFlag (s.queue k) i

/-- The recall that names the slot, in whichever recall queue it stands (R161). -/
def State.recallOf (s : State) (i : SlotId) : Option Recall :=
  (List.finRange 4).findSome? fun c => (s.recall c).find? fun r => r.slot == i

/-- The recall of a slot leaves its queue (R163). -/
def State.removeRecall (s : State) (i : SlotId) : State :=
  { s with recalls := updateAll s.recalls fun _ q => q.filter fun r => r.slot != i }

/-- The sweeper whose draw names the slot (R163). -/
def State.drawingSweeper (s : State) (i : SlotId) : Option SweeperId :=
  allSweepers.find? fun w => (s.drawOf w).map (·.slot) == some i

/-- The entry of an ended draw takes a status, if it is still CALLED (R163). -/
def State.settleDrawnEntry (s : State) (e : Option EntryId) (outcome : EntryStatus) : State :=
  match e with
  | some e => if (s.entry e).status == .called then s.setEntry e { s.entry e with status := outcome } else s
  | none => s

/-- The draw of a slot ends (R163): the sweeper's place in the draw table is cleared, the recall leaves its queue, the draw's
entry takes a status if it is CALLED, and a DRAW notice is raised. -/
def State.endDraw (s : State) (i : SlotId) (outcome : EntryStatus) : State :=
  match s.drawingSweeper i with
  | some w =>
    ((((s.setDraw w none).removeRecall i).settleDrawnEntry ((s.drawOf w).bind (·.entry)) outcome)).notify .draw .part
  | none => (s.removeRecall i).notify .draw .part

/-- A draw withdrawn (R161, R163): it ends without an issue, its entry returns to IDLE, and a RECALL notice is raised for the
cluster whose queue held the recall. -/
def State.voidDraw (s : State) (i : SlotId) : State :=
  match s.recallOf i with
  | some r => (s.endDraw i .idle).notify .recall (.cluster (clusterOf r.bay))
  | none => s.endDraw i .idle

/-! ### Quarantine (R13) -/

/-- What a record loses on entering QUARANTINED, by the lifecycle it had before (R13): its reservation, its place in a ready
queue, its draw. -/
def State.withdraw (s : State) (i : SlotId) (prior : Lifecycle) : State :=
  match prior with
  | .docked => s.clearReservation i
  | .ready => (s.clearReservation i).leaveReady i
  | .called => s.voidDraw i
  | _ => s

/-- A bay holding a record that enters QUARANTINED (R13): it gains QUARANTINE, its grant goes to 0, and it loses CALLED. -/
def State.quarantineBay (s : State) (b : Option BayId) : State :=
  match b with
  | some b =>
    let held := s.addInhibit b .quarantine
    if (held.bay b).carries .called then held.removeInhibit b .called else held
  | none => s

/-- A record enters QUARANTINED (R13). -/
def State.enterQuarantine (s : State) (i : SlotId) (why : Reason) : State :=
  let left := s.withdraw i (s.record i).lifecycle
  let kept := left.putRecord i { left.record i with
    lifecycle := .quarantined, sweeper := none, reservation := none, readySince := none, reason := some why }
  ((kept.quarantineBay (s.record i).bay).notify .roster .part).requestPlan

/-! ### Record integrity (R17, R18) -/

/-- The corrected-error counter after one correction (R17). -/
def State.countCorrection (s : State) : State :=
  let counted : State := { s with corrected := countTo 65535 s.corrected }
  if s.corrected + 1 == 65535 then counted.notify .roster .part else counted

/-- The bay that names the slot as its docked slot (R18, step 1). -/
def State.bayNaming (s : State) (i : SlotId) : Option BayId :=
  allBays.find? fun b => (s.bay b).slot == some i

/-- The prior lifecycle of a damaged record, read from what the other blocks hold (R18, step 3); FREE stands for 'none of
these'. -/
def State.priorOfDamaged (s : State) (i : SlotId) : Lifecycle :=
  if (s.recallOf i).isSome then .called
  else if s.inReadyQueue i then .ready
  else if (s.bayNaming i).isSome then .docked
  else .free

/-- The profile of a rebuilt record (R18, step 2): the profile copy of the bay that names the slot, or 0. -/
def State.profileOfDamaged (s : State) (i : SlotId) : ProfileId :=
  match s.bayNaming i with
  | some b => (s.bay b).profile
  | none => 0

/-- The fresh values of R2 for a record of a profile. -/
def State.freshRecord (s : State) (k : ProfileId) : PackRecord :=
  { freeRecord with profile := k, capacity := (s.profile k).rated }

/-- The record of R18, step 2. Its seen stamp is the free value of notes/assumptions/8.md. -/
def State.damagedRecord (s : State) (i : SlotId) : PackRecord :=
  { s.freshRecord (s.profileOfDamaged i) with
    lifecycle := .quarantined, bay := s.bayNaming i, reason := some .damaged,
    seen := (Config.rebuiltStamp s.freeUses).toNat }

/-- The queues, reservation and draw that a damaged record stood in are left, as the other blocks hold them (R18, step
3). -/
def State.leaveDamaged (s : State) (i : SlotId) : State :=
  let unreserved := match s.entryReserving i with
    | some e => s.dropReservation e i
    | none => s
  match s.priorOfDamaged i with
  | .called => unreserved.voidDraw i
  | .ready => unreserved.leaveReady i
  | _ => unreserved

/-- A record rebuilt as DAMAGED (R18). The group's marks are set at every port, whatever the record held. -/
def State.rebuild (s : State) (i : SlotId) : State :=
  let kept := (((s.leaveDamaged i).storeRecord i (s.damagedRecord i)).markGroup (groupOf i))
  let counted : State := { kept with freeUses := s.freeUses + 1 }
  ((counted.quarantineBay (s.bayNaming i)).notify .roster .part).requestPlan

/-- An access to a record: its check code is checked (R17), a single bad bit corrected, and two bad bits lead to a rebuild
(R18). -/
def State.access (s : State) (i : SlotId) : State :=
  match s.check i with
  | .clean => s
  | .oneBit => ({ s with checks := s.checks.set i .clean }).countCorrection
  | .twoBits => s.rebuild i

/-- A reservation an entry holds cleared outside a planning pass (R138 to R140, R145, R150). The write of the record is an access (R17). -/
def State.unreserve (s : State) (e : EntryId) : State :=
  match (s.entry e).reserved with
  | some i =>
    let checked := s.access i
    if (checked.entry e).reserved == some i then checked.dropReservation e i else checked
  | none => s

/-- Accesses to several records, in the order given. -/
def State.accessAll (s : State) (l : List SlotId) : State := l.foldl State.access s

/-- An access to the record a bay names, if it names one. -/
def State.accessDocked (s : State) (b : BayId) : State :=
  match (s.bay b).slot with
  | some i => s.access i
  | none => s

/-! ### Lookup (R4) and the seen counter (R5) -/

/-- The record holding a tag (R4): an unknown tag, and the tag 0, match nothing. -/
def State.slotOfTag (s : State) (t : Tag) : Option SlotId :=
  if t = 0 then none
  else allSlots.find? fun i => (s.record i).tag == t && (s.record i).lifecycle != .free

/-- The tag stands in the copy of a bay that is UNLISTED or whose docked record is QUARANTINED as DAMAGED (R4). -/
def State.tagInBayCopy (s : State) (t : Tag) : Bool :=
  allBays.any fun b =>
    (s.bay b).stage != .empty && (s.bay b).tag == t &&
      match (s.bay b).slot with
      | none => (s.bay b).carries .unlisted
      | some i => (s.record i).lifecycle == .quarantined && (s.record i).reason == some .damaged

/-- A dock or undock taken (R5). -/
def State.countSeen (s : State) : State := { s with seenCounter := countTo 4294967295 s.seenCounter }

/-! ### Listing (R9 to R12) -/

/-- The lowest-numbered FREE slot (R9). -/
def State.freeSlot (s : State) : Option SlotId :=
  allSlots.find? fun i => (s.record i).lifecycle == .free

/-- The STORED record with the smallest seen stamp, the lowest slot among equals (R10). -/
def State.victim (s : State) : Option SlotId :=
  (sortByKey (fun i => [((s.record i).seen : Int), (i.val : Int)])
    (allSlots.filter fun i => (s.record i).lifecycle == .stored)).head?

/-- The record that a listing fills (R2, R9): fresh values with the tag, the profile and the bay. -/
def State.listedRecord (s : State) (t : Tag) (k : ProfileId) (b : BayId) : PackRecord :=
  { s.freshRecord k with tag := t, lifecycle := .docked, bay := some b }

/-- The lowest-numbered UNLISTED bay (R12). -/
def State.unlistedBay (s : State) : Option BayId :=
  allBays.find? fun b => (s.bay b).carries .unlisted

/-- The absorb point of a capacity (R45, R56): ⌊capacity × absorb point / 100⌋. -/
def Profile.absorbAt (pr : Profile) (capacity : Nat) : Nat := capacity * pr.absorbPoint / 100

/-- The stage a bay takes for a record (R45, R46): BULK below the absorb point, ABSORB at or above it; BULK under the PROFILE
inhibit. -/
def State.stageFor (s : State) (b : BayId) (r : PackRecord) : Stage :=
  if (s.bay b).carries .profile then .bulk
  else if r.estimate < (s.profile (s.bay b).profile).absorbAt r.capacity then .bulk
  else .absorb

/-- A freed slot relisted for the lowest-numbered UNLISTED bay, if one waits (R12, R46). -/
def State.relist (s : State) (i : SlotId) : State :=
  match s.unlistedBay with
  | none => s
  | some b =>
    let r := { s.listedRecord (s.bay b).tag (s.bay b).profile b with seen := s.seenCounter }
    let listed := (s.putRecord i r).modBay b fun x => { x with slot := some i }
    let staged :=
      if s.stageFor b r == (s.bay b).stage then listed else listed.enterStage b (s.stageFor b r)
    (((staged.removeInhibit b .unlisted).notify .roster .part).requestPlan)

end Sys2Proof.Machine
end

