-- ==== Sys2Proof/Machine/Bays.lean ====
section
/-!
DEFINITION. The Bay Units (spec/03_bay_operation.md, spec/04_bay_supervision_and_counters.md): temperature bands, heat,
charge accounting, stage progression, silence, stalls and probation.
-/

namespace Sys2Proof.Machine

/-! ### Temperature bands (R30 to R32, R54, R55) -/

/-- The band a temperature lies in (R30). -/
def Profile.bandOf (pr : Profile) (t : Int) : Fin 6 :=
  if t < pr.breakpoints[0] then 0
  else if t < pr.breakpoints[1] then 1
  else if t < pr.breakpoints[2] then 2
  else if t < pr.breakpoints[3] then 3
  else if t < pr.breakpoints[4] then 4
  else 5

/-- The lower breakpoint b_k of a band; band 0 has none (R30). -/
def Profile.lowerBreakpoint (pr : Profile) (k : Fin 6) : Option Int :=
  if h : 0 < k.val then some (pr.breakpoints[k.val - 1]'(by omega)) else none

/-- The factor of a band (R31). -/
def Profile.factor (pr : Profile) (k : Fin 6) : Nat := pr.factors[k]

/-- The warm-up factor of a band whose factor is 0 (R32): that of the lowest band above it whose factor is above 0. -/
def Profile.warmUp (pr : Profile) (k : Fin 6) : Option Nat :=
  ((List.finRange 6).find? fun j => k < j && pr.factor j > 0).map pr.factor

/-- The candidate band of a report (R54), with the cooling margin of 2 °C. -/
def Profile.candidateBand (pr : Profile) (k : Fin 6) (t : Int) : Fin 6 :=
  if pr.bandOf t < k then
    match pr.lowerBreakpoint k with
    | some b => if t > b - 2 then k else pr.bandOf t
    | none => pr.bandOf t
  else pr.bandOf t

/-- The profile entry of a bay's profile copy. -/
def State.bayProfile (s : State) (b : BayId) : Profile := s.profile (s.bay b).profile

/-- The TEMPERATURE inhibit follows the factor of the bay's band (R31). -/
def State.followFactor (s : State) (b : BayId) : State :=
  if (s.bayProfile b).factor (s.bay b).band == 0 then s.addInhibit b .temperature
  else if (s.bay b).carries .temperature then s.removeInhibit b .temperature
  else s

/-- What the heat limit does (R79). -/
def State.heatLimit (s : State) (b : BayId) : State :=
  match (s.bay b).slot with
  | none => s.addFault b
  | some i =>
    let checked := s.access i
    if (checked.record i).lifecycle == .quarantined then checked else checked.enterQuarantine i .heat

/-- A heat entry (R77): OVERTEMP is counted, the heat count increases, and at 3 the heat limit is reached. -/
def State.heatEntry (s : State) (b : BayId) : State :=
  let counted := (s.count b .overtemp).modBay b fun x => { x with heat := min 3 (x.heat + 1) }
  if (s.bay b).heat + 1 < 3 then counted else counted.heatLimit b

/-- A bay's band set, with the debounce count at 0. -/
def State.putBand (s : State) (b : BayId) (k : Fin 6) : State :=
  s.modBay b fun x => { x with band := k, debounce := 0 }

/-- A change of a bay's band to k (R55, R77). -/
def State.changeBand (s : State) (b : BayId) (k : Fin 6) : State :=
  let moved := ((s.putBand b k).followFactor b).notify .bay (.bay b)
  if k = 5 then moved.heatEntry b else moved

/-- The band tracked at a report (R54); a bay under the PROFILE inhibit holds its band and count (R28). -/
def State.trackBand (s : State) (b : BayId) (t : Int) : State :=
  let x := s.bay b
  let k := (s.bayProfile b).candidateBand x.band t
  if x.carries .profile then s
  else if k = x.band then s.modBay b fun y => { y with debounce := 0 }
  else if x.debounce + 1 < 3 then s.modBay b fun y => { y with debounce := y.debounce + 1 }
  else s.changeBand b k

/-- The band set at the take of a valid entry (R34 steps 2 and 3): from the last temperature, without debounce. A band that
does not change is no change of band (R55) and no heat entry (R77). -/
def State.retakeBand (s : State) (b : BayId) : State :=
  let x := s.bay b
  let t := match x.last with
    | some l => l.temperature
    | none => x.dockTemperature
  let k := (s.bayProfile b).bandOf t
  if k = x.band then (s.putBand b k).followFactor b else s.changeBand b k

/-! ### Charge accounting (R52) -/

/-- The bound of a charge estimate (R2, R52). -/
def estimateBound (capacity : Nat) : Nat := min (capacity * 110 / 100) 65535

/-- The amount credited at a report (R52), in units of 0.1 A·ms. -/
def creditOf (current interval acceptance : Nat) : Nat :=
  current * clampNat 1 10000 interval * min acceptance 100 / 100

/-- A record after c units of 0.1 A·ms are credited (R52). -/
def PackRecord.credited (r : PackRecord) (c : Nat) : PackRecord :=
  let sum := r.residue + c
  let estimate := r.estimate + sum / 3600000
  if estimateBound r.capacity < estimate then { r with estimate := estimateBound r.capacity, residue := 0 }
  else { r with estimate := estimate, residue := sum % 3600000 }

/-- Charge credited at a report for a bay that names a docked slot (R52). -/
def State.creditCharge (s : State) (b : BayId) (current interval : Nat) : State :=
  match (s.bay b).slot with
  | none => s
  | some i =>
    let c := creditOf current interval (s.bayProfile b).acceptance
    let quotient := ((s.record i).residue + c) / 3600000
    (s.putRecord i ((s.record i).credited c)).modBay b fun x => { x with session := min 65535 (x.session + quotient) }

/-! ### Stage progression (R56 to R61) -/

/-- A record becomes READY (R15, R60, R164): ready-since is stamped and the pack joins the ready queue of its profile. -/
def State.makeReady (s : State) (i : SlotId) : State :=
  (s.putRecord i { s.record i with lifecycle := .ready, readySince := some s.minuteNow }).joinReady (s.record i).profile i

/-- A bay's stage set to DONE (R60): a DOCKED record becomes READY, with a READY notice and a planning request. -/
def State.enterDone (s : State) (b : BayId) : State :=
  let moved := s.enterStage b .done
  match (moved.bay b).slot with
  | some i =>
    if (moved.record i).lifecycle == .docked then (((moved.makeReady i).notify .ready .part).requestPlan) else moved
  | none => moved

/-- The stage after a completed charge or equalise (R58 step 4, R59): RESTING for so many minutes, or DONE where there are
none. -/
def State.enterRest (s : State) (b : BayId) (minutes : Nat) : State :=
  if minutes = 0 then s.enterDone b
  else (s.enterStage b .resting).modBay b fun x => { x with restEnd := some (minutes * 60) }

/-- The capacity a completed charge leaves (R58, step 1). -/
def learnedCapacity (pr : Profile) (r : PackRecord) (session : Nat) : Nat :=
  if r.capacity * 60 ≤ session * 100 then
    clampNat (pr.rated / 2) (pr.rated * 11 / 10) ((3 * r.capacity + r.estimate + 2) / 4)
  else r.capacity

/-- A record after a completion's learning, resync and count (R58, steps 1 to 3). -/
def PackRecord.completed (r : PackRecord) (pr : Profile) (session : Nat) : PackRecord :=
  let capacity := learnedCapacity pr r session
  { r with capacity := capacity, estimate := capacity, residue := 0, sinceEqualise := countTo 255 r.sinceEqualise }

/-- The pack is due an equalise (R58, step 4). -/
def Profile.equaliseDue (pr : Profile) (sinceEqualise : Nat) : Bool :=
  pr.family == familyFloodedLead && 0 < pr.equaliseInterval && pr.equaliseInterval ≤ sinceEqualise

/-- A completion (R58). -/
def State.complete (s : State) (b : BayId) (i : SlotId) : State :=
  let pr := s.bayProfile b
  let r := (s.record i).completed pr (s.bay b).session
  let counted := s.putRecord i r
  if pr.equaliseDue r.sinceEqualise then
    (counted.enterStage b .equalise).modBay b fun x => { x with equaliseEnd := some (pr.equaliseMinutes * 60) }
  else counted.enterRest b pr.restMinutes

/-- The overcharge guard (R57): the estimate is at or above ⌊capacity × 105 / 100⌋. -/
def PackRecord.overcharged (r : PackRecord) : Bool := r.capacity * 105 / 100 ≤ r.estimate

/-- The stage moved at a report (R56, R57, R61). 'uninhibited' says that the inhibit set was empty when the report was
taken. -/
def State.moveStage (s : State) (b : BayId) (l : LastReport) (uninhibited : Bool) : State :=
  match (s.bay b).slot with
  | none => s
  | some i =>
    if (s.bay b).carries .profile then s
    else
      let pr := s.bayProfile b
      let r := s.record i
      let absorbed :=
        if (s.bay b).stage == .bulk && pr.absorbAt r.capacity ≤ r.estimate then s.enterStage b .absorb else s
      let terminated := l.terminated && l.current ≤ pr.finishCurrent && uninhibited
      if (absorbed.bay b).stage == .absorb && (terminated || r.overcharged) then
        (if r.overcharged then absorbed.notify .bay (.bay b) else absorbed).complete b i
      else absorbed

/-! ### Silence (R66 to R68) -/

/-- A bay becomes SILENT (R66). -/
def State.becomeSilent (s : State) (b : BayId) : State :=
  let counted := (s.count b .silence).changeBay b fun x =>
    { x with report := .silent, stallStreak := 0, probation := if x.stall == .probation then some 0 else x.probation }
  counted.notify .bay (.bay b)

/-- A bay becomes LOST (R67), from SILENT; a bay still in NORMAL becomes SILENT first, at the same event. -/
def State.becomeLost (s : State) (b : BayId) : State :=
  let silent := if (s.bay b).report == .normal then s.becomeSilent b else s
  (silent.changeBay b fun x =>
    { x with report := .lost, stallStreak := 0, probation := if x.stall == .probation then some 0 else x.probation }).addFault b

/-- The report state returns to NORMAL at a report (R68). -/
def State.returnToNormal (s : State) (b : BayId) : State :=
  if (s.bay b).report == .normal then s
  else (s.changeBay b fun x => { x with report := .normal }).notify .bay (.bay b)

/-! ### Stalls and probation (R72 to R76) -/

/-- The number of triggers a stall criterion demands (R65, R72). -/
def StallCriterion.demand : StallCriterion → Nat
  | .strict => 4
  | .lenient => 16

/-- A report with this current is a stall trigger (R72). -/
def State.stallTrigger (s : State) (b : BayId) (current : Nat) : Bool :=
  (s.bay b).eligible && (s.bayProfile b).minCurrent ≤ (s.bay b).grant && current < (s.bay b).grant / 4

/-- A stall declared at declaration count 0 or 1 (R73). -/
def State.stallHold (s : State) (b : BayId) : State :=
  let held := (s.count b .stall).modBay b fun x => { x with
    declarations := x.declarations + 1, stall := .holding, holdEnd := some 60, probation := none, stallStreak := 0 }
  (held.addInhibit b .stallHold).notify .fault (.bay b)

/-- A stall declared at declaration count 2 or 3 (R74). -/
def State.stallFault (s : State) (b : BayId) : State :=
  let faulted := (s.count b .stall).modBay b fun x => { x with
    declarations := min 3 (x.declarations + 1), stall := .clear, probation := none, stallStreak := 0 }
  faulted.addFault b

/-- A stall declared (R73, R74). -/
def State.declareStall (s : State) (b : BayId) : State :=
  if (s.bay b).declarations < 2 then s.stallHold b else s.stallFault b

/-- The stall streak at a report (R72). -/
def State.judgeStall (s : State) (b : BayId) (current : Nat) : State :=
  if s.stallTrigger b current then
    if (s.bay b).stallStreak + 1 < s.site.criterion.demand then
      s.modBay b fun x => { x with stallStreak := x.stallStreak + 1 }
    else s.declareStall b
  else s.modBay b fun x => { x with stallStreak := 0 }

/-- A stall cleared by its fourth good report (R76). -/
def State.clearStall (s : State) (b : BayId) : State :=
  ((s.modBay b fun x => { x with stall := .clear, probation := none }).notifyFaultClear b).requestPass

/-- The probation count at a report (R76). The min current of an invalid entry is not read (R24, R28): its bay is not eligible, and
the count stands. -/
def State.judgeProbation (s : State) (b : BayId) (current : Nat) : State :=
  let x := s.bay b
  if x.stall == .probation && (s.bayProfile b).valid && (s.bayProfile b).minCurrent ≤ x.grant then
    if current < ceilDiv x.grant 2 then s.modBay b fun y => { y with probation := some 0 }
    else if x.probation.getD 0 + 1 < 4 then s.modBay b fun y => { y with probation := some (y.probation.getD 0 + 1) }
    else s.clearStall b
  else s

/-- Step 7 of R51: the charger-fault mark (R70), the probation count (R76) and the stall trigger (R72). DESIGN CHOICE
(notes/assumptions/33.md): the mark comes first, so that a report that carries it meets the grant 0 that FAULT leaves. -/
def State.supervise (s : State) (b : BayId) (l : LastReport) : State :=
  let faulted := if l.chargerFault then s.addFault b else s
  (faulted.judgeProbation b l.current).judgeStall b l.current

end Sys2Proof.Machine
end

