-- ==== Sys2Proof/Machine/SupplyMonitor.lean ====
section
/-!
DEFINITION. The Supply Monitor's own operations (spec/05_site_supply.md): readings and meter condition (R86, R87), hold and
ramp (R91 to R94), the restriction zone (R95, R96) and the port peaks (R97).
-/

namespace Sys2Proof.Machine

/-- A change of the Supply Monitor's state at an event of R89, with the pass request of R90. -/
def State.resupply (s : State) (f : Supply → Supply) : State := (s.setSupply (f s.supply)).checkBudget

/-- The window after one more reading (R86, step 1): the oldest leaves a window that already held 8. -/
def appendReading (l : List Nat) (r : Nat) : List Nat := (l ++ [r]).drop (l.length + 1 - 8)

/-- Every port's peak raised to a reading (R97). -/
def State.raisePeaks (s : State) (r : Nat) : State :=
  { s with ports := updateAll s.ports fun _ x => { x with peak := max x.peak r } }

/-- A reading taken (R86). -/
def State.takeReading (s : State) (r : Nat) : State :=
  let noticed := if s.supply.condition == .fresh then s else s.notify .supply .part
  (noticed.raisePeaks r).resupply fun x =>
    { x with readings := appendReading x.readings r, age := some 0, condition := .fresh }

/-- The hold state becomes RAMPING with elapsed count 0, or RUNNING at once when the ramp time in force is 0, with a SUPPLY
notice (R93, R99). -/
def State.startRamp (s : State) : State :=
  (s.resupply fun x =>
    if s.site.rampTime = 0 then { x with hold := .running, windDown := none, elapsed := none }
    else { x with hold := .ramping, windDown := none, elapsed := some 0 }).notify .supply .part

/-- The hold state becomes RUNNING at the end of a ramp, with a SUPPLY notice (R94). -/
def State.endRamp (s : State) : State :=
  (s.resupply fun x => { x with hold := .running, elapsed := none }).notify .supply .part

/-- HOLD added to a bay that is not EMPTY (R91, step 3). -/
def State.holdBay (s : State) (b : BayId) : State :=
  if (s.bay b).stage == .empty then s else s.addInhibit b .hold

/-- An inhibit reason removed from every bay that carries it (R93, R96). -/
def State.clearInhibit (s : State) (r : Inhibit) : State :=
  allBays.foldl (fun t b => if (t.bay b).carries r then t.removeInhibit b r else t) s

/-- The hold state moves to WINDING_DOWN (R91). -/
def State.windDown (s : State) : State :=
  ((allBays.foldl State.holdBay s).resupply fun x =>
    { x with hold := .windingDown, elapsed := none, windDown := some 10 }).notify .supply .part

/-- The bay lies inside the zone (R95). -/
def Supply.insideZone (x : Supply) (b : BayId) : Bool :=
  if x.zoneFirst ≤ x.zoneLast then x.zoneFirst ≤ b && b ≤ x.zoneLast else x.zoneFirst ≤ b || b ≤ x.zoneLast

/-- A bay treated by its place in the zone (R96). -/
def State.rezoneBay (s : State) (b : BayId) : State :=
  if (s.bay b).stage == .empty then s
  else if s.supply.insideZone b then
    if (s.bay b).carries .restricted then s.removeInhibit b .restricted else s
  else if (s.bay b).carries .restricted then s
  else s.addInhibit b .restricted

/-- Every bay re-evaluated against the zone (R96), with the SUPPLY notice and the pass request of a zone command. -/
def State.rezone (s : State) : State := ((allBays.foldl State.rezoneBay s).notify .supply .part).requestPass

end Sys2Proof.Machine
end

