-- ==== Sys2Proof/Machine/Ports.lean ====
section
/-!
DEFINITION. The Port Units (spec/11_command_ports.md): the framing of a transaction (R174), its result (R175), the roles (R176)
and the order of the checks (R177).
-/

namespace Sys2Proof.Machine

/-- A role may issue commands of a class (R176). -/
def Role.mayIssue (role : Role) (c : CommandClass) : Bool :=
  match role, c with
  | .cluster _, .common => true
  | .cluster _, .cluster => true
  | .depot, .common => true
  | .depot, .depot => true
  | .observer, .common => true
  | _, _ => false

/-- What a command leaves: the state, its result, and the body of its answer after the result byte. -/
structure Reply where
  state : State
  result : ResultCode
  body : List Byte

/-- A command taken with a result and no body. -/
def State.reply (s : State) (r : ResultCode) : Reply := ⟨s, r, []⟩

/-- A command taken with result OK and an answer. -/
def State.answer (s : State) (body : List Byte) : Reply := ⟨s, .ok, body⟩

/-- A transaction's result fixed at a port (R175), with the bytes it shifts out. A stream the port still had open ends with it,
and the bytes it held are discarded (notes/assumptions/12.md). -/
def State.fixResult (s : State) (p : PortId) (r : ResultCode) (out : List Byte) : State :=
  s.setPort p { s.port p with lastResult := r, stream := none, held := [], reading := none, out := out }

/-- The bytes a taken or refused command shifts out (R174): the last result during the command byte, 0xFF during the
parameters, and for a command taken before select rise the turnaround byte 0xA5 and the answer. -/
def shiftedOut (last : ResultCode) (row : CommandRow) (params : List Byte) (r : Reply) : List Byte :=
  match row.take with
  | .selectRise => last.byte :: List.replicate params.length 0xFF
  | _ => last.byte :: (List.replicate row.parameters 0xFF ++ 0xA5 :: r.result.byte :: r.body)

/-- A refusal at the command byte (R174, R177): nothing further is answered. -/
def State.refuseCode (s : State) (p : PortId) (r : ResultCode) : State :=
  s.fixResult p r [(s.port p).lastResult.byte]

/-- A whole transaction of a command (R177): the scan, the role and the number of parameter bytes are checked before the
command's own checks and effects. -/
def State.transact (s : State) (p : PortId) (row : CommandRow) (params : List Byte) (act : State → Reply) : State :=
  if s.phase != .running then s.refuseCode p .starting
  else if !(s.port p).role.mayIssue row.cls then s.refuseCode p .role
  else if params.length < row.parameters then
    s.fixResult p .short ((s.port p).lastResult.byte :: List.replicate params.length 0xFF)
  else
    (act s).state.fixResult p (act s).result (shiftedOut (s.port p).lastResult row params (act s))

/-- The cluster of a port's role; a port that is no cluster port has none. -/
def State.clusterOfPort (s : State) (p : PortId) : Option ClusterId :=
  match (s.port p).role with
  | .cluster c => some c
  | _ => none

/-- The bay a cluster command names by its local number (R177): none above 3. -/
def State.localBay (s : State) (p : PortId) (k : Nat) : Option BayId :=
  match s.clusterOfPort p, index 4 k with
  | some c, some k => some (globalBay c k)
  | _, _ => none

/-- The bay a common command names (00_scope.md 0.6.3): local at a cluster port, global elsewhere. -/
def State.namedBay (s : State) (p : PortId) (k : Nat) : Option BayId :=
  match s.clusterOfPort p with
  | some _ => s.localBay p k
  | none => index 16 k

/-- A cluster command, which names its bay in parameter byte 0: RANGE above 3, and otherwise its own checks (R177). -/
def State.clusterCommand (s : State) (p : PortId) (row : CommandRow) (params : List Byte)
    (act : BayId → State → Reply) : State :=
  s.transact p row params fun t =>
    match t.localBay p (byteAt params 0) with
    | some b => act b t
    | none => t.reply .range

end Sys2Proof.Machine
end

