-- ==== Sys2Proof/Machine/Windows.lean ====
section
/-!
DEFINITION. Week arithmetic and departure windows (R111, R142), shared by the Allocator, the Departure Planner and the
Rotation Unit.
-/

namespace Sys2Proof.Machine

/-- A departure window (R142). -/
inductive DepartureWindow where
  | due
  | active
  | outside
  deriving DecidableEq, Repr

/-- The window byte of READ_DEPARTURE (R184). -/
def DepartureWindow.code : DepartureWindow → Nat
  | .due => 0
  | .active => 1
  | .outside => 2

/-- Minutes from one minute of the week to another, around the week. -/
def weekMinutes (earlier later : Nat) : Nat := (later + (10080 - earlier % 10080)) % 10080

/-- The time to departure td at minute m (R142). -/
def Entry.timeTo (e : Entry) (m : Nat) : Nat := weekMinutes m e.minute

/-- The time since departure at minute m (R142). -/
def Entry.timeSince (e : Entry) (m : Nat) : Nat := weekMinutes e.minute m

/-- The window of a valid entry at minute m (R142). -/
def Entry.windowAt (e : Entry) (site : Site) (m : Nat) : DepartureWindow :=
  if e.timeSince m ≤ site.grace then .due
  else if e.timeTo m ≤ site.horizon then .active
  else .outside

/-- The window of an entry, none while the clock is UNSET or the entry invalid (R141, R142). -/
def State.windowOf (s : State) (e : EntryId) : Option DepartureWindow :=
  match s.clock with
  | some c => if (s.entry e).valid then some ((s.entry e).windowAt s.site c.minute) else none
  | none => none

/-- The seconds to departure D of an entry that is DUE or ACTIVE (R111). -/
def Entry.secondsTo (e : Entry) (site : Site) (c : Clock) : Int :=
  match e.windowAt site c.minute with
  | .due => -((e.timeSince c.minute * 60 + c.second : Nat) : Int)
  | _ => (e.timeTo c.minute * 60 : Nat) - (c.second : Nat)

/-- The charge an entry requires of a pack with this capacity (R111, R147): ⌈q × capacity / 100⌉. -/
def Entry.requiredCharge (e : Entry) (capacity : Nat) : Nat := ceilDiv (e.required * capacity) 100

/-- The estimate percentage of a record (R113, R147): ⌊estimate × 100 / capacity⌋. -/
def PackRecord.percent (r : PackRecord) : Nat := r.estimate * 100 / r.capacity

/-- The planning order of entries (R145): DUE entries by time since departure descending, then ACTIVE entries by td
ascending, then by number. Entries outside both windows have no place. -/
def State.planKey (s : State) (e : EntryId) : Option (List Int) :=
  match s.clock, s.windowOf e with
  | some c, some .due => some [0, -((s.entry e).timeSince c.minute : Int), e.val]
  | some c, some .active => some [1, ((s.entry e).timeTo c.minute : Int), e.val]
  | _, _ => none

/-- The entries to plan, in planning order (R145): valid, DUE or ACTIVE, and neither CALLED, SERVED nor FINISHED. -/
def State.planOrder (s : State) : List EntryId :=
  sortByKey (fun e => (s.planKey e).getD [])
    (allEntries.filter fun e =>
      (s.planKey e).isSome && (s.entry e).status != .called && (s.entry e).status != .served &&
        (s.entry e).status != .finished)

end Sys2Proof.Machine
end

