-- ==== Sys2Proof/Machine/Rotation.lean ====
section
/-!
DEFINITION. The Rotation Unit (spec/09_rotation_and_draw.md): the order of a ready queue (R154), the matching entry of a draw
(R158), the choice of a pack (R159), the served draw (R160) and the cancelled one (R164).
-/

namespace Sys2Proof.Machine

/-! ### Ready queues (R154) -/

/-- The age of a READY record (R154); while the clock is UNSET every pair ties. -/
def State.readyAge (s : State) (i : SlotId) : Nat :=
  match s.clock with
  | some c => weekMinutes ((s.record i).readySince.getD 0) c.minute
  | none => 0

/-- The key of a ready queue's order (R154): cycle count ascending, greater age first, slot ascending. -/
def State.queueKey (s : State) (i : SlotId) : List Int :=
  [((s.record i).cycles : Int), -(s.readyAge i : Int), i.val]

/-- The slots a ready queue holds, in slot order. -/
def State.queueMembers (s : State) (k : ProfileId) : List SlotId := allSlots.filter fun i => hasFlag (s.queue k) i

/-- A ready queue in the order of R154. -/
def State.queueOrder (s : State) (k : ProfileId) : List SlotId := sortByKey s.queueKey (s.queueMembers k)

/-! ### Choosing a pack (R158, R159) -/

/-- The matching entry of a draw (R158). -/
def State.matchingEntry (s : State) (w : SweeperId) (k : ProfileId) : Option EntryId :=
  s.planOrder.find? fun e => (s.entry e).sweeper == w.val && (s.entry e).profile == k.val

/-- The record holds a reservation for an entry of another sweeper (R159). -/
def State.heldForOther (s : State) (w : SweeperId) (i : SlotId) : Bool :=
  match (s.record i).reservation with
  | some e => (s.entry e).sweeper != w.val
  | none => false

/-- A pack chosen by a draw, with the draw's result (R159). -/
structure Pick where
  slot : SlotId
  result : ResultCode
  deriving DecidableEq, Repr

/-- Choice 1 (R159): the matching entry's reserved pack, if it is READY, or DOCKED with its required charge. The pack's record
is read, and so accessed (R17). -/
def State.choiceReserved (s : State) (e : Option EntryId) : State × Option Pick :=
  match e with
  | none => (s, none)
  | some e =>
    match (s.entry e).reserved with
    | none => (s, none)
    | some i =>
      let checked := s.access i
      let r := checked.record i
      if r.lifecycle == .ready || (r.lifecycle == .docked && (s.entry e).requiredCharge r.capacity ≤ r.estimate) then
        (checked, some ⟨i, .ok⟩)
      else (checked, none)

/-- Choice 2 (R159): the first pack of the profile's ready queue that is not held for another sweeper. Each record of the queue
is read. -/
def State.choiceReady (s : State) (w : SweeperId) (k : ProfileId) : State × Option Pick :=
  let checked := s.accessAll (s.queueMembers k)
  (checked, ((checked.queueOrder k).find? fun i => !checked.heldForOther w i).map fun i => ⟨i, .ok⟩)

/-- The DOCKED records of a profile (R159, choice 3). -/
def State.dockedOf (s : State) (k : ProfileId) : List SlotId :=
  allSlots.filter fun i => (s.record i).lifecycle == .docked && (s.record i).profile == k

/-- The bay a record stands in carries FAULT. -/
def State.standsFaulted (s : State) (i : SlotId) : Bool :=
  match (s.record i).bay with
  | some b => (s.bay b).carries .fault
  | none => false

/-- The key of choice 3 (R159): highest estimate percentage, then cycle count, then slot. -/
def State.partialKey (s : State) (i : SlotId) : List Int :=
  [-((s.record i).percent : Int), ((s.record i).cycles : Int), i.val]

/-- Choice 3 (R159): the fullest DOCKED record of the profile that is open to the sweeper and stands unfaulted, if it has the
minimum issue charge. Each DOCKED record of the profile is read. -/
def State.choicePartial (s : State) (w : SweeperId) (k : ProfileId) : State × Option Pick :=
  let checked := s.accessAll (s.dockedOf k)
  let best := (sortByKey checked.partialKey
    ((checked.dockedOf k).filter fun i => !checked.heldForOther w i && !checked.standsFaulted i)).head?
  match best with
  | some i => if checked.site.minimumIssue ≤ (checked.record i).percent then (checked, some ⟨i, .okPartial⟩) else (checked, none)
  | none => (checked, none)

/-- The pack a draw chooses (R159), from the first choice that yields one. -/
def State.choosePack (s : State) (w : SweeperId) (k : ProfileId) (e : Option EntryId) : State × Option Pick :=
  match s.choiceReserved e with
  | (s1, some i) => (s1, some i)
  | (s1, none) =>
    match s1.choiceReady w k with
    | (s2, some i) => (s2, some i)
    | (s2, none) => s2.choicePartial w k

/-! ### Served and cancelled draws (R160, R164) -/

/-- A recall appended at the newest end of a cluster's queue (R160, R161). -/
def State.appendRecall (s : State) (c : ClusterId) (r : Recall) : State :=
  { s with recalls := s.recalls.set c (s.recall c ++ [r]) }

/-- The bay's part of a served draw (R160 steps 2 and 4): the CALLED inhibit, and the recall with its notice. -/
def State.recallBay (s : State) (w : SweeperId) (i : SlotId) (b : BayId) : State :=
  (((s.addInhibit b .called).appendRecall (clusterOf b)
    ⟨b, i, (s.record i).tag, w, s.minuteNow⟩).notify .recall (.cluster (clusterOf b)))

/-- The matching entry becomes CALLED (R160, step 5), and holds no reservation from then on, as the draw clears the one it holds on
another pack (R145, R150; notes/assumptions/35.md). -/
def State.callEntry (s : State) (e : EntryId) : State :=
  let freed := s.unreserve e
  freed.setEntry e { freed.entry e with status := .called }

/-- A draw served with a slot (R160). -/
def State.serveDraw (s : State) (w : SweeperId) (i : SlotId) (e : Option EntryId) : State :=
  let freed := (s.clearReservation i).leaveReady i
  let called := freed.putRecord i { freed.record i with
    lifecycle := .called, sweeper := some w, reservation := none, readySince := none }
  let recalled := match (s.record i).bay with
    | some b => called.recallBay w i b
    | none => called
  let drawn := recalled.setDraw w (some ⟨i, e⟩)
  match e with
  | some e => drawn.callEntry e
  | none => drawn

/-- A CALLED record returned to READY or DOCKED, by its bay's stage (R164, step 1). -/
def State.uncall (s : State) (i : SlotId) (b : BayId) : State :=
  let kept := s.putRecord i { s.record i with lifecycle := .docked, sweeper := none }
  if (s.bay b).stage == .done then (kept.makeReady i).notify .ready .part else kept

/-- A draw cancelled (R164). -/
def State.cancelDrawOf (s : State) (i : SlotId) : State :=
  let returned := match (s.record i).bay with
    | some b => (s.uncall i b).removeInhibit b .called
    | none => s
  (returned.voidDraw i).requestPlan

end Sys2Proof.Machine
end

