-- ==== Sys2Proof/Machine/Layouts.lean ====
section
/-!
DEFINITION. Record and answer layouts (R184): the bytes of every record and of every answer's body.
-/

namespace Sys2Proof.Machine

/-! ### Records -/

/-- The pack record, 27 bytes (R184). -/
def packBytes (i : SlotId) (r : PackRecord) : List Byte :=
  let held := r.lifecycle != .free
  be 1 i.val ++ be 1 r.lifecycle.code ++ be 4 r.tag.toNat ++ beWhen held 1 r.profile.val ++
    optionBe 1 (r.bay.map (·.val)) ++ be 1 ((r.sweeper.map (·.val)).getD 0) ++ optionBe 1 (r.reservation.map (·.val)) ++
    beWhen held 2 r.estimate ++ beWhen held 3 r.residue ++ beWhen held 2 r.capacity ++ beWhen held 2 r.cycles ++
    beWhen held 1 r.sinceEqualise ++ optionBe 2 r.readySince ++ beWhen held 4 r.seen ++
    be 1 ((r.reason.map Reason.code).getD 0)

/-- An absent pack record, 27 bytes of 0xFF (R184). -/
def absentPack : List Byte := absentField 27

/-- The marks byte of the bay record (R184). DESIGN CHOICE (notes/assumptions/40.md): while no last report is present, its two bits
are sent clear. -/
def Bay.marksByte (x : Bay) : Nat :=
  bitOf x.sensorLimit 0 + bitOf ((x.last.map (·.terminated)).getD false) 1 +
    bitOf ((x.last.map (·.chargerFault)).getD false) 2 + bitOf x.reduction 3

/-- The saturated marks of five counters or images, bits 0 to 4 (R184). -/
def saturatedByte (v : Vector CounterCell 5) : Nat :=
  ((List.finRange 5).map fun k => bitOf v[k].saturated k.val).sum

/-- The values of five counters or images, two bytes each (R184). -/
def counterBytes (v : Vector CounterCell 5) : List Byte :=
  (List.finRange 5).flatMap fun k => be 2 v[k].value

/-- The remaining seconds of the rest end or equalise end, whichever runs (R184). -/
def Bay.stageSeconds (x : Bay) : Option Nat :=
  match x.restEnd with
  | some n => some n
  | none => x.equaliseEnd

/-- The bay record, 57 bytes (R184). -/
def State.bayBytes (s : State) (b : BayId) : List Byte :=
  let x := s.bay b
  let full := x.stage != .empty
  be 1 b.val ++ be 1 x.stage.code ++ be 2 x.inhibits.toNat ++ optionBe 1 (x.slot.map (·.val)) ++
    beWhen full 4 x.tag.toNat ++ beWhen full 1 x.profile.val ++
    temperatureBytes (if full then some x.dockTemperature else none) ++ beWhen full 1 x.band.val ++
    beWhen full 1 x.debounce ++ be 1 x.marksByte ++
    (optionBe 2 (x.last.map (·.current)) ++ optionBe 2 (x.last.map (·.voltage)) ++
      temperatureBytes (x.last.map (·.temperature)) ++ optionBe 2 (x.last.map (·.interval)) ++
      beWhen x.last.isSome 2 x.sinceReport ++ beWhen full 2 x.session ++ optionBe 2 x.stageSeconds) ++
    (be 2 x.grant ++ be 2 x.allowance ++ be 2 x.power ++ optionBe 2 (s.pendingIncrease b) ++ optionBe 1 x.confirmTimer ++
      be 1 x.overdrawStreak) ++
    (be 1 x.report.code ++ beWhen full 2 x.silence ++ be 1 x.stall.code ++ be 1 x.stallStreak ++
      optionBe 1 x.probation ++ be 1 x.declarations ++ optionBe 1 x.holdEnd ++ be 1 x.heat) ++
    counterBytes x.counters ++ be 1 (saturatedByte x.counters)

/-- The profile entry, 32 bytes (R184). -/
def profileBytes (pr : Profile) : List Byte :=
  be 1 (bitOf pr.valid 0) ++ be 1 pr.family ++ be 2 pr.nominalVoltage ++ be 2 pr.rated ++ be 2 pr.maxCurrent ++
    be 2 pr.minCurrent ++ be 2 pr.finishCurrent ++ be 1 pr.absorbPoint ++ be 1 pr.acceptance ++ be 1 pr.efficiency ++
    be 1 pr.restMinutes ++ be 1 pr.equaliseInterval ++ be 2 pr.equaliseCurrent ++ be 1 pr.equaliseMinutes ++
    be 1 pr.returnEstimate ++ (List.finRange 5).flatMap (fun k => beSigned pr.breakpoints[k]) ++
    (List.finRange 6).flatMap fun k => be 1 pr.factors[k]

/-- The profile entry that 32 bytes write, as written, its valid mark not yet set (R25, R184). -/
def profileOfBytes (v : Vector Byte 32) : Profile :=
  let ps := v.toList
  { valid := false, family := byteAt ps 1, nominalVoltage := u16At ps 2, rated := u16At ps 4, maxCurrent := u16At ps 6,
    minCurrent := u16At ps 8, finishCurrent := u16At ps 10, absorbPoint := byteAt ps 12, acceptance := byteAt ps 13,
    efficiency := byteAt ps 14, restMinutes := byteAt ps 15, equaliseInterval := byteAt ps 16,
    equaliseCurrent := u16At ps 17, equaliseMinutes := byteAt ps 19, returnEstimate := byteAt ps 20,
    breakpoints := Vector.ofFn fun k => s8At ps (21 + k.val), factors := Vector.ofFn fun k => byteAt ps (26 + k.val) }

/-- The schedule entry, 8 bytes (R184). -/
def entryBytes (e : Entry) : List Byte :=
  be 1 (bitOf e.valid 7 + bitOf e.renewal 6 + bitOf e.weekly 0) ++ be 1 e.sweeper ++ be 2 e.minute ++ be 1 e.profile ++
    be 1 e.required ++ be 1 e.status.code ++ optionBe 1 (e.reserved.map (·.val))

/-- The schedule entry that 8 bytes write (R138, R184): the valid request is not yet granted, the status and the reserved slot
sent are ignored. -/
def entryOfBytes (v : Vector Byte 8) : Entry :=
  let ps := v.toList
  { valid := false, weekly := v[0].getLsbD 0, sweeper := byteAt ps 1, minute := u16At ps 2, profile := byteAt ps 4,
    required := byteAt ps 5, status := .idle, reserved := none, renewal := false }

/-! ### Answers (body after the result byte) -/

/-- A flag as a byte. -/
def flagByte (b : Bool) : List Byte := be 1 (bitOf b 0)

/-- IDENTIFY (R182), 8 bytes. -/
def State.identifyBody (s : State) (p : PortId) : List Byte :=
  let scanning := s.phase == .scanAfterPowerOn || s.phase == .scanAfterHardReset
  be 1 Config.vendorCode ++ be 2 Config.partCode ++ be 1 Config.revision ++ be 1 p.val ++ be 1 (s.port p).role.code ++
    be 1 (s.port p).strap.val ++ be 1 (bitOf (s.port p).conflict 0 + bitOf scanning 1)

/-- READ_NOTICES (R170). -/
def State.noticesBody (s : State) (p : PortId) : List Byte :=
  be 2 (s.port p).raised.toNat ++ be 2 (s.port p).mask.toNat ++ be 1 (s.port p).edge.code

/-- READ_BAY_SUMMARY (R172): bits 0 to 3 local bays at a cluster port, bits 0 to 15 global bays elsewhere. -/
def State.summaryBody (s : State) (p : PortId) : List Byte :=
  match s.clusterOfPort p with
  | some c => be 2 (((List.finRange 4).map fun k => bitOf (hasFlag (s.port p).summary (globalBay c k)) k.val).sum)
  | none => be 2 (s.port p).summary.toNat

/-- READ_DEPARTURE (R141). -/
def State.departureBody (s : State) (e : EntryId) : List Byte :=
  entryBytes (s.entry e) ++
    match s.clock, s.windowOf e with
    | some c, some .due => be 1 DepartureWindow.due.code ++ be 2 ((s.entry e).timeSince c.minute)
    | some c, some w => be 1 w.code ++ be 2 ((s.entry e).timeTo c.minute)
    | _, _ => absentField 1 ++ absentField 2

/-- READ_CLOCK (R136). -/
def State.clockBody (s : State) : List Byte :=
  flagByte s.clock.isSome ++ optionBe 2 (s.clock.map (·.minute)) ++ optionBe 1 (s.clock.map (·.second)) ++
    be 2 s.site.horizon ++ be 1 s.site.grace

/-- One slot of READ_QUEUE (R155). -/
def State.queueSlotBytes (s : State) (i : SlotId) : List Byte :=
  be 1 i.val ++ be 2 (s.record i).cycles ++ optionBe 2 (s.record i).readySince ++ be 1 (s.record i).percent ++
    optionBe 1 ((s.record i).reservation.map (·.val))

/-- READ_QUEUE (R155). -/
def State.queueBody (s : State) (k : ProfileId) : List Byte :=
  be 1 (s.queueOrder k).length ++ (s.queueOrder k).flatMap s.queueSlotBytes

/-- The number by which an answer to the port names a bay (R184): local at a cluster's port, global elsewhere. DESIGN CHOICE
(notes/assumptions/34.md): a bay of another cluster has no local number there, and what is sent for it is left open. -/
def State.bayNumber (s : State) (p : PortId) (b : BayId) : List Byte :=
  match s.clusterOfPort p with
  | some c => if clusterOf b = c then be 1 (localOf b).val else [Config.foreignBay c b]
  | none => be 1 b.val

/-- READ_RECALL (R162): the bay in local numbers to a cluster port, in global numbers to others. -/
def State.recallBody (s : State) (p : PortId) (c : ClusterId) : List Byte :=
  be 1 (s.recall c).length ++ (s.recall c).flatMap fun r =>
    s.bayNumber p r.bay ++ be 1 r.slot.val ++ be 4 r.tag.toNat ++
      be 1 r.sweeper.val ++ be 2 r.minute

/-- The bays in a port's scope (R83): a cluster port's four, all sixteen elsewhere. -/
def State.scopeBays (s : State) (p : PortId) : List BayId :=
  match s.clusterOfPort p with
  | some c => (List.finRange 4).map (globalBay c)
  | none => allBays

/-- READ_COUNTERS (R83). -/
def State.countersBody (s : State) (p : PortId) : List Byte :=
  be 2 s.latchNumber ++
    ((s.scopeBays p).flatMap fun b => counterBytes (s.bay b).images ++ be 1 (saturatedByte (s.bay b).images)) ++
    be 2 s.corrected

/-- READ_GRANTS (R131). -/
def State.grantsBody (s : State) (p : PortId) : List Byte :=
  ((s.scopeBays p).flatMap fun b =>
    be 2 (s.bay b).grant ++ be 2 (s.bay b).allowance ++ be 2 (s.bay b).power ++ optionBe 2 (s.pendingIncrease b) ++
      optionBe 1 (s.bay b).confirmTimer) ++
    be 3 s.budget ++ be 1 s.unresolvedCount

/-- The wind-down end in WINDING_DOWN or the elapsed count in RAMPING (R98). -/
def Supply.holdSeconds (x : Supply) : Option Nat :=
  match x.hold with
  | .windingDown => x.windDown
  | .ramping => x.elapsed
  | _ => none

/-- READ_SUPPLY (R98), the zone's bays numbered as R184 states. -/
def State.supplyBody (s : State) (p : PortId) : List Byte :=
  let x := s.supply
  be 3 x.limit ++ be 2 x.reserve ++ be 1 x.meterMode.code ++ be 1 x.condition.code ++ optionBe 2 x.age ++
    be 1 x.readings.length ++ x.readings.flatMap (be 3) ++ absentField (3 * (8 - x.readings.length)) ++
    be 3 x.otherLoad ++ be 3 x.openBudget ++ be 3 s.budget ++ be 3 x.passFigure ++ be 1 x.hold.code ++
    optionBe 1 x.holdSeconds ++ be 1 s.site.rampTime ++ s.bayNumber p x.zoneFirst ++ s.bayNumber p x.zoneLast ++
    flagByte x.zoneOn ++ be 3 (s.port p).peak

/-- The pack fields of DRAW's answer (R160), absent where no pack is drawn (R159). -/
def drawBody (i : Option SlotId) (r : PackRecord) : List Byte :=
  match i with
  | some i => be 1 i.val ++ be 4 r.tag.toNat ++ optionBe 1 (r.bay.map (·.val)) ++ be 1 r.percent
  | none => absentField 7

end Sys2Proof.Machine
end

