-- ==== Sys2Proof/Machine/Tables.lean ====
section
/-!
DEFINITION. The checks of the two tables and what taking an entry does: profile entries (R25 to R28, R33 to R35), schedule
entries (R137, R138), and the streams over a port's window (R179, R180).
-/

namespace Sys2Proof.Machine

/-! ### Checks -/

/-- The breakpoints strictly ascend (R26). -/
def Profile.ascending (pr : Profile) : Bool :=
  pr.breakpoints[0] < pr.breakpoints[1] && pr.breakpoints[1] < pr.breakpoints[2] &&
    pr.breakpoints[2] < pr.breakpoints[3] && pr.breakpoints[3] < pr.breakpoints[4]

/-- The currents of an entry pass (R26). -/
def Profile.currentsPass (pr : Profile) : Bool :=
  5 ≤ pr.minCurrent && pr.minCurrent ≤ pr.maxCurrent && pr.maxCurrent ≤ 2500 && pr.minCurrent % 5 == 0 &&
    pr.finishCurrent ≤ pr.maxCurrent

/-- The equalise fields of an entry pass (R26). -/
def Profile.equalisePasses (pr : Profile) : Bool :=
  if pr.family == familyFloodedLead then
    pr.equaliseInterval == 0 ||
      (pr.minCurrent ≤ pr.equaliseCurrent && pr.equaliseCurrent ≤ pr.maxCurrent && 1 ≤ pr.equaliseMinutes &&
        pr.equaliseMinutes ≤ 240)
  else pr.equaliseInterval == 0 && pr.equaliseCurrent == 0 && pr.equaliseMinutes == 0

/-- Every check of R26 holds. -/
def Profile.passes (pr : Profile) : Bool :=
  pr.family ≤ familyLithiumPhosphate && (1 ≤ pr.nominalVoltage && pr.nominalVoltage ≤ 9999) &&
    (2 ≤ pr.rated && pr.rated ≤ 54162) && pr.currentsPass && (50 ≤ pr.absorbPoint && pr.absorbPoint ≤ 99) &&
    (80 ≤ pr.acceptance && pr.acceptance ≤ 100) && (70 ≤ pr.efficiency && pr.efficiency ≤ 99) &&
    pr.restMinutes ≤ 240 && pr.returnEstimate ≤ 100 && pr.ascending &&
    ((List.finRange 6).all fun k => pr.factor k ≤ 100) && pr.equalisePasses

/-- Every field of an entry lies in its range (R137). -/
def Entry.inRange (e : Entry) : Bool :=
  (1 ≤ e.sweeper && e.sweeper ≤ 63) && e.minute ≤ 10079 && e.profile ≤ 7 && (50 ≤ e.required && e.required ≤ 100)

/-! ### Taking a profile entry -/

/-- A record brought within a valid entry's bounds (R33). -/
def PackRecord.within (r : PackRecord) (pr : Profile) : PackRecord :=
  let capacity := clampNat (pr.rated / 2) (pr.rated * 11 / 10) r.capacity
  if capacity * 110 / 100 < r.estimate then { r with capacity := capacity, estimate := capacity * 110 / 100, residue := 0 }
  else { r with capacity := capacity }

/-- A record is not FREE and names the profile (R33). -/
def PackRecord.names (r : PackRecord) (k : ProfileId) : Bool := r.lifecycle != .free && r.profile == k

/-- One record at the take of a valid entry (R33); the update is an access (R17). -/
def State.retakeRecord (k : ProfileId) (s : State) (i : SlotId) : State :=
  if (s.record i).names k then
    let checked := s.access i
    if (checked.record i).names k then checked.putRecord i ((checked.record i).within (checked.profile k)) else checked
  else s

/-- A bay is not EMPTY and its profile copy names the profile (R28, R34). -/
def Bay.names (x : Bay) (k : ProfileId) : Bool := x.stage != .empty && x.profile == k

/-- BULK re-evaluated at the take of a valid entry (R34, step 4). -/
def State.reevaluateBulk (s : State) (b : BayId) : State :=
  match (s.bay b).slot with
  | some i =>
    if (s.bay b).stage == .bulk && (s.bayProfile b).absorbAt (s.record i).capacity ≤ (s.record i).estimate then
      s.enterStage b .absorb
    else s
  | none => s

/-- One bay at the take of a valid entry (R34). -/
def State.retakeBay (k : ProfileId) (s : State) (b : BayId) : State :=
  if (s.bay b).names k then
    let freed := if (s.bay b).carries .profile then s.removeInhibit b .profile else s
    (freed.retakeBand b).reevaluateBulk b
  else s

/-- One bay at a take that leaves the entry invalid (R28). -/
def State.barBay (k : ProfileId) (s : State) (b : BayId) : State :=
  if (s.bay b).names k then s.addInhibit b .profile else s

/-- A profile entry taken (R25, R27, R28, R33 to R35). -/
def State.takeProfile (s : State) (k : ProfileId) (bytes : Vector Byte 32) : State :=
  let requested := bytes[0] != 0
  let written := profileOfBytes bytes
  let valid := requested && written.passes
  let stored := s.setProfile k { written with valid := valid }
  let applied :=
    if valid then allBays.foldl (State.retakeBay k) (allSlots.foldl (State.retakeRecord k) stored)
    else allBays.foldl (State.barBay k) (if requested then stored.notify .profile .part else stored)
  applied.requestPass.requestPlan

/-! ### Taking a schedule entry -/

/-- The draws of an entry lose it (R138, R163). -/
def State.orphanDraws (s : State) (e : EntryId) : State :=
  { s with draws := updateAll s.draws fun _ d =>
      d.map fun x => if x.entry == some e then { x with entry := none } else x }

/-- A schedule entry taken (R138). -/
def State.takeEntry (s : State) (e : EntryId) (bytes : Vector Byte 8) : State :=
  let requested := bytes[0].getLsbD 7
  let written := entryOfBytes bytes
  let valid := requested && written.inRange
  let stored := ((s.unreserve e).setEntry e { written with valid := valid }).orphanDraws e
  (if requested && !valid then stored.notify .profile .part else stored).requestPlan

/-! ### Streams (R179, R180) -/

/-- The stream a window opens, at its first entry. -/
def Window.open : Window → Stream
  | .profiles first last => .profiles (some first) last
  | .schedule first last => .schedule (some first) last

/-- A byte of the entry being written, but for its last, is held at the port (R179). -/
def State.holdByte (s : State) (p : PortId) (b : Byte) : State :=
  s.setPort p { s.port p with held := (s.port p).held ++ [b] }

/-- The whole entry of n bytes that a port's held bytes make with the last one. -/
def Port.wholeEntry (x : Port) (n : Nat) (last : Byte) : Vector Byte n :=
  Vector.ofFn fun i => (x.held ++ [last]).getD i.val 0

/-- A port's TABLE_WRITE stream moved to byte 0 of its next entry (R179). -/
def State.setStream (s : State) (p : PortId) (x : Option Stream) : State :=
  s.setPort p { s.port p with stream := x, held := [] }

/-- A port's TABLE_READ position replaced. -/
def State.setReading (s : State) (p : PortId) (x : Option Stream) : State :=
  s.setPort p { s.port p with reading := x }

/-- Bytes a port shifts out, after those of its transaction before them. -/
def State.shiftOut (s : State) (p : PortId) (bytes : List Byte) : State :=
  s.setPort p { s.port p with out := (s.port p).out ++ bytes }

end Sys2Proof.Machine
end

