-- ==== Sys2Proof/Machine/ExecReset.lean ====
section
/-!
DEFINITION. The meanings of POWER_ON, HARD_RESET, HARD_RESET_END, SCAN_COMPLETE and SOFT_RESET (R20 to R22, R36, R62, R63, R84,
R99, R117, R132, R152, R166, R173, R183).
-/

namespace Sys2Proof.Machine

/-- The outcome of a command that always completes. -/
abbrev Result := Host.Outcome State Fault Refusal

/-! ### What the resets share -/

/-- A record at a hard or soft reset (R21, R22). -/
def PackRecord.demoted (r : PackRecord) : PackRecord :=
  match r.lifecycle with
  | .docked | .ready | .called =>
    { r with lifecycle := .stored, bay := none, sweeper := none, reservation := none, readySince := none }
  | .quarantined => { r with bay := none }
  | _ => r

/-- One record demoted at a reset (R21, R22). A record that changes is written, and so accessed (R17). -/
def State.demoteRecord (s : State) (i : SlotId) : State :=
  if (s.record i).demoted = s.record i then s
  else
    let checked := s.access i
    checked.storeRecord i (checked.record i).demoted

/-- A departure entry at a hard or soft reset (R152). -/
def Entry.atReset (e : Entry) : Entry :=
  { e with status := if e.status == .finished then .finished else .idle, renewal := false, reserved := none }

/-- A bay emptied (R49, R63): its docking is forgotten; its grant, allowance and reduction stand as they are, and its counters
are kept (R64). -/
def Bay.emptied (x : Bay) : Bay :=
  { emptyBay with grant := x.grant, allowance := x.allowance, power := x.power, reduction := x.reduction,
                  confirmTimer := x.confirmTimer, counters := x.counters, images := x.images }

/-! ### Power-on and hard reset -/

/-- POWER_ON (R20, R21): the straps are sampled, every block takes its power-on values, and the scan begins. -/
def execPowerOn (straps : Straps) (s : State) : Result :=
  .next { State.poweredOn straps s.pending with freeUses := s.freeUses }

/-- The state a hard reset leaves (R21, R36, R62, R84, R99, R117, R132, R152, R166, R173, R175, R178). The seen counter stands until
the scan sets it (R20). DESIGN CHOICE (notes/assumptions/32.md): the corrected-error counter takes 0 here, so that the corrections
of the scan that follows count from there (R17, R21). -/
def State.hardReset (s : State) (straps : Straps) : State :=
  let demoted := allSlots.foldl State.demoteRecord s
  { State.poweredOn straps s.pending with
    phase := .heldInReset
    ports := resetPorts straps (BitVec.allOnes 8)
    records := demoted.records
    checks := demoted.checks
    seenCounter := s.seenCounter
    profiles := s.profiles
    entries := updateAll s.entries fun _ e => e.atReset
    freeUses := demoted.freeUses }

/-- HARD_RESET (R21): assertion of the RESET pin. -/
def execHardReset (straps : Straps) (s : State) : Result := .next (s.hardReset straps)

/-- HARD_RESET_END (R20): at the release of the RESET pin the scan begins. -/
def execHardResetEnd (s : State) : Result :=
  .next (if s.phase == .heldInReset then { s with phase := .scanAfterHardReset } else s)

/-! ### The scan (R20) -/

/-- A valid profile entry that fails the checks of R26 (R36). -/
def Profile.failsScan (pr : Profile) : Bool := pr.valid && !pr.passes

/-- A valid departure entry with a field outside its range (R152). -/
def Entry.failsScan (e : Entry) : Bool := e.valid && !e.inRange

/-- The scan found an entry of either table invalid (R36, R152). -/
def State.scanRejects (s : State) : Bool :=
  ((List.finRange 8).any fun k => (s.profile k).failsScan) || allEntries.any fun e => (s.entry e).failsScan

/-- The tables after the scan's checks (R36, R152). -/
def State.scanTables (s : State) : State :=
  { s with
    profiles := updateAll s.profiles fun _ pr => { pr with valid := pr.valid && !pr.failsScan }
    entries := updateAll s.entries fun _ e =>
      if e.failsScan then { e with valid := false, status := .idle } else e }

/-- The record loses its tag to another that holds the same (R20): it has the smaller seen stamp, or the higher slot on equal
stamps. -/
def State.losesTag (s : State) (i : SlotId) : Bool :=
  allSlots.any fun j =>
    j != i && (s.record j).lifecycle != .free && (s.record j).tag == (s.record i).tag &&
      ((s.record i).seen < (s.record j).seen || ((s.record i).seen == (s.record j).seen && j < i))

/-- The record's charge fields restored to the laws of R2 (R20). -/
def PackRecord.restored (r : PackRecord) (pr : Profile) : PackRecord :=
  let capacity := if pr.valid then clampNat (pr.rated / 2) (pr.rated * 11 / 10) r.capacity else r.capacity
  let residue := if 3599999 < r.residue then 0 else r.residue
  if capacity * 110 / 100 < r.estimate then
    { r with capacity := capacity, estimate := capacity * 110 / 100, residue := 0 }
  else { r with capacity := capacity, residue := residue }

/-- The roster's laws restored for one record (R20). -/
def State.scanRecord (s : State) (i : SlotId) : State :=
  if (s.record i).lifecycle == .free then s
  else
    let whole :=
      if (s.record i).reason != some .damaged && ((s.record i).tag == 0 || s.losesTag i) then s.rebuild i else s
    whole.putRecord i ((whole.record i).restored (whole.profile (whole.record i).profile))

/-- The greatest seen stamp found in the roster, or 0 (R20). -/
def State.greatestStamp (s : State) : Nat :=
  (allSlots.map fun i => if (s.record i).lifecycle == .free then 0 else (s.record i).seen).foldl max 0

/-- The scan after a hard reset (R20, R36, R152): the tables first, then every record checked, then the roster's laws, then the
seen counter. The corrections of its accesses are counted from the reset's 0 (DESIGN CHOICE, notes/assumptions/32.md). -/
def State.scanAfterReset (s : State) : State :=
  let checked := s.scanTables.accessAll allSlots
  let restored := allSlots.foldl State.scanRecord checked
  let counted : State := { restored with seenCounter := restored.greatestStamp }
  if s.scanRejects then counted.notify .profile .part else counted

/-- The end of the scan (R20, R99, R117): commands are taken, the ramp begins, and the period timer starts. -/
def State.endScan (s : State) : State :=
  ({ s with phase := .running, periodTimer := some s.site.period }).startRamp

/-- SCAN_COMPLETE (R20). Outside a scan it is no event. -/
def execScanComplete (s : State) : Result :=
  match s.phase with
  | .scanAfterPowerOn => .next s.endScan
  | .scanAfterHardReset => .next s.scanAfterReset.endScan
  | _ => .next s

/-! ### Soft reset (R183) -/

/-- A port at a soft reset (R22, R173, R178, R183). -/
def Port.softReset (x : Port) : Port :=
  { x with window := none, stream := x.stream.map fun _ => .windowGone, held := [],
           reading := none,
           raised := if x.role == .off then 0 else addFlag 0 NoticeKind.supply.bit, summary := 0,
           marks := BitVec.allOnes 8 }

/-- The blocks other than the ports at a soft reset (R22, R63, R84, R117, R132, R152, R166). The demotions and the reductions
come first: they raise their notices before the ports are cleared (R173). -/
def State.softResetBlocks (s : State) : State :=
  let demoted := allSlots.foldl State.demoteRecord s
  let lowered := allBays.foldl (fun t b => t.lower b 0) demoted
  { lowered with
    bays := updateAll lowered.bays fun _ x => x.emptied
    pendingList := []
    entries := updateAll lowered.entries fun _ e => e.atReset
    readyQueues := Vector.replicate 8 0
    recalls := Vector.replicate 4 []
    draws := Vector.replicate 64 none
    passMark := false
    planMark := false
    periodTimer := some lowered.site.period
    supply := { lowered.supply with passFigure := 0 } }

/-- A soft reset of the whole part at one event (R183). -/
def State.softReset (s : State) : State :=
  let ramped := s.softResetBlocks.startRamp
  { ramped with ports := updateAll ramped.ports fun _ x => x.softReset }

/-- SOFT_RESET (R183). -/
def execSoftReset (p : PortId) (s : State) : Result :=
  .next (s.transact p rowSoftReset [] fun t => t.softReset.reply .ok)

end Sys2Proof.Machine
end

