-- ==== Sys2Proof/Machine/ExecCluster.lean ====
section
/-!
DEFINITION. The meanings of the cluster commands DOCK, UNDOCK, REPORT, GRANT_ACK and CLEAR_FAULT (R42 to R61, R68 to R79, R123,
R124, R130).
-/

namespace Sys2Proof.Machine

/-! ### DOCK (R42 to R45) -/

/-- What a DOCK carries past its range checks: the tag, the profile, the gauge where present, the temperature as sent. -/
structure Docking where
  tag : Tag
  profile : ProfileId
  gauge : Option Nat
  temperature : Int
  deriving DecidableEq, Repr

/-- Check 3 of R42: tag 0, a profile above 7 or a gauge from 101 to 254 is out of range. -/
def dockingOf (params : List Byte) : Option Docking :=
  match index 8 (byteAt params 5) with
  | none => none
  | some k =>
    if tagAt params 1 = 0 then none
    else if byteAt params 6 ≤ 100 then some ⟨tagAt params 1, k, some (byteAt params 6), s8At params 7⟩
    else if byteAt params 6 = 255 then some ⟨tagAt params 1, k, none, s8At params 7⟩
    else none

/-- Check 4 of R42: the tag is engaged in a bay. -/
def State.tagEngaged (s : State) (t : Tag) : Bool :=
  s.tagInBayCopy t ||
    match s.slotOfTag t with
    | some i =>
      match (s.record i).lifecycle with
      | .docked | .ready | .called => true
      | .quarantined => (s.record i).bay.isSome
      | _ => false
    | none => false

/-- A temperature clamped to −40 to +85 °C (R42, R51). -/
def clampTemperature (t : Int) : Int := clampInt (-40) 85 t

/-- A record found by the lookup, put under the bay (R43). -/
def PackRecord.redocked (r : PackRecord) (b : BayId) : PackRecord :=
  match r.lifecycle with
  | .stored => { r with lifecycle := .docked, bay := some b }
  | .issued => { r with lifecycle := .docked, bay := some b, cycles := countTo 65535 r.cycles, sweeper := none }
  | _ => { r with bay := some b }

/-- A record that takes a profile other than its own (R43). -/
def PackRecord.reprofiled (r : PackRecord) (k : ProfileId) (rated : Nat) : PackRecord :=
  if r.profile = k then r
  else if rated * 110 / 100 < r.estimate then
    { r with profile := k, capacity := rated, estimate := rated * 110 / 100, residue := 0 }
  else { r with profile := k, capacity := rated }

/-- The charge estimate after a dock (R44). 'wasIssued' says that the record was ISSUED before it. -/
def PackRecord.gauged (r : PackRecord) (gauge : Option Nat) (wasIssued : Bool) (pr : Profile) : PackRecord :=
  match gauge with
  | some g => { r with estimate := r.capacity * g / 100, residue := 0 }
  | none =>
    if wasIssued && pr.valid then { r with estimate := r.capacity * pr.returnEstimate / 100, residue := 0 } else r

/-- The slot a new tag is listed into (R9, R10): the lowest FREE slot, or the victim's. -/
def State.listingSlot (s : State) : Option SlotId :=
  match s.freeSlot with
  | some i => some i
  | none => s.victim

/-- The slot a dock puts under the bay, none for an UNLISTED bay (R43). -/
def State.dockSlot (s : State) (d : Docking) : Option SlotId :=
  match s.slotOfTag d.tag with
  | some i => some i
  | none => s.listingSlot

/-- The record a dock leaves in its slot (R43, R44), before the seen stamp. -/
def State.dockRecord (s : State) (b : BayId) (d : Docking) (i : SlotId) : PackRecord :=
  match s.slotOfTag d.tag with
  | some _ =>
    ((((s.record i).redocked b).reprofiled d.profile (s.profile d.profile).rated).gauged d.gauge
      ((s.record i).lifecycle == .issued) (s.profile d.profile))
  | none => (s.listedRecord d.tag d.profile b).gauged d.gauge false (s.profile d.profile)

/-- A listing finds no FREE slot: an eviction or an UNLISTED bay, each with a ROSTER notice (R10, R11). -/
def State.rosterFull (s : State) (d : Docking) : Bool := (s.slotOfTag d.tag).isNone && s.freeSlot.isNone

/-- The roster's part of a taken dock (R5, R43, R44). -/
def State.dockRoster (s : State) (b : BayId) (d : Docking) : State :=
  let seen := s.countSeen
  let noticed := if s.rosterFull d then seen.notify .roster .part else seen
  match s.dockSlot d with
  | some i => noticed.putRecord i { s.dockRecord b d i with seen := seen.seenCounter }
  | none => noticed

/-- The bay as a dock leaves it, before its inhibits, its band and its stage (R45, R64, R130). The grant, the allowance and any
reduction are left, and the counters kept. -/
def Bay.occupied (x : Bay) (d : Docking) (i : Option SlotId) : Bay :=
  { x.emptied with
    stage := .bulk, slot := i, tag := d.tag, profile := d.profile, dockTemperature := clampTemperature d.temperature,
    sensorLimit := clampTemperature d.temperature != d.temperature }

/-- The record under the bay is QUARANTINED. -/
def State.holdsQuarantined (s : State) (b : BayId) : Bool :=
  match (s.bay b).slot with
  | some i => (s.record i).lifecycle == .quarantined
  | none => false

/-- The hold state adds HOLD to a docking bay (R45). -/
def Supply.holding (x : Supply) : Bool := x.hold == .windingDown || x.hold == .held

/-- A reason in an inhibit set where it holds. -/
def addWhen (c : Bool) (r : Inhibit) (f : FlagSet 9) : FlagSet 9 := if c then addFlag f r.bit else f

/-- The inhibit set of a docking bay (R11, R29, R31, R45). -/
def State.dockInhibits (s : State) (b : BayId) : FlagSet 9 :=
  let pr := s.bayProfile b
  addWhen (s.bay b).slot.isNone .unlisted <| addWhen (s.holdsQuarantined b) .quarantine <|
    addWhen (!pr.valid) .profile <| addWhen (pr.valid && pr.factor (s.bay b).band == 0) .temperature <|
      addWhen s.supply.holding .hold <| addWhen (s.supply.zoneOn && !s.supply.insideZone b) .restricted 0

/-- The band of a docking bay (R29, R45): from the dock temperature, or 0 under an invalid entry. -/
def State.dockBand (s : State) (b : BayId) : Fin 6 :=
  if (s.bayProfile b).valid then (s.bayProfile b).bandOf (s.bay b).dockTemperature else 0

/-- The stage of a docking bay (R45): by its record, or BULK where it is UNLISTED. -/
def State.dockStage (s : State) (b : BayId) : Stage :=
  match (s.bay b).slot with
  | some i => s.stageFor b (s.record i)
  | none => .bulk

/-- The bay's part of a taken dock (R45), with the heat entry of a band set to 5 (R77). -/
def State.dockBay (s : State) (b : BayId) (d : Docking) (i : Option SlotId) : State :=
  let placed := s.modBay b fun x => x.occupied d i
  let banded := placed.modBay b fun x => { x with band := placed.dockBand b }
  let inhibited := banded.modBay b fun x => { x with inhibits := banded.dockInhibits b }
  let staged := inhibited.modBay b fun x => { x with stage := inhibited.dockStage b }
  let heated := if (staged.bayProfile b).valid && (staged.bay b).band == 5 then staged.heatEntry b else staged
  ((heated.notify .bay (.bay b)).requestPass).requestPlan

/-- A dock that passes its range checks (R42 check 4, R43 to R45). The lookup reads the whole roster
(notes/assumptions/7.md). -/
def State.dockTag (s : State) (b : BayId) (d : Docking) : Reply :=
  let checked := s.accessAll allSlots
  if checked.tagEngaged d.tag then (checked.notify .roster .part).reply .conflict
  else ((checked.dockRoster b d).dockBay b d (checked.dockSlot d)).reply .ok

/-- DOCK (R42). -/
def execDock (p : PortId) (params : List Byte) (s : State) : Result :=
  .next (s.clusterCommand p rowDock params fun b t =>
    if (t.bay b).stage != .empty then t.reply .state
    else
      match dockingOf params with
      | some d => t.dockTag b d
      | none => t.reply .range)

/-! ### UNDOCK (R47 to R49) -/

/-- One older record ISSUED to the same sweeper, made unaccounted (R48). The write is an access (R17). DESIGN CHOICE
(notes/assumptions/38.md): the search for such records is no lookup in the sense of R17, and accesses no other record. -/
def State.unaccount (w : Option SweeperId) (s : State) (j : SlotId) : State :=
  if (s.record j).lifecycle == .issued && (s.record j).sweeper == w then
    let checked := s.access j
    if (checked.record j).lifecycle == .issued then
      (checked.putRecord j { checked.record j with lifecycle := .stored, sweeper := none }).notify .roster .part
    else checked
  else s

/-- The called pack issued to its sweeper (R48, R163). -/
def State.issue (s : State) (i : SlotId) : State :=
  let others := (allSlots.filter (· != i)).foldl (State.unaccount (s.record i).sweeper) s
  (others.endDraw i .served).putRecord i { others.record i with lifecycle := .issued, bay := none, seen := s.seenCounter }

/-- The record's part of a taken undock, by its lifecycle (R48). -/
def State.undockRecord (s : State) (i : SlotId) : State :=
  match (s.record i).lifecycle with
  | .called => s.issue i
  | .docked | .ready =>
    let freed := (s.clearReservation i).leaveReady i
    freed.putRecord i { freed.record i with
      lifecycle := .stored, bay := none, reservation := none, readySince := none, seen := s.seenCounter }
  | _ => s.putRecord i { s.record i with bay := none, seen := s.seenCounter }

/-- The bay's part of a taken undock (R49): the grant goes to 0 as a reduction, the bay is emptied, its pending increase
dropped. -/
def State.undockBay (s : State) (b : BayId) : State :=
  let emptied := (((s.lower b 0).modBay b Bay.emptied).dropIncrease b).notify .bay (.bay b)
  emptied.requestPass.requestPlan

/-- A taken undock (R48, R49). -/
def State.undock (s : State) (b : BayId) : State :=
  let seen := s.countSeen
  match (s.bay b).slot with
  | some i => (seen.undockRecord i).undockBay b
  | none => seen.undockBay b

/-- UNDOCK (R47). The docked record is accessed after the range checks and before the tags are compared (R18). -/
def execUndock (p : PortId) (params : List Byte) (s : State) : Result :=
  .next (s.clusterCommand p rowUndock params fun b t =>
    if (t.bay b).stage == .empty then t.reply .state
    else if tagAt params 1 = 0 then t.reply .range
    else if tagAt params 1 != (t.bay b).tag then (t.accessDocked b).reply .conflict
    else ((t.accessDocked b).undock b).reply .ok)

/-! ### REPORT (R51 to R61) -/

/-- The readings of a REPORT, clamped; the interval as sent (R51). -/
def reportOf (params : List Byte) : LastReport :=
  { current := (clampInt 0 2500 (s16At params 1)).toNat
    voltage := min 9999 (u16At params 3)
    temperature := clampTemperature (s8At params 5)
    interval := u16At params 6
    terminated := (params.getD 8 0).getLsbD 0
    chargerFault := (params.getD 8 0).getLsbD 1 }

/-- A REPORT's temperature was clamped (R51, step 1). -/
def reportClamped (params : List Byte) : Bool := clampTemperature (s8At params 5) != s8At params 5

/-- Step 1 of R51: the last report, the counts since it, and the sensor-limit mark. -/
def State.recordReport (s : State) (b : BayId) (l : LastReport) (clamped : Bool) : State :=
  let recorded := s.modBay b fun x => { x with last := some l, sinceReport := 0, silence := 0, sensorLimit := clamped }
  if clamped && !(s.bay b).sensorLimit then recorded.notify .bay (.bay b) else recorded

/-- A report taken for a bay that is not EMPTY: the seven steps of R51. -/
def State.takeReport (s : State) (b : BayId) (l : LastReport) (clamped : Bool) : State :=
  let recorded := s.recordReport b l clamped
  let normal := recorded.returnToNormal b
  let compared := normal.compareCurrent b l.current
  let credited := compared.creditCharge b l.current l.interval
  let tracked := credited.trackBand b l.temperature
  let moved := tracked.moveStage b l ((s.bay b).inhibits == 0)
  moved.supervise b l

/-- REPORT (R51, R53). The docked record is accessed first (R18). -/
def execReport (p : PortId) (params : List Byte) (s : State) : Result :=
  .next (s.clusterCommand p rowReport params fun b t =>
    if (t.bay b).stage == .empty then (t.compareCurrent b (reportOf params).current).reply .ok
    else ((t.accessDocked b).takeReport b (reportOf params) (reportClamped params)).reply .ok)

/-! ### GRANT_ACK and CLEAR_FAULT (R71, R124) -/

/-- GRANT_ACK (R124). -/
def execGrantAck (p : PortId) (params : List Byte) (s : State) : Result :=
  .next (s.clusterCommand p rowGrantAck params fun b t =>
    if u16At params 1 = (t.bay b).grant then (t.confirm b).reply .ok else t.reply .stale)

/-- CLEAR_FAULT (R71). -/
def execClearFault (p : PortId) (params : List Byte) (s : State) : Result :=
  .next (s.clusterCommand p rowClearFault params fun b t =>
    if !(t.bay b).carries .fault then t.reply .state
    else if (t.bay b).report == .lost then t.reply .state
    else ((t.removeInhibit b .fault).notifyFaultClear b).reply .ok)

end Sys2Proof.Machine
end

