-- ==== Sys2Proof/Machine/ExecPort.lean ====
section
/-!
DEFINITION. The meanings of the port-level commands and of the notice commands: UNKNOWN_CODE, SHORT_TRANSACTION, IDENTIFY (R174,
R177, R182), READ_NOTICES, ACK_NOTICES, SET_NOTICE_MASK and READ_BAY_SUMMARY (R168 to R172).
-/

namespace Sys2Proof.Machine

/-- UNKNOWN_CODE (R177): refused with UNKNOWN, whatever the role; STARTING while the scan runs. A code of the command table is
no unknown code. -/
def execUnknownCode (p : PortId) (code : Byte) (s : State) : Result :=
  if knownCode code then .refused (.illFormed "UNKNOWN_CODE")
  else .next (s.refuseCode p (if s.phase == .running then .unknown else .starting))

/-- SHORT_TRANSACTION (R174, R177): a transaction that ends within its command byte leaves SHORT, or STARTING while the scan
runs. No whole byte is shifted out. -/
def execShortTransaction (p : PortId) (s : State) : Result :=
  .next (s.fixResult p (if s.phase == .running then .short else .starting) [])

/-- IDENTIFY (R182): taken in every role and at every moment. -/
def execIdentify (p : PortId) (s : State) : Result :=
  .next (s.fixResult p .ok (shiftedOut (s.port p).lastResult rowIdentify [] (s.answer (s.identifyBody p))))

/-- READ_NOTICES (R170). -/
def execReadNotices (p : PortId) (s : State) : Result :=
  .next (s.transact p rowReadNotices [] fun t => t.answer (t.noticesBody p))

/-- The kinds named in a set of two bytes; positions that name no kind are ignored (R168, R171, R184). -/
def kindsAt (ps : List Byte) : FlagSet 12 := BitVec.ofNat 12 (u16At ps 0)

/-- ACK_NOTICES (R171): the kinds named are cleared from the port's own pending set. -/
def execAckNotices (p : PortId) (params : List Byte) (s : State) : Result :=
  .next (s.transact p rowAckNotices params fun t =>
    (t.setPort p { t.port p with raised := (t.port p).raised &&& ~~~ kindsAt params }).reply .ok)

/-- The edge option a byte codes (R168). -/
def edgeOfByte : Nat → Option EdgeOption
  | 0 => some .declare
  | 1 => some .both
  | _ => none

/-- SET_NOTICE_MASK (R168): the port's own mask and fault-edge option. -/
def execSetNoticeMask (p : PortId) (params : List Byte) (s : State) : Result :=
  .next (s.transact p rowSetNoticeMask params fun t =>
    match edgeOfByte (byteAt params 2) with
    | some o => (t.setPort p { t.port p with mask := kindsAt params, edge := o }).reply .ok
    | none => t.reply .range)

/-- READ_BAY_SUMMARY (R172): the summary is answered and emptied. -/
def execReadBaySummary (p : PortId) (s : State) : Result :=
  .next (s.transact p rowReadBaySummary [] fun t =>
    (t.setPort p { t.port p with summary := 0 }).answer (t.summaryBody p))

end Sys2Proof.Machine
end

