-- ==== Sys2Proof/Machine/ExecRead.lean ====
section
/-!
DEFINITION. The meanings of the reads of the roster, the bays, the supply, the schedule, the counters, the queues, the clock and
the grants (R6, R8, R41, R83, R98, R131, R136, R141, R155, R162).
-/

namespace Sys2Proof.Machine

/-! ### The four views of READ_PACK (R6) -/

/-- The answer with one slot's record, after the access (R6). -/
def State.answerPack (s : State) (i : SlotId) : Reply := s.answer (packBytes i (s.record i))

/-- The view by slot (R6). -/
def State.readBySlot (s : State) (key : Nat) : Reply :=
  match index 64 key with
  | some i => (s.access i).answerPack i
  | none => s.reply .range

/-- The view by tag (R6): the lookup reads the roster, so every record is accessed (notes/assumptions/7.md). -/
def State.readByTag (s : State) (key : Nat) : Reply :=
  if key = 0 then s.reply .range
  else
    let checked := s.accessAll allSlots
    match checked.slotOfTag (BitVec.ofNat 32 key) with
    | some i => checked.answerPack i
    | none => checked.reply .notFound

/-- The view by bay (R6): a bay that is EMPTY or UNLISTED names no record. -/
def State.readByBay (s : State) (p : PortId) (key : Nat) : Reply :=
  match s.namedBay p key with
  | none => s.reply .range
  | some b =>
    match (s.bay b).slot with
    | some i => (s.access i).answerPack i
    | none => s.reply .notFound

/-- The record of a lifecycle held for a sweeper. -/
def State.slotForSweeper (s : State) (w : SweeperId) (l : Lifecycle) : Option SlotId :=
  allSlots.find? fun i => (s.record i).lifecycle == l && (s.record i).sweeper == some w

/-- A record that may be absent, as READ_PACK by sweeper sends it (R184). -/
def State.optionalPack (s : State) : Option SlotId → List Byte
  | some i => packBytes i (s.record i)
  | none => absentPack

/-- The view by sweeper (R6): the ISSUED record, then the CALLED one. -/
def State.readBySweeper (s : State) (key : Nat) : Reply :=
  match index 64 key with
  | none => s.reply .range
  | some w =>
    if w = 0 then s.reply .range
    else
      let checked := s.accessAll allSlots
      match checked.slotForSweeper w .issued, checked.slotForSweeper w .called with
      | none, none => checked.reply .notFound
      | issued, called => checked.answer (checked.optionalPack issued ++ checked.optionalPack called)

/-- READ_PACK (R6): a view number other than the four is refused with RANGE. -/
def execReadPack (p : PortId) (params : List Byte) (s : State) : Result :=
  .next (s.transact p rowReadPack params fun t =>
    match byteAt params 0 with
    | 0 => t.readBySlot (u32At params 1)
    | 1 => t.readByTag (u32At params 1)
    | 2 => t.readByBay p (u32At params 1)
    | 3 => t.readBySweeper (u32At params 1)
    | _ => t.reply .range)

/-- The eight slots of a group, in order. -/
def slotsOf (g : GroupId) : List SlotId := (List.finRange 8).map fun k => ⟨8 * g.val + k.val, by omega⟩

/-- The issuing port's mark for a group cleared (R8). -/
def State.clearMark (s : State) (p : PortId) (g : GroupId) : State :=
  s.setPort p { s.port p with marks := dropFlag (s.port p).marks g }

/-- READ_GROUP (R8). -/
def execReadGroup (p : PortId) (params : List Byte) (s : State) : Result :=
  .next (s.transact p rowReadGroup params fun t =>
    match index 8 (byteAt params 0) with
    | some g =>
      let checked := t.accessAll (slotsOf g)
      (checked.clearMark p g).answer ((slotsOf g).flatMap fun i => packBytes i (checked.record i))
    | none => t.reply .range)

/-- READ_MARKS (R8). -/
def execReadMarks (p : PortId) (s : State) : Result :=
  .next (s.transact p rowReadMarks [] fun t => t.answer (be 1 (t.port p).marks.toNat))

/-- READ_BAY (R41). -/
def execReadBay (p : PortId) (params : List Byte) (s : State) : Result :=
  .next (s.transact p rowReadBay params fun t =>
    match t.namedBay p (byteAt params 0) with
    | some b => t.answer (t.bayBytes b)
    | none => t.reply .range)

/-- READ_SUPPLY (R97, R98): the answer is formed, then the port's peak is set to the effective other load. -/
def execReadSupply (p : PortId) (s : State) : Result :=
  .next (s.transact p rowReadSupply [] fun t =>
    (t.setPort p { t.port p with peak := t.supply.otherLoad }).answer (t.supplyBody p))

/-- READ_DEPARTURE (R141). -/
def execReadDeparture (p : PortId) (params : List Byte) (s : State) : Result :=
  .next (s.transact p rowReadDeparture params fun t =>
    match index 48 (byteAt params 0) with
    | some e => t.answer (t.departureBody e)
    | none => t.reply .range)

/-- READ_COUNTERS (R83). -/
def execReadCounters (p : PortId) (s : State) : Result :=
  .next (s.transact p rowReadCounters [] fun t => t.answer (t.countersBody p))

/-- READ_QUEUE (R155): each record of the queue is accessed before the answer is formed. -/
def execReadQueue (p : PortId) (params : List Byte) (s : State) : Result :=
  .next (s.transact p rowReadQueue params fun t =>
    match index 8 (byteAt params 0) with
    | some k =>
      let checked := t.accessAll (t.queueMembers k)
      checked.answer (checked.queueBody k)
    | none => t.reply .range)

/-- READ_CLOCK (R136). -/
def execReadClock (p : PortId) (s : State) : Result :=
  .next (s.transact p rowReadClock [] fun t => t.answer t.clockBody)

/-- READ_RECALL (R162): RANGE above 3; SCOPE where a cluster port names another cluster. -/
def execReadRecall (p : PortId) (params : List Byte) (s : State) : Result :=
  .next (s.transact p rowReadRecall params fun t =>
    match index 4 (byteAt params 0) with
    | some c =>
      if (t.clusterOfPort p).isSome && t.clusterOfPort p != some c then t.reply .scope else t.answer (t.recallBody p c)
    | none => t.reply .range)

/-- READ_GRANTS (R131). -/
def execReadGrants (p : PortId) (s : State) : Result :=
  .next (s.transact p rowReadGrants [] fun t => t.answer (t.grantsBody p))

end Sys2Proof.Machine
end

