-- ==== Sys2Proof/Machine/ExecRotation.lean ====
section
/-!
DEFINITION. The meanings of the rotation and roster commands: DRAW (R157 to R160), CANCEL_DRAW (R164), QUARANTINE (R14), RELEASE
(R15), FORGET (R16) and LATCH_COUNTERS (R82).
-/

namespace Sys2Proof.Machine

/-! ### DRAW and CANCEL_DRAW -/

/-- The sweeper a command names, none where it is 0 or above 63 (R157, R164). -/
def sweeperOf (n : Nat) : Option SweeperId := if n = 0 then none else index 64 n

/-- A DRAW that passes its checks (R158 to R160): served with the pack chosen, or NONE_READY with the pack fields absent. -/
def State.drawPack (s : State) (w : SweeperId) (k : ProfileId) : Reply :=
  let e := s.matchingEntry w k
  let chosen := s.choosePack w k e
  match chosen.2 with
  | some pick =>
    let served := chosen.1.serveDraw w pick.slot e
    ⟨served, pick.result, drawBody (some pick.slot) (served.record pick.slot)⟩
  | none => ⟨chosen.1, .noneReady, drawBody none freeRecord⟩

/-- DRAW (R157). -/
def execDraw (p : PortId) (params : List Byte) (s : State) : Result :=
  .next (s.transact p rowDraw params fun t =>
    match sweeperOf (byteAt params 0), index 8 (byteAt params 1) with
    | some w, some k =>
      if (t.drawOf w).isSome then t.reply .conflict
      else if !(t.profile k).valid then t.reply .state
      else t.drawPack w k
    | _, _ => t.reply .range)

/-- The record a sweeper's draw names accessed (R17), if it has a draw. -/
def State.accessDrawn (s : State) (w : SweeperId) : State :=
  match s.drawOf w with
  | some d => s.access d.slot
  | none => s

/-- CANCEL_DRAW (R164). The called record is accessed first: a draw that its rebuild voids is refused with STATE (R18). -/
def execCancelDraw (p : PortId) (params : List Byte) (s : State) : Result :=
  .next (s.transact p rowCancelDraw params fun t =>
    match sweeperOf (byteAt params 0) with
    | none => t.reply .range
    | some w =>
      let checked := t.accessDrawn w
      match checked.drawOf w with
      | some d => (checked.cancelDrawOf d.slot).reply .ok
      | none => checked.reply .state)

/-! ### QUARANTINE, RELEASE and FORGET -/

/-- A depot command that names a roster slot in parameter byte 0: RANGE above 63, and otherwise the record is accessed before
the command's other checks (R18). -/
def State.slotCommand (s : State) (p : PortId) (row : CommandRow) (params : List Byte) (act : SlotId → State → Reply) : State :=
  s.transact p row params fun t =>
    match index 64 (byteAt params 0) with
    | some i => act i (t.access i)
    | none => t.reply .range

/-- QUARANTINE (R14). -/
def execQuarantine (p : PortId) (params : List Byte) (s : State) : Result :=
  .next (s.slotCommand p rowQuarantine params fun i t =>
    match (t.record i).lifecycle with
    | .free | .quarantined => t.reply .state
    | _ => (t.enterQuarantine i .operator).reply .ok)

/-- The record's part of a RELEASE (R15): the lifecycle it takes from where it stands. -/
def State.releaseRecord (s : State) (i : SlotId) : State :=
  match (s.record i).bay with
  | some b =>
    let docked := s.putRecord i { s.record i with lifecycle := .docked, reason := none }
    if (s.bay b).stage == .done then docked.makeReady i else docked
  | none => s.putRecord i { s.record i with lifecycle := .stored, reason := none }

/-- A record released from quarantine (R15). -/
def State.releaseQuarantine (s : State) (i : SlotId) : State :=
  let released := s.releaseRecord i
  let freed := match (s.record i).bay with
    | some b => released.removeInhibit b .quarantine
    | none => released
  (freed.notify .roster .part).requestPlan

/-- RELEASE (R15). -/
def execRelease (p : PortId) (params : List Byte) (s : State) : Result :=
  .next (s.slotCommand p rowRelease params fun i t =>
    if (t.record i).lifecycle == .quarantined && (t.record i).reason != some .damaged then
      (t.releaseQuarantine i).reply .ok
    else t.reply .state)

/-- A bay whose damaged record is forgotten (R16, R46): it becomes UNLISTED, keeping its tag and profile copies. -/
def State.unlistBay (s : State) (b : BayId) : State :=
  let emptied := s.modBay b fun x => { x with slot := none, stage := .bulk, restEnd := none, equaliseEnd := none, session := 0 }
  (emptied.addInhibit b .unlisted).removeInhibit b .quarantine

/-- A record forgotten (R16): it becomes FREE, a bay that held it becomes UNLISTED, and the slot is relisted (R12). -/
def State.forgetRecord (s : State) (i : SlotId) : State :=
  let unlisted := match (s.record i).bay with
    | some b => s.unlistBay b
    | none => s
  (unlisted.putRecord i freeRecord).relist i

/-- FORGET applies to the record (R16): it is STORED, or QUARANTINED and either not docked or DAMAGED. -/
def PackRecord.forgettable (r : PackRecord) : Bool :=
  match r.lifecycle with
  | .stored => true
  | .quarantined => r.bay.isNone || r.reason == some .damaged
  | _ => false

/-- FORGET (R16). -/
def execForget (p : PortId) (params : List Byte) (s : State) : Result :=
  .next (s.slotCommand p rowForget params fun i t =>
    if (t.record i).forgettable then (t.forgetRecord i).reply .ok else t.reply .state)

/-! ### LATCH_COUNTERS -/

/-- LATCH_COUNTERS (R82). -/
def execLatchCounters (p : PortId) (s : State) : Result :=
  .next (s.transact p rowLatchCounters [] fun t => t.latch.reply .ok)

end Sys2Proof.Machine
end

