-- ==== Sys2Proof/Machine/ExecSupply.lean ====
section
/-!
DEFINITION. The meanings of the supply and site commands: SET_CLOCK (R134), SET_SUPPLY (R85), OTHER_LOAD (R86), HOLD (R91), RESUME
(R93), SET_ZONE (R95), ZONE_ON and ZONE_OFF (R96), SET_SITE (R181).
-/

namespace Sys2Proof.Machine

/-! ### Clock and supply -/

/-- The depot clock set (R134), with its notice and its request. -/
def State.setClock (s : State) (c : Clock) : State :=
  (({ s with clock := some c }).notify .clock .part).requestPlan

/-- SET_CLOCK (R134). -/
def execSetClock (p : PortId) (params : List Byte) (s : State) : Result :=
  .next (s.transact p rowSetClock params fun t =>
    if 10079 < u16At params 0 || 59 < byteAt params 2 then t.reply .range
    else (t.setClock ⟨u16At params 0, byteAt params 2⟩).reply .ok)

/-- The meter mode a byte codes (R85). -/
def meterModeOfByte : Nat → Option MeterMode
  | 0 => some .metered
  | 1 => some .unmetered
  | _ => none

/-- SET_SUPPLY (R85): the limit clamped to 250 000, the reserve to 50 000. -/
def execSetSupply (p : PortId) (params : List Byte) (s : State) : Result :=
  .next (s.transact p rowSetSupply params fun t =>
    match meterModeOfByte (byteAt params 5) with
    | some m =>
      (t.resupply fun x => { x with
        limit := min 250000 (u24At params 0), reserve := min 50000 (u16At params 3), meterMode := m }).reply .ok
    | none => t.reply .range)

/-- OTHER_LOAD (R86): the reading clamped to 250 000. -/
def execOtherLoad (p : PortId) (params : List Byte) (s : State) : Result :=
  .next (s.transact p rowOtherLoad params fun t => (t.takeReading (min 250000 (u24At params 0))).reply .ok)

/-! ### Hold and resume -/

/-- HOLD (R91). -/
def execHold (p : PortId) (s : State) : Result :=
  .next (s.transact p rowHold [] fun t =>
    match t.supply.hold with
    | .running | .ramping => t.windDown.reply .ok
    | .windingDown | .held => t.reply .ok)

/-- RESUME (R93). -/
def execResume (p : PortId) (s : State) : Result :=
  .next (s.transact p rowResume [] fun t =>
    match t.supply.hold with
    | .running | .ramping => t.reply .ok
    | .windingDown => t.reply .state
    | .held => (t.clearInhibit .hold).startRamp.reply .ok)

/-! ### The restriction zone -/

/-- The zone's first and last bay set (R95); while the zone is on every bay is re-evaluated. -/
def State.setZone (s : State) (first last : BayId) : State :=
  let placed := s.setSupply { s.supply with zoneFirst := first, zoneLast := last }
  if s.supply.zoneOn then placed.rezone else placed

/-- SET_ZONE (R95). -/
def execSetZone (p : PortId) (params : List Byte) (s : State) : Result :=
  .next (s.transact p rowSetZone params fun t =>
    match index 16 (byteAt params 0), index 16 (byteAt params 1) with
    | some first, some last => (t.setZone first last).reply .ok
    | _, _ => t.reply .range)

/-- The zone switched on (R96): every bay is re-evaluated by its place. -/
def State.switchZoneOn (s : State) : State := (s.setSupply { s.supply with zoneOn := true }).rezone

/-- The zone switched off (R96): RESTRICTED leaves every bay that carries it. -/
def State.switchZoneOff (s : State) : State :=
  (((s.setSupply { s.supply with zoneOn := false }).clearInhibit .restricted).notify .supply .part).requestPass

/-- ZONE_ON (R96): with the zone already on, OK and no change. -/
def execZoneOn (p : PortId) (s : State) : Result :=
  .next (s.transact p rowZoneOn [] fun t => (if t.supply.zoneOn then t else t.switchZoneOn).reply .ok)

/-- ZONE_OFF (R96): with the zone already off, OK and no change. -/
def execZoneOff (p : PortId) (s : State) : Result :=
  .next (s.transact p rowZoneOff [] fun t => (if t.supply.zoneOn then t.switchZoneOff else t).reply .ok)

/-! ### Site settings (R181) -/

/-- The settings that 20 bytes write, each clamped into its range (R181). -/
def siteOf (params : List Byte) : Site :=
  { period := clampNat 1 30 (byteAt params 0)
    reportTimeout := clampNat 2 60 (byteAt params 1)
    lostTimeout := clampNat 10 300 (u16At params 2)
    confirmTimeout := clampNat 1 15 (byteAt params 4)
    criterion := if byteAt params 5 = 0 then .strict else .lenient
    latchMode := if byteAt params 6 = 0 then .manual else .auto
    shiftStarts := Vector.ofFn fun k => min 1440 (u16At params (7 + 2 * k.val))
    horizon := clampNat 60 1440 (u16At params 15)
    grace := min 60 (byteAt params 17)
    rampTime := min 120 (byteAt params 18)
    minimumIssue := min 100 (byteAt params 19) }

/-- The period timer at a change of settings (R102): started afresh where the period changed. -/
def State.retime (s : State) (old : Site) : State :=
  if s.site.period = old.period then s else { s with periodTimer := some s.site.period }

/-- A ramp in progress at a change of the ramp time (R94). -/
def State.reramp (s : State) (old : Site) : State :=
  if s.site.rampTime = old.rampTime || s.supply.hold != .ramping then s
  else if s.site.rampTime ≤ s.supply.elapsed.getD 0 then s.endRamp
  else s.checkBudget

/-- The planning request of a change of horizon or grace (R135). -/
def State.replan (s : State) (old : Site) : State :=
  if s.site.horizon = old.horizon && s.site.grace = old.grace then s else s.requestPlan

/-- The site settings written, each owner applying its own (R181). -/
def State.setSite (s : State) (x : Site) : State :=
  ((({ s with site := x }).retime s.site).reramp s.site).replan s.site

/-- SET_SITE (R181). -/
def execSetSite (p : PortId) (params : List Byte) (s : State) : Result :=
  .next (s.transact p rowSetSite params fun t => (t.setSite (siteOf params)).reply .ok)

end Sys2Proof.Machine
end

