-- ==== Sys2Proof/Machine/ExecTable.lean ====
section
/-!
DEFINITION. The meanings of the window, stream and schedule commands: SET_WINDOW (R178), TABLE_WRITE, its entry takes and its end
(R25, R138, R179), TABLE_READ (R180), ADD_DEPARTURE (R139) and CANCEL_DEPARTURE (R140).
-/

namespace Sys2Proof.Machine

/-! ### Windows -/

/-- The window that a table, a first and a last entry name (R178), none where it is refused: a last entry beyond the table's
end is taken as the end. -/
def windowFor (table first last : Nat) : Option Window :=
  match table with
  | 0 =>
    match index 8 first, index 8 (min 7 last) with
    | some f, some l => if first ≤ last then some (.profiles f l) else none
    | _, _ => none
  | 1 =>
    match index 48 first, index 48 (min 47 last) with
    | some f, some l => if first ≤ last then some (.schedule f l) else none
    | _, _ => none
  | _ => none

/-- A port's table window replaced. -/
def State.setWindow (s : State) (p : PortId) (w : Option Window) : State := s.setPort p { s.port p with window := w }

/-- SET_WINDOW (R178). -/
def execSetWindow (p : PortId) (params : List Byte) (s : State) : Result :=
  .next (s.transact p rowSetWindow params fun t =>
    match windowFor (byteAt params 0) (byteAt params 1) (byteAt params 2) with
    | some w => (t.setWindow p (some w)).reply .ok
    | none => t.reply .range)

/-! ### TABLE_WRITE -/

/-- A TABLE_WRITE stream opened over a window (R179): its result is fixed at select rise, so the last result stands. -/
def State.openStream (s : State) (p : PortId) (w : Window) : State :=
  s.setPort p { s.port p with
    stream := some w.open, held := [], reading := none, out := [(s.port p).lastResult.byte] }

/-- TABLE_WRITE, at its command byte (R177, R179). -/
def execTableWrite (p : PortId) (s : State) : Result :=
  .next (
    if s.phase != .running then s.refuseCode p .starting
    else if !(s.port p).role.mayIssue rowTableWrite.cls then s.refuseCode p .role
    else
      match (s.port p).window with
      | some w => s.openStream p w
      | none => s.refuseCode p .state)

/-- One more byte completes an entry of n bytes at the port (R179). -/
def Port.completes (x : Port) (n : Nat) : Bool := n ≤ x.held.length + 1

/-- PROFILE_ENTRY_TAKE (R25, R179): a byte arrives in the port's stream over the profile table. It is held at the port until the
entry's last byte arrives, at which the whole entry is taken and the stream moves to byte 0 of the next. Without such a stream, and
after the last entry of its window, the byte is ignored. -/
def execProfileEntryTake (p : PortId) (b : Byte) (s : State) : Result :=
  .next (match (s.port p).stream with
    | some (.profiles (some k) last) =>
      if (s.port p).completes 32 then
        (s.takeProfile k ((s.port p).wholeEntry 32 b)).setStream p (some (.profiles (nextUpTo k last) last))
      else s.holdByte p b
    | _ => s)

/-- SCHEDULE_ENTRY_TAKE (R138, R179): a byte arrives in the port's stream over the schedule. It is held at the port until the entry's
last byte arrives, at which the whole entry is taken and the stream moves to byte 0 of the next. Without such a stream, and after
the last entry of its window, the byte is ignored. -/
def execScheduleEntryTake (p : PortId) (b : Byte) (s : State) : Result :=
  .next (match (s.port p).stream with
    | some (.schedule (some e) last) =>
      if (s.port p).completes 8 then
        (s.takeEntry e ((s.port p).wholeEntry 8 b)).setStream p (some (.schedule (nextUpTo e last) last))
      else s.holdByte p b
    | _ => s)

/-- The end of a TABLE_WRITE stream with a result (R175, R179): an entry left incomplete is discarded. -/
def State.closeStream (s : State) (p : PortId) (r : ResultCode) : State :=
  s.setPort p { s.port p with stream := none, held := [], lastResult := r }

/-- TABLE_WRITE_STREAM_END (R179, R183): select rises on a stream. Its result is OK, or STATE where a soft reset took its
window away. Without a stream it is no event. -/
def execTableWriteStreamEnd (p : PortId) (s : State) : Result :=
  .next (match (s.port p).stream with
    | some .windowGone => s.closeStream p .state
    | some _ => s.closeStream p .ok
    | none => s)

/-! ### TABLE_READ -/

/-- TABLE_READ at its command byte (R180): taken while the port holds a window, whose first entry is formed next. -/
def State.beginReading (s : State) (p : PortId) : State :=
  let answered := s.transact p rowTableRead [] fun t =>
    if (t.port p).window.isSome then t.answer [] else t.reply .state
  if (answered.port p).lastResult == .ok then answered.setReading p ((s.port p).window.map Window.open) else answered

/-- The next entry of a TABLE_READ formed and shifted out (R180), as it then stands. -/
def State.readEntry (s : State) (p : PortId) : State :=
  match (s.port p).reading with
  | some (.profiles (some k) last) =>
    (s.shiftOut p (profileBytes (s.profile k))).setReading p (some (.profiles (nextUpTo k last) last))
  | some (.schedule (some e) last) =>
    (s.shiftOut p (entryBytes (s.entry e))).setReading p (some (.schedule (nextUpTo e last) last))
  | _ => s

/-- TABLE_READ (R180), by the part of the transaction. -/
def execTableRead (p : PortId) (part : ReadPart) (s : State) : Result :=
  .next (match part with
    | .command => s.beginReading p
    | .nextEntry => s.readEntry p)

/-! ### Schedule commands -/

/-- The entry that an ADD_DEPARTURE's bytes give (R139). -/
def departureOf (params : List Byte) : Entry :=
  { valid := true, weekly := byteAt params 0 == 1, sweeper := byteAt params 1, minute := u16At params 2,
    profile := byteAt params 4, required := byteAt params 5, status := .idle, reserved := none, renewal := false }

/-- The lowest-numbered entry that is invalid or FINISHED (R139). -/
def State.freeEntry (s : State) : Option EntryId :=
  allEntries.find? fun e => !(s.entry e).valid || (s.entry e).status == .finished

/-- A departure added into an entry (R139). A reservation the entry still held is cleared (R150). -/
def State.addDeparture (s : State) (e : EntryId) (x : Entry) : State := ((s.unreserve e).setEntry e x).requestPlan

/-- ADD_DEPARTURE (R139). -/
def execAddDeparture (p : PortId) (params : List Byte) (s : State) : Result :=
  .next (s.transact p rowAddDeparture params fun t =>
    if 1 < byteAt params 0 || !(departureOf params).inRange then t.reply .range
    else
      match t.freeEntry with
      | some e => (t.addDeparture e (departureOf params)).reply .ok
      | none => t.reply .full)

/-- An entry cancelled (R140). It keeps the fields last written (R137). -/
def Entry.cancelled (x : Entry) : Entry := { x with valid := false, status := .idle, renewal := false, reserved := none }

/-- A departure cancelled (R140). -/
def State.cancelDeparture (s : State) (e : EntryId) : State :=
  let freed := s.unreserve e
  (freed.setEntry e (freed.entry e).cancelled).requestPlan

/-- CANCEL_DEPARTURE (R140). -/
def execCancelDeparture (p : PortId) (params : List Byte) (s : State) : Result :=
  .next (s.transact p rowCancelDeparture params fun t =>
    match index 48 (byteAt params 0) with
    | none => t.reply .range
    | some e =>
      if !(t.entry e).valid then t.reply .state
      else if (t.entry e).status == .called then t.reply .state
      else (t.cancelDeparture e).reply .ok)

end Sys2Proof.Machine
end

