-- ==== Sys2Proof/Machine/Allocation.lean ====
section
/-!
DEFINITION. The Allocator (spec/06_allocation.md): fixed load and pool, caps, urgency and slack, the allocation order, the two
fills and the pass as a whole (R100 to R116).
-/

namespace Sys2Proof.Machine

/-- The docked record of a bay; an UNLISTED or EMPTY bay has none and reads as a FREE record. -/
def State.dockedRecord (s : State) (b : BayId) : PackRecord :=
  match (s.bay b).slot with
  | some i => s.record i
  | none => freeRecord

/-! ### Fixed load and pool (R106) -/

/-- The bay's allowance power enters the fixed load (R106). -/
def Bay.fixed (x : Bay) : Bool := !x.eligible || x.reduction || x.grant < x.allowance

/-- The fixed load F of a pass (R106). -/
def State.fixedLoad (s : State) : Nat :=
  (allBays.map fun b => if (s.bay b).fixed then (s.bay b).power else 0).sum

/-- The pool of a pass (R106). -/
def State.pool (s : State) : Nat := s.budget - s.fixedLoad

/-! ### Caps (R107 to R109) -/

/-- The taper figure of a pack in ABSORB (R108), a negative figure taken as 0: the greater of it and the finish current is
the same. -/
def taperFigure (pr : Profile) (r : PackRecord) : Nat :=
  pr.maxCurrent * (r.capacity - r.estimate) / (r.capacity - pr.absorbAt r.capacity)

/-- The cap of a bay before rounding (R107 to R109). DESIGN CHOICE (notes/assumptions/39.md): a bay already in EQUALISE when its
profile's interval becomes 0 is still capped by the entry's equalise current (R109), though R26 leaves that field unchecked. -/
def capBeforeRounding (pr : Profile) (r : PackRecord) (x : Bay) : Nat :=
  let derated := pr.maxCurrent * pr.factor x.band / 100
  let staged := match x.stage with
    | .absorb => min derated (max pr.finishCurrent (taperFigure pr r))
    | .equalise => min derated (pr.equaliseCurrent * pr.factor x.band / 100)
    | _ => derated
  if x.stall == .probation then min staged pr.minCurrent else staged

/-- The cap of a bay for a pass (R107 to R109): rounded down to a multiple of 5, and 0 where that is below the min
current. -/
def State.capOf (s : State) (b : BayId) : Nat :=
  let cap := downTo5 (capBeforeRounding (s.bayProfile b) (s.dockedRecord b) (s.bay b))
  if cap < (s.bayProfile b).minCurrent then 0 else cap

/-! ### Urgency (R110 to R112) -/

/-- The departure entry a bay is reserved for at a pass (R110), with the clock it is judged by. -/
def State.reservedFor (s : State) (b : BayId) : Option (EntryId × Clock) :=
  match s.clock, (s.dockedRecord b).reservation with
  | some c, some e => if s.windowOf e == some .due || s.windowOf e == some .active then some (e, c) else none
  | _, _ => none

/-- The need N of a reserved bay (R111). -/
def State.needOf (s : State) (b : BayId) (e : EntryId) : Nat :=
  (s.entry e).requiredCharge (s.dockedRecord b).capacity - (s.dockedRecord b).estimate

/-- A reserved bay's need rate and slack (R112); a slack of none is −∞. -/
def urgencyOf (need : Nat) (d : Int) (cap acceptance : Nat) : Nat × Option Int :=
  if need = 0 then (0, some d)
  else if d ≤ 0 then (cap, none)
  else if cap = 0 then (ceilDiv (need * 360000) (d.toNat * acceptance), none)
  else (ceilDiv (need * 360000) (d.toNat * acceptance), some (d - ceilDiv (need * 360000) (cap * acceptance)))

/-- The need rate and slack of a bay where it is reserved (R112), none where it is not. -/
def State.urgency (s : State) (b : BayId) : Option (Nat × Option Int) :=
  (s.reservedFor b).map fun (e, c) =>
    urgencyOf (s.needOf b e) ((s.entry e).secondsTo s.site c) (s.capOf b) (s.bayProfile b).acceptance

/-- The need rate r of a bay (R112); an unreserved bay asks nothing of the first fill (R114). -/
def State.needRate (s : State) (b : BayId) : Nat := ((s.urgency b).map (·.1)).getD 0

/-! ### Allocation order (R113) -/

/-- The key of the allocation order (R113): reserved bays by slack, −∞ first; then unreserved bays by estimate percentage;
ties by bay number. -/
def State.orderKey (s : State) (b : BayId) : List Int :=
  match s.urgency b with
  | some (_, none) => [0, 0, 0, b.val]
  | some (_, some slack) => [0, 1, slack, b.val]
  | none => [1, 1, ((s.dockedRecord b).percent : Int), b.val]

/-- The eligible bays in allocation order (R113). -/
def State.allocationOrder (s : State) : List BayId :=
  sortByKey s.orderKey (allBays.filter fun b => (s.bay b).eligible)

/-! ### The fills (R114, R115) -/

/-- The current a bay wants of the first fill (R114, step 1). -/
def State.wanted (s : State) (b : BayId) : Nat :=
  if s.needRate b = 0 then 0
  else min (s.capOf b) (max (upTo5 (s.needRate b)) (s.bayProfile b).minCurrent)

/-- The target of a bay in the first fill, given the pool left (R114, steps 2 and 3). -/
def State.firstTarget (s : State) (pool : Nat) (b : BayId) : Nat :=
  let t := (largestStep (fun v => s.powerOf b v ≤ pool) (s.wanted b / 5)).getD 0
  if t < (s.bayProfile b).minCurrent then 0 else t

/-- The first fill (R114): the pool left and the targets, in allocation order. -/
def State.firstFill (s : State) (pool : Nat) : List BayId → Nat × List Target
  | [] => (pool, [])
  | b :: rest =>
    let t := s.firstTarget pool b
    let (left, targets) := s.firstFill (pool - s.powerOf b t) rest
    (left, ⟨b, t⟩ :: targets)

/-- The target of a bay in the second fill (R115), given the pool left and its target of the first fill. -/
def State.secondTarget (s : State) (pool : Nat) (t : Target) : Nat :=
  (largestStep
    (fun v => t.current < v && s.powerOf t.bay v - s.powerOf t.bay t.current ≤ pool &&
      (t.current != 0 || (s.bayProfile t.bay).minCurrent ≤ v))
    (s.capOf t.bay / 5)).getD t.current

/-- The second fill (R115), in the same order. -/
def State.secondFill (s : State) (pool : Nat) : List Target → List Target
  | [] => []
  | t :: rest =>
    let v := s.secondTarget pool t
    ⟨t.bay, v⟩ :: s.secondFill (pool - (s.powerOf t.bay v - s.powerOf t.bay t.current)) rest

/-- The targets of the eligible bays (R114, R115). -/
def State.filledTargets (s : State) : List Target :=
  let (left, targets) := s.firstFill s.pool s.allocationOrder
  s.secondFill left targets

/-- The targets of a pass in the order of their hand-over (R116). -/
def State.targets (s : State) : List Target :=
  s.filledTargets ++ (allBays.filter fun b => !(s.bay b).eligible).map fun b => ⟨b, 0⟩

/-- An allocation pass (R100): the pass figure takes the budget figure read, the request mark is cleared, and the targets are
handed over. -/
def State.allocate (s : State) : State :=
  ({ s with supply := { s.supply with passFigure := s.budget }, passMark := false }).handOver s.targets

end Sys2Proof.Machine
end

