-- ==== Sys2Proof/Machine/Planning.lean ====
section
/-!
DEFINITION. The Departure Planner (spec/08_departures_and_planning.md): settlement (R144), candidates and projection (R146,
R147), the choice of packs (R148), the writing of reservations (R149), and the planning pass as a whole (R143).
-/

namespace Sys2Proof.Machine

/-! ### Step 1: settlement (R144) -/

/-- A valid entry OUTSIDE its windows, settled (R144). -/
def Entry.settled (e : Entry) : Entry :=
  match e.status with
  | .planned | .short | .late => { e with status := .missed, reserved := none, renewal := e.weekly || e.renewal }
  | .served | .missed => if e.weekly then { e with renewal := true } else { e with status := .finished }
  | .idle => { e with renewal := e.weekly || e.renewal }
  | .called | .finished => e

/-- A WEEKLY entry in a window, renewed where its mark is set and it is not CALLED (R144). -/
def Entry.renewed (e : Entry) : Entry :=
  if e.weekly && e.renewal && e.status != .called then { e with status := .idle, renewal := false } else e

/-- An entry after step 1, by its window; an invalid entry takes no part (R137, R144). -/
def State.settledEntry (s : State) (e : EntryId) : Entry :=
  match s.windowOf e with
  | some .outside => (s.entry e).settled
  | some _ => (s.entry e).renewed
  | none => s.entry e

/-- An entry becomes MISSED at step 1 (R144). -/
def State.becomesMissed (s : State) (e : EntryId) : Bool :=
  (s.settledEntry e).status == .missed && (s.entry e).status != .missed

/-- Step 1 of a planning pass (R144): every entry settled or renewed, a SHORT notice where one becomes MISSED. -/
def State.settle (s : State) : State :=
  let settled : State := { s with entries := updateAll s.entries fun e _ => s.settledEntry e }
  if allEntries.any s.becomesMissed then settled.notify .short .part else settled

/-! ### Steps 2 and 3: candidates and choice (R146 to R148) -/

/-- The seconds a DOCKED pack short of its required charge is projected to need (R147), or none where it cannot be
projected. -/
def projectedSeconds (pr : Profile) (band : Fin 6) (need : Nat) : Option Nat :=
  let rate (factor : Nat) := pr.maxCurrent * factor / 100
  let seconds (factor : Nat) := ceilDiv (need * 360000) (rate factor * pr.acceptance)
  if pr.factor band = 0 then
    match pr.warmUp band with
    | some f => if rate f < pr.minCurrent then none else some (seconds f + 2700)
    | none => none
  else if rate (pr.factor band) < pr.minCurrent then none
  else some (seconds (pr.factor band))

/-- The projected time of a slot's pack for an entry (R146, R147): none where the record is no candidate for it. -/
def State.projection (s : State) (e : EntryId) (i : SlotId) : Option Nat :=
  let r := s.record i
  let pr := s.profile r.profile
  if !(r.lifecycle == .docked || r.lifecycle == .ready) || r.profile.val != (s.entry e).profile || !pr.valid then none
  else
    match r.bay with
    | none => none
    | some b =>
      if (s.bay b).carries .fault then none
      else if r.lifecycle == .ready || (s.entry e).requiredCharge r.capacity ≤ r.estimate then some 0
      else projectedSeconds pr (s.bay b).band ((s.entry e).requiredCharge r.capacity - r.estimate)

/-- A reservation chosen in a pass: the entry and its pack. -/
structure Choice where
  entry : EntryId
  slot : SlotId
  deriving DecidableEq, Repr

/-- The candidates of an entry with their projected times (R146), given the packs already chosen in this pass. -/
def State.candidates (s : State) (chosen : List Choice) (e : EntryId) : List (SlotId × Nat) :=
  allSlots.filterMap fun i =>
    if chosen.any fun c => c.slot == i then none else (s.projection e i).map fun t => (i, t)

/-- The rotation key (R147): cycle count ascending, estimate percentage descending, slot ascending. -/
def State.rotationKey (s : State) (i : SlotId) : List Int :=
  [((s.record i).cycles : Int), -((s.record i).percent : Int), i.val]

/-- A candidate with this projected time makes it for a departure D seconds away (R147). -/
def makesIt (d : Int) (t : Nat) : Bool := t == 0 || (t : Int) ≤ d

/-- The seconds to departure of an entry by the clock, for a pass that runs with the clock set. -/
def State.departureIn (s : State) (e : EntryId) : Int :=
  match s.clock with
  | some c => (s.entry e).secondsTo s.site c
  | none => 0

/-- The choice of a pack for one entry (R148): the pack, if any, and the entry's status. -/
def State.choose (s : State) (chosen : List Choice) (e : EntryId) : Option SlotId × EntryStatus :=
  let all := s.candidates chosen e
  let making := (all.filter fun c => makesIt (s.departureIn e) c.2).map (·.1)
  let kept := making.find? fun i => (s.entry e).reserved == some i
  match kept, (sortByKey s.rotationKey making).head? with
  | some i, _ => (some i, .planned)
  | none, some i => (some i, .planned)
  | none, none =>
    match (sortByKey (fun c => (c.2 : Int) :: s.rotationKey c.1) all).head? with
    | some c => (some c.1, .late)
    | none => (none, .short)

/-- One entry planned (R148): its status, and a SHORT notice where it becomes SHORT or LATE from another status. -/
def State.planEntry (acc : State × List Choice) (e : EntryId) : State × List Choice :=
  let (s, chosen) := acc
  let (pick, status) := s.choose chosen e
  let planned := s.setEntry e { s.entry e with status := status }
  let noticed :=
    if (status == .short || status == .late) && (s.entry e).status != status then planned.notify .short .part else planned
  match pick with
  | some i => (noticed, chosen ++ [⟨e, i⟩])
  | none => (noticed, chosen)

/-! ### Step 4: the reservations (R149) -/

/-- The entry a pass chose for a slot. -/
def chosenFor (chosen : List Choice) (i : SlotId) : Option EntryId :=
  (chosen.find? fun c => c.slot == i).map (·.entry)

/-- One record's reservation written (R149). The write is an access (R17); a record that the access rebuilds as DAMAGED takes
no reservation. -/
def State.reserveSlot (chosen : List Choice) (s : State) (i : SlotId) : State :=
  if (s.record i).reservation = chosenFor chosen i then s
  else
    let checked := s.access i
    if (checked.record i).lifecycle == .docked || (checked.record i).lifecycle == .ready then
      checked.putRecord i { checked.record i with reservation := chosenFor chosen i }
    else checked.putRecord i { checked.record i with reservation := none }

/-- The reserved slot of an entry after step 4 (R149): the slot chosen for it, where the record took the reservation. -/
def State.reservedSlot (s : State) (chosen : List Choice) (e : EntryId) : Option SlotId :=
  match chosen.find? fun c => c.entry == e with
  | some c => if (s.record c.slot).reservation = some e then some c.slot else none
  | none => none

/-- Step 4 of a planning pass (R149): both sides of every reservation written, and an allocation pass requested where any
record's reservation changed. -/
def State.writeReservations (s : State) (chosen : List Choice) : State :=
  let recorded := allSlots.foldl (State.reserveSlot chosen) s
  let entered : State :=
    { recorded with entries := updateAll recorded.entries fun e x => { x with reserved := recorded.reservedSlot chosen e } }
  if allSlots.all fun i => (entered.record i).reservation == (s.record i).reservation then entered else entered.requestPass

/-- A planning pass (R143), taken with the clock set. The mark is cleared; a record rebuilt as DAMAGED at the pass's own writes
requests a further one (R13). -/
def State.plan (s : State) : State :=
  let settled := ({ s with planMark := false }).settle
  let (planned, chosen) := settled.planOrder.foldl State.planEntry (settled, [])
  planned.writeReservations chosen

end Sys2Proof.Machine
end

