-- ==== Sys2Proof/Machine/ExecTimer.lean ====
section
/-!
DEFINITION. The meanings of the timebase, of the timers' expiries and of the two passes. An expiry or a pass takes place only when
it is due, and is no event otherwise (notes/assumptions/4.md).
-/

namespace Sys2Proof.Machine

/-! ### TIMEBASE_SECOND -/

/-- What a check of a record will find once its bits have suffered an upset (notes/assumptions/6.md). -/
def CheckCode.upset : CheckCode → Upset → CheckCode
  | .clean, .oneBit => .oneBit
  | .clean, .twoBits => .twoBits
  | .oneBit, _ => .twoBits
  | .twoBits, _ => .twoBits

/-- An upset of a record's stored bits. -/
def State.sufferUpset (s : State) (u : SlotId × Upset) : State :=
  { s with checks := s.checks.set u.1 ((s.check u.1).upset u.2) }

/-- The clock one second on (R133). -/
def Clock.next (c : Clock) : Clock :=
  if c.second < 59 then { c with second := c.second + 1 } else ⟨if c.minute < 10079 then c.minute + 1 else 0, 0⟩

/-- The clock advanced by the timebase (R133); the minute it reaches at second 0 awaits its minute change
(notes/assumptions/5.md). -/
def State.advanceClock (s : State) : State :=
  match s.clock with
  | none => s
  | some c =>
    { s with clock := some c.next, minuteDue := if c.next.second = 0 then some c.next.minute else s.minuteDue }

/-- A bay's counts and timers one second on (R37, R64, R119). A timer that reaches 0 awaits its expiry. -/
def Bay.tick (x : Bay) : Bay :=
  { x with
    sinceReport := if x.last.isSome then countTo 65535 x.sinceReport else x.sinceReport
    silence := if x.stage == .empty then x.silence else countTo 65535 x.silence
    restEnd := x.restEnd.map Nat.pred
    equaliseEnd := x.equaliseEnd.map Nat.pred
    confirmTimer := x.confirmTimer.map Nat.pred
    holdEnd := x.holdEnd.map Nat.pred }

/-- The elapsed count one second on, up to the ramp time (R94). -/
def Supply.elapsedTick (x : Supply) (rampTime : Nat) : Option Nat :=
  if x.hold == .ramping then x.elapsed.map (countTo rampTime) else x.elapsed

/-- The Supply Monitor's counts one second on (R87, R92, R94). -/
def Supply.tick (x : Supply) (rampTime : Nat) : Supply :=
  { x with age := x.age.map (countTo 65535), windDown := x.windDown.map Nat.pred, elapsed := x.elapsedTick rampTime }

/-- Every count and timer of the part one second on; each second of a ramp is an event of R89. The scrub's visit of the second falls
due (R19, notes/assumptions/37.md). -/
def State.tick (s : State) : State :=
  let ticked : State := { s.advanceClock with
    bays := updateAll s.bays fun _ x => x.tick
    supply := s.supply.tick s.site.rampTime
    scrubDue := true
    periodTimer := s.periodTimer.map Nat.pred }
  if s.supply.hold == .ramping then ticked.checkBudget else ticked

/-- TIMEBASE_SECOND (R20, R37, R64, R87, R94, R119, R133). No timer runs during the scan or under RESET. -/
def execTimebaseSecond (upsets : List (SlotId × Upset)) (s : State) : Result :=
  let struck := upsets.foldl State.sufferUpset s
  .next (if s.phase == .running then struck.tick else struck)

/-! ### Minute change and scrub -/

/-- The minute of week is a shift start (R81). -/
def Site.shiftStart (x : Site) (minute : Nat) : Bool :=
  (List.finRange 4).any fun k => x.shiftStarts[k] != 1440 && x.shiftStarts[k] == minute % 1440

/-- What follows the clock's minute change (R81, R133): an AUTO latch that falls due, and the planning pass, which clears the request
mark and so answers every request of the same moment, made before the clock's advance or after it (R151, notes/assumptions/36.md). -/
def State.changeMinute (s : State) (minute : Nat) : State :=
  let cleared : State := { s with minuteDue := none }
  (if s.site.latchMode == .auto && s.site.shiftStart minute then cleared.latch else cleared).plan

/-- CLOCK_MINUTE_CHANGE (R133). -/
def execClockMinuteChange (s : State) : Result :=
  .next (match s.phase, s.minuteDue with
    | .running, some m => s.changeMinute m
    | _, _ => s)

/-- The scrub position after a visit (R19). -/
def nextSlot (i : SlotId) : SlotId := ⟨(i.val + 1) % 64, by omega⟩

/-- The visit of the scrub (R19): the record at its position is accessed, and the position advances. -/
def State.visit (s : State) : State := { s.access s.scrub with scrub := nextSlot s.scrub, scrubDue := false }

/-- SCRUB_VISIT (R19): one visit in a second of the timebase (notes/assumptions/37.md). -/
def execScrubVisit (s : State) : Result := .next (if s.phase == .running && s.scrubDue then s.visit else s)

/-! ### Silence and stall hold -/

/-- The bay is due to become SILENT (R66). -/
def State.silentDue (s : State) (b : BayId) : Bool :=
  s.phase == .running && (s.bay b).stage != .empty && (s.bay b).report == .normal &&
    s.site.reportTimeout ≤ (s.bay b).silence

/-- REPORT_TIMEOUT_SILENT (R66). -/
def execReportTimeoutSilent (b : BayId) (s : State) : Result :=
  .next (if s.silentDue b then s.becomeSilent b else s)

/-- The bay is due to become LOST (R67). -/
def State.lostDue (s : State) (b : BayId) : Bool :=
  s.phase == .running && (s.bay b).stage != .empty && (s.bay b).report != .lost && s.site.lostTimeout ≤ (s.bay b).silence

/-- LOST_TIMEOUT (R67). -/
def execLostTimeout (b : BayId) (s : State) : Result := .next (if s.lostDue b then s.becomeLost b else s)

/-- A stall hold that ends (R75). -/
def State.endStallHold (s : State) (b : BayId) : State :=
  ((s.modBay b fun x => { x with stall := .probation, probation := some 0, holdEnd := none }).removeInhibit b
    .stallHold).notify .bay (.bay b)

/-- STALL_HOLD_END (R75). -/
def execStallHoldEnd (b : BayId) (s : State) : Result :=
  .next (if s.phase == .running && (s.bay b).holdEnd == some 0 then s.endStallHold b else s)

/-! ### Stage timers (R59) -/

/-- The charges since equalise of the bay's record set to 0 (R59). -/
def State.clearSinceEqualise (s : State) (b : BayId) : State :=
  match (s.bay b).slot with
  | some i => s.putRecord i { s.record i with sinceEqualise := 0 }
  | none => s

/-- The equalise end expires (R59). The record is accessed, as it is written (R17). -/
def State.endEqualise (s : State) (b : BayId) : State :=
  let cleared := ((s.accessDocked b).clearSinceEqualise b).modBay b fun x => { x with equaliseEnd := none }
  cleared.enterRest b (min 240 (cleared.bayProfile b).restMinutes)

/-- EQUALISE_END (R59). -/
def execEqualiseEnd (b : BayId) (s : State) : Result :=
  .next (if s.phase == .running && (s.bay b).equaliseEnd == some 0 then s.endEqualise b else s)

/-- The rest end expires (R59). -/
def State.endRest (s : State) (b : BayId) : State :=
  ((s.accessDocked b).modBay b fun x => { x with restEnd := none }).enterDone b

/-- REST_END (R59). -/
def execRestEnd (b : BayId) (s : State) : Result :=
  .next (if s.phase == .running && (s.bay b).restEnd == some 0 then s.endRest b else s)

/-! ### Confirm timer (R126) -/

/-- Step 3 of R126 at a bay that is not EMPTY: FAULT is added, and a grant above 0 goes to 0 with a GRANT notice but with no
mark and no timer. -/
def State.faultUnconfirmed (s : State) (b : BayId) : State :=
  let faulted := s.changeBay b fun x => { x with inhibits := addFlag x.inhibits Inhibit.fault.bit, grant := 0 }
  (if 0 < (s.bay b).grant then faulted.notify .grant (.bay b) else faulted).notify .fault (.bay b)

/-- The confirm timer of a bay expires (R126). -/
def State.timeOut (s : State) (b : BayId) : State :=
  let cleared := (s.count b .confirmTimeout).modBay b fun x => { x with reduction := false, confirmTimer := none }
  (if (s.bay b).stage == .empty then cleared else cleared.faultUnconfirmed b).releaseIfResolved

/-- CONFIRM_TIMER_EXPIRY (R126). -/
def execConfirmTimerExpiry (b : BayId) (s : State) : Result :=
  .next (if s.phase == .running && (s.bay b).confirmTimer == some 0 then s.timeOut b else s)

/-! ### Supply timers -/

/-- The reading's age has reached 11 (R87). -/
def Supply.staleDue (x : Supply) : Bool := x.condition == .fresh && 11 ≤ x.age.getD 0

/-- The meter becomes STALE (R87). -/
def State.becomeStale (s : State) : State := (s.resupply fun x => { x with condition := .stale }).notify .supply .part

/-- METER_STALE (R87). -/
def execMeterStale (s : State) : Result :=
  .next (if s.phase == .running && s.supply.staleDue then s.becomeStale else s)

/-- The wind-down expires (R92). -/
def State.endWindDown (s : State) : State :=
  (s.resupply fun x => { x with hold := .held, windDown := none }).notify .supply .part

/-- WIND_DOWN_END (R92). -/
def execWindDownEnd (s : State) : Result :=
  .next (if s.phase == .running && s.supply.hold == .windingDown && s.supply.windDown == some 0 then s.endWindDown else s)

/-- The ramp's elapsed count has reached the ramp time (R94). -/
def State.rampDue (s : State) : Bool :=
  s.phase == .running && s.supply.hold == .ramping && s.site.rampTime ≤ s.supply.elapsed.getD 0

/-- RAMP_END (R94). -/
def execRampEnd (s : State) : Result := .next (if s.rampDue then s.endRamp else s)

/-! ### Passes -/

/-- ALLOCATION_PERIOD_EXPIRY (R102): a pass, and the timer starts again. -/
def execAllocationPeriodExpiry (s : State) : Result :=
  .next (if s.phase == .running && s.periodTimer == some 0 then
    { s.allocate with periodTimer := some s.site.period } else s)

/-- ALLOCATION_PASS (R101): the pass that answers the request mark. -/
def execAllocationPass (s : State) : Result := .next (if s.phase == .running && s.passMark then s.allocate else s)

/-- A pass of its own is due for the request mark (R143): the clock is set, and no minute change of this moment awaits its pass, which
answers the request with it (R151, notes/assumptions/36.md). -/
def State.planDue (s : State) : Bool := s.phase == .running && s.planMark && s.clock.isSome && s.minuteDue.isNone

/-- PLANNING_PASS (R143): the pass that answers the request mark. -/
def execPlanningPass (s : State) : Result := .next (if s.planDue then s.plan else s)

end Sys2Proof.Machine
end

