-- ==== Sys2Proof/Machine/Dispatch.lean ====
section
/-!
DEFINITION. The effect of every command and event, one arm for each constructor of Instr.
-/

namespace Sys2Proof.Machine

/-- A command's effect on everything but the queue. -/
def exec (i : Instr) (s : State) : Host.Outcome State Fault Refusal :=
  match i with
  | .powerOn straps => Sys2Proof.Machine.execPowerOn straps s
  | .hardReset straps => Sys2Proof.Machine.execHardReset straps s
  | .scanComplete => Sys2Proof.Machine.execScanComplete s
  | .unknownCode p code => Sys2Proof.Machine.execUnknownCode p code s
  | .shortTransaction p => Sys2Proof.Machine.execShortTransaction p s
  | .identify p => Sys2Proof.Machine.execIdentify p s
  | .readNotices p => Sys2Proof.Machine.execReadNotices p s
  | .ackNotices p params => Sys2Proof.Machine.execAckNotices p params s
  | .setNoticeMask p params => Sys2Proof.Machine.execSetNoticeMask p params s
  | .readBaySummary p => Sys2Proof.Machine.execReadBaySummary p s
  | .readPack p params => Sys2Proof.Machine.execReadPack p params s
  | .readGroup p params => Sys2Proof.Machine.execReadGroup p params s
  | .readMarks p => Sys2Proof.Machine.execReadMarks p s
  | .readBay p params => Sys2Proof.Machine.execReadBay p params s
  | .readSupply p => Sys2Proof.Machine.execReadSupply p s
  | .readDeparture p params => Sys2Proof.Machine.execReadDeparture p params s
  | .readCounters p => Sys2Proof.Machine.execReadCounters p s
  | .readQueue p params => Sys2Proof.Machine.execReadQueue p params s
  | .readClock p => Sys2Proof.Machine.execReadClock p s
  | .readRecall p params => Sys2Proof.Machine.execReadRecall p params s
  | .dock p params => Sys2Proof.Machine.execDock p params s
  | .undock p params => Sys2Proof.Machine.execUndock p params s
  | .report p params => Sys2Proof.Machine.execReport p params s
  | .grantAck p params => Sys2Proof.Machine.execGrantAck p params s
  | .clearFault p params => Sys2Proof.Machine.execClearFault p params s
  | .readGrants p => Sys2Proof.Machine.execReadGrants p s
  | .setClock p params => Sys2Proof.Machine.execSetClock p params s
  | .setSupply p params => Sys2Proof.Machine.execSetSupply p params s
  | .otherLoad p params => Sys2Proof.Machine.execOtherLoad p params s
  | .hold p => Sys2Proof.Machine.execHold p s
  | .resume p => Sys2Proof.Machine.execResume p s
  | .setZone p params => Sys2Proof.Machine.execSetZone p params s
  | .zoneOn p => Sys2Proof.Machine.execZoneOn p s
  | .zoneOff p => Sys2Proof.Machine.execZoneOff p s
  | .setSite p params => Sys2Proof.Machine.execSetSite p params s
  | .setWindow p params => Sys2Proof.Machine.execSetWindow p params s
  | .tableWrite p => Sys2Proof.Machine.execTableWrite p s
  | .profileEntryTake p b => Sys2Proof.Machine.execProfileEntryTake p b s
  | .scheduleEntryTake p b => Sys2Proof.Machine.execScheduleEntryTake p b s
  | .tableRead p part => Sys2Proof.Machine.execTableRead p part s
  | .addDeparture p params => Sys2Proof.Machine.execAddDeparture p params s
  | .cancelDeparture p params => Sys2Proof.Machine.execCancelDeparture p params s
  | .draw p params => Sys2Proof.Machine.execDraw p params s
  | .cancelDraw p params => Sys2Proof.Machine.execCancelDraw p params s
  | .quarantine p params => Sys2Proof.Machine.execQuarantine p params s
  | .release p params => Sys2Proof.Machine.execRelease p params s
  | .forget p params => Sys2Proof.Machine.execForget p params s
  | .latchCounters p => Sys2Proof.Machine.execLatchCounters p s
  | .softReset p => Sys2Proof.Machine.execSoftReset p s
  | .timebaseSecond upsets => Sys2Proof.Machine.execTimebaseSecond upsets s
  | .clockMinuteChange => Sys2Proof.Machine.execClockMinuteChange s
  | .scrubVisit => Sys2Proof.Machine.execScrubVisit s
  | .reportTimeoutSilent b => Sys2Proof.Machine.execReportTimeoutSilent b s
  | .lostTimeout b => Sys2Proof.Machine.execLostTimeout b s
  | .stallHoldEnd b => Sys2Proof.Machine.execStallHoldEnd b s
  | .equaliseEnd b => Sys2Proof.Machine.execEqualiseEnd b s
  | .restEnd b => Sys2Proof.Machine.execRestEnd b s
  | .confirmTimerExpiry b => Sys2Proof.Machine.execConfirmTimerExpiry b s
  | .meterStale => Sys2Proof.Machine.execMeterStale s
  | .windDownEnd => Sys2Proof.Machine.execWindDownEnd s
  | .rampEnd => Sys2Proof.Machine.execRampEnd s
  | .allocationPeriodExpiry => Sys2Proof.Machine.execAllocationPeriodExpiry s
  | .allocationPass => Sys2Proof.Machine.execAllocationPass s
  | .planningPass => Sys2Proof.Machine.execPlanningPass s
  | .tableWriteStreamEnd p => Sys2Proof.Machine.execTableWriteStreamEnd p s
  | .hardResetEnd => Sys2Proof.Machine.execHardResetEnd s

end Sys2Proof.Machine
end

