-- ==== Sys2Proof/WellFormed.lean ====
section
/-!
DEFINITION. Which terms of Instr are commands or events of the part at all. The operands' types hold every range but one:
UNKNOWN_CODE is a command byte that is not in the command table (R177, check 2).
-/

namespace Sys2Proof

/-- The term is a command or event the part can meet. -/
def Instr.wellFormed : Instr → Bool
  | .unknownCode _ code => !Machine.knownCode code
  | _ => true

end Sys2Proof
end

