-- ==== Sys2Proof/Safety.lean ====
section
/-!
DEFINITION. The terms in which statements about the DPC-16 are made: which commands a port takes (R177), what a transaction leaves
at its port (R174, R175), how the other ports can change, bands, windows, figures and layouts as their rules spell them, and the laws that
every step keeps.
-/

namespace Sys2Proof

open Machine in
/-- The port, the row of the command table and the parameter bytes of a whole transaction of a command other than IDENTIFY
(R177). -/
def Instr.transaction : Instr → Option (PortId × CommandRow × List Byte)
  | .readNotices p => some (p, rowReadNotices, [])
  | .ackNotices p ps => some (p, rowAckNotices, ps)
  | .setNoticeMask p ps => some (p, rowSetNoticeMask, ps)
  | .readBaySummary p => some (p, rowReadBaySummary, [])
  | .readPack p ps => some (p, rowReadPack, ps)
  | .readGroup p ps => some (p, rowReadGroup, ps)
  | .readMarks p => some (p, rowReadMarks, [])
  | .readBay p ps => some (p, rowReadBay, ps)
  | .readSupply p => some (p, rowReadSupply, [])
  | .readDeparture p ps => some (p, rowReadDeparture, ps)
  | .readCounters p => some (p, rowReadCounters, [])
  | .readQueue p ps => some (p, rowReadQueue, ps)
  | .readClock p => some (p, rowReadClock, [])
  | .readRecall p ps => some (p, rowReadRecall, ps)
  | .dock p ps => some (p, rowDock, ps)
  | .undock p ps => some (p, rowUndock, ps)
  | .report p ps => some (p, rowReport, ps)
  | .grantAck p ps => some (p, rowGrantAck, ps)
  | .clearFault p ps => some (p, rowClearFault, ps)
  | .readGrants p => some (p, rowReadGrants, [])
  | .setClock p ps => some (p, rowSetClock, ps)
  | .setSupply p ps => some (p, rowSetSupply, ps)
  | .otherLoad p ps => some (p, rowOtherLoad, ps)
  | .hold p => some (p, rowHold, [])
  | .resume p => some (p, rowResume, [])
  | .setZone p ps => some (p, rowSetZone, ps)
  | .zoneOn p => some (p, rowZoneOn, [])
  | .zoneOff p => some (p, rowZoneOff, [])
  | .setSite p ps => some (p, rowSetSite, ps)
  | .setWindow p ps => some (p, rowSetWindow, ps)
  | .tableWrite p => some (p, rowTableWrite, [])
  | .tableRead p .command => some (p, rowTableRead, [])
  | .addDeparture p ps => some (p, rowAddDeparture, ps)
  | .cancelDeparture p ps => some (p, rowCancelDeparture, ps)
  | .draw p ps => some (p, rowDraw, ps)
  | .cancelDraw p ps => some (p, rowCancelDraw, ps)
  | .quarantine p ps => some (p, rowQuarantine, ps)
  | .release p ps => some (p, rowRelease, ps)
  | .forget p ps => some (p, rowForget, ps)
  | .latchCounters p => some (p, rowLatchCounters, [])
  | .softReset p => some (p, rowSoftReset, [])
  | .tableRead _ .nextEntry => none
  | .powerOn _ | .hardReset _ | .scanComplete | .unknownCode _ _ | .shortTransaction _ | .identify _ => none
  | .profileEntryTake _ _ | .scheduleEntryTake _ _ | .tableWriteStreamEnd _ => none
  | .timebaseSecond _ | .clockMinuteChange | .scrubVisit | .reportTimeoutSilent _ | .lostTimeout _ => none
  | .stallHoldEnd _ | .equaliseEnd _ | .restEnd _ | .confirmTimerExpiry _ | .meterStale | .windDownEnd => none
  | .rampEnd | .allocationPeriodExpiry | .allocationPass | .planningPass | .hardResetEnd => none

end Sys2Proof

namespace Sys2Proof.Machine

/-! ### Transactions -/

/-- A command with these parameter bytes passes checks 1 to 4 of R177 at the port: the part is running, the role may issue it,
and its parameter bytes have arrived. -/
def State.accepts (s : State) (p : PortId) (row : CommandRow) (params : List Byte) : Bool :=
  s.phase == .running && (s.port p).role.mayIssue row.cls && row.parameters ≤ params.length

/-- A port after a transaction that shifted out these bytes after its last result (R174, R175). -/
def Port.ended (x : Port) (r : ResultCode) (after : List Byte) : Port :=
  { x with lastResult := r, stream := none, held := [], reading := none, out := x.lastResult.byte :: after }

/-- A port after a write-type command: 0xFF against every parameter byte (R174). -/
def Port.wrote (x : Port) (params : List Byte) (r : ResultCode) : Port := x.ended r (List.replicate params.length 0xFF)

/-- A port after a command taken before select rise with n parameter bytes: the turnaround byte, the result and the body
(R174). -/
def Port.answered (x : Port) (n : Nat) (r : ResultCode) (body : List Byte) : Port :=
  x.ended r (List.replicate n 0xFF ++ 0xA5 :: r.byte :: body)

/-- What an event does to port q when it does f to every port and then g to port p. -/
def atPorts (f : Port → Port) (p : PortId) (g : Port → Port) (q : PortId) (x : Port) : Port :=
  if q = p then g (f x) else f x

/-- No record has suffered an upset since it was last checked or written (R17). -/
def State.sound (s : State) : Prop := ∀ i, s.check i = .clean

/-! ### How a port can change at an event of another agent -/

/-- A port after notices and marks joined it (R7, R167, R172): nothing else changes, and an OFF port takes no notice. -/
structure PortMoves (x y : Port) : Prop where
  same : y = { x with raised := y.raised, summary := y.summary, marks := y.marks }
  raised : ∀ k, hasFlag x.raised k = true → hasFlag y.raised k = true
  summary : ∀ b, hasFlag x.summary b = true → hasFlag y.summary b = true
  marks : ∀ g, hasFlag x.marks g = true → hasFlag y.marks g = true
  off : x.role = .off → y.raised = x.raised ∧ y.summary = x.summary

/-! ### Bands, windows and figures, as their rules spell them -/

/-- A temperature lies in band k of an entry whose breakpoints ascend (R30): at or above every breakpoint up to b_k, and below the
next. Breakpoint b1 is at place 0. -/
def Profile.liesIn (pr : Profile) (t : Int) (k : Fin 6) : Prop :=
  (∀ j : Fin 5, j.val < k.val → pr.breakpoints[j] ≤ t) ∧ ∀ j : Fin 5, j.val = k.val → t < pr.breakpoints[j]

/-- The candidate of a report at this temperature for a bay in band k (R54): the band the temperature lies in, but k itself where that is
lower and the temperature stands above b_k − 2, the cooling margin. -/
def Profile.candidateIs (pr : Profile) (k : Fin 6) (t : Int) (candidate : Fin 6) : Prop :=
  ∀ m : Fin 6, pr.liesIn t m →
    (k ≤ m → candidate = m) ∧
    ∀ j : Fin 5, m < k → j.val + 1 = k.val → candidate = if pr.breakpoints[j] - 2 < t then k else m

/-- The checks of a written entry, row by row of the table of R26. -/
structure Profile.meetsChecks (pr : Profile) : Prop where
  family : pr.family = 0 ∨ pr.family = 1 ∨ pr.family = 2
  nominalVoltage : 1 ≤ pr.nominalVoltage ∧ pr.nominalVoltage ≤ 9999
  rated : 2 ≤ pr.rated ∧ pr.rated ≤ 54162
  currents : 5 ≤ pr.minCurrent ∧ pr.minCurrent ≤ pr.maxCurrent ∧ pr.maxCurrent ≤ 2500 ∧ pr.minCurrent % 5 = 0
  finishCurrent : pr.finishCurrent ≤ pr.maxCurrent
  absorbPoint : 50 ≤ pr.absorbPoint ∧ pr.absorbPoint ≤ 99
  acceptance : 80 ≤ pr.acceptance ∧ pr.acceptance ≤ 100
  efficiency : 70 ≤ pr.efficiency ∧ pr.efficiency ≤ 99
  restMinutes : pr.restMinutes ≤ 240
  returnEstimate : pr.returnEstimate ≤ 100
  breakpoints : ∀ j k : Fin 5, j < k → pr.breakpoints[j] < pr.breakpoints[k]
  factors : ∀ k : Fin 6, pr.factors[k] ≤ 100
  equaliseNotFlooded : pr.family ≠ 0 → pr.equaliseInterval = 0 ∧ pr.equaliseCurrent = 0 ∧ pr.equaliseMinutes = 0
  equaliseFlooded : pr.family = 0 → 0 < pr.equaliseInterval →
    pr.minCurrent ≤ pr.equaliseCurrent ∧ pr.equaliseCurrent ≤ pr.maxCurrent ∧ 1 ≤ pr.equaliseMinutes ∧ pr.equaliseMinutes ≤ 240

/-- The minutes from one minute of the week to a later one, modulo 10080 (R111, R142). -/
def minutesFrom (earlier later : Nat) : Int := ((later : Int) - (earlier : Int)) % 10080

/-- The window of a valid entry at a minute of the week (R142): DUE within the grace since its departure, else ACTIVE within the horizon
before it, else OUTSIDE. -/
def Entry.standsIn (x : Entry) (site : Site) (m : Nat) (w : DepartureWindow) : Prop :=
  (minutesFrom x.minute m ≤ site.grace → w = .due) ∧
    (site.grace < minutesFrom x.minute m → minutesFrom m x.minute ≤ site.horizon → w = .active) ∧
    (site.grace < minutesFrom x.minute m → site.horizon < minutesFrom m x.minute → w = .outside)

/-- The seconds to departure D of an entry in a window (R111): below 0 once it is due. -/
def Entry.departsIn (x : Entry) (site : Site) (c : Clock) (d : Int) : Prop :=
  (minutesFrom x.minute c.minute ≤ site.grace → d = -(minutesFrom x.minute c.minute * 60 + c.second)) ∧
    (site.grace < minutesFrom x.minute c.minute → d = minutesFrom c.minute x.minute * 60 - c.second)

/-- The power of a current at a bay (R104): ⌈I × V / (10 × η)⌉ with V and η from the table of the rule. -/
def State.powerIs (s : State) (b : BayId) (current power : Nat) : Prop :=
  let x := s.bay b
  let pr := s.profile x.profile
  let priced (v η : Nat) : Prop := power = (current * v + 10 * η - 1) / (10 * η)
  (x.stage = .empty ∨ pr.valid = false → priced 9999 70) ∧
    (x.stage ≠ .empty → pr.valid = true →
      (x.last = none → priced pr.nominalVoltage pr.efficiency) ∧
      ∀ l ∈ x.last, priced (max l.voltage pr.nominalVoltage) pr.efficiency)

/-- The cap that a pass finds for a bay with this docked record (R107, R108, R109): the derating cap, narrowed by the taper in ABSORB, by
the equalise current in EQUALISE and by the min current in PROBATION; rounded down to a multiple of 5, and 0 where that is below the
min current. A numerator below 0 counts as 0, under which the finish current stands as well (R108). -/
def State.capIs (s : State) (b : BayId) (r : PackRecord) (cap : Nat) : Prop :=
  let x := s.bay b
  let pr := s.profile x.profile
  let derated := pr.maxCurrent * pr.factors[x.band] / 100
  let taper := pr.maxCurrent * (r.capacity - r.estimate) / (r.capacity - r.capacity * pr.absorbPoint / 100)
  let capped (staged : Nat) : Prop :=
    let found := if x.stall = .probation then min staged pr.minCurrent else staged
    cap = if found / 5 * 5 < pr.minCurrent then 0 else found / 5 * 5
  (x.stage = .absorb → capped (min derated (max pr.finishCurrent taper))) ∧
    (x.stage = .equalise → capped (min derated (pr.equaliseCurrent * pr.factors[x.band] / 100))) ∧
    (x.stage ≠ .absorb → x.stage ≠ .equalise → capped derated)

/-- The need rate and the slack of a reserved bay (R112), row by row of the table of the rule: n the need, d the seconds to departure, a the
charge acceptance. A slack of none is −∞. -/
def urgencyRow (n : Nat) (d : Int) (cap a : Nat) (u : Nat × Option Int) : Prop :=
  let up (x y : Nat) : Nat := (x + y - 1) / y
  (n = 0 → u = (0, some d)) ∧
    (0 < n → d ≤ 0 → u = (cap, none)) ∧
    (0 < n → 0 < d → cap = 0 → u = (up (n * 360000) (d.toNat * a), none)) ∧
    (0 < n → 0 < d → 0 < cap → u = (up (n * 360000) (d.toNat * a), some (d - up (n * 360000) (cap * a))))

/-- The need rate and the slack that a pass finds for a bay with this docked record (R110, R111, R112), none where the bay is not reserved for
the pass. -/
def State.urgencyIs (s : State) (b : BayId) (r : PackRecord) (u : Option (Nat × Option Int)) : Prop :=
  (s.clock = none ∨ r.reservation = none → u = none) ∧
    ∀ c ∈ s.clock, ∀ e ∈ r.reservation,
      let x := s.entry e
      let since := minutesFrom x.minute c.minute
      let ahead := minutesFrom c.minute x.minute
      (x.valid = false ∨ s.site.grace < since ∧ s.site.horizon < ahead → u = none) ∧
      (x.valid = true → since ≤ s.site.grace ∨ ahead ≤ s.site.horizon → ∃ v, u = some v ∧
        urgencyRow ((x.required * r.capacity + 99) / 100 - r.estimate)
          (if since ≤ s.site.grace then -(since * 60 + c.second) else ahead * 60 - c.second)
          (s.capOf b) (s.profile (s.bay b).profile).acceptance v)

/-! ### Releases (R129) -/

/-- What one increase of the walk makes of its bay (R129, steps 1 to 4), the other bays standing as they do at this point of the
walk: the grant rises to the increase where that fits under the budget figure, else to the largest multiple of 5 below it that fits, lies
above the old grant and is at or above the min current, and with no such value the bay stands. -/
def State.releasesInto (s : State) (inc : Increase) (y : Bay) : Prop :=
  let x := s.bay inc.bay
  let others := ((allBays.filter fun a => a != inc.bay).map fun a => (s.bay a).power).sum
  let fits (v : Nat) : Prop := others + s.powerOf inc.bay (max v x.allowance) ≤ s.budget
  let part (v : Nat) : Prop :=
    x.grant < v ∧ v < inc.grant ∧ v % 5 = 0 ∧ (s.profile x.profile).minCurrent ≤ v ∧ fits v
  let raised (v : Nat) : Bay :=
    { x with grant := v, allowance := max v x.allowance, power := s.powerOf inc.bay (max v x.allowance) }
  (fits inc.grant → y = raised inc.grant) ∧
    (¬ fits inc.grant → (∀ v, part v → (∀ w, part w → w ≤ v) → y = raised v) ∧ ((∀ v, ¬ part v) → y = x))

/-- The bays of t are what the walk over a list of increases makes of those of s (R129): each increase acts in its turn, on the bays
as the increases before it leave them. -/
def ReleaseWalk : List Increase → State → State → Prop
  | [], s, t => ∀ b, t.bay b = s.bay b
  | x :: rest, s, t => ∃ y, s.releasesInto x y ∧ ReleaseWalk rest (s.setBay x.bay y) t

/-- Every bay whose grant differs has its GRANT notice at the ports that take it (R121, R129). -/
def State.grantsNoticed (s t : State) : Prop :=
  ∀ b q, (t.bay b).grant ≠ (s.bay b).grant → (s.port q).role.takes .grant (.bay b) = true →
    hasFlag (t.port q).raised NoticeKind.grant.bit = true

/-- A report's current compared with its bay's grant leads from s to t (R53, R123, R129, R130). Within the tolerance it confirms, and
where that leaves no reduction unresolved the pending list is released; above it the overdraw streak counts, and the second such
report raises the allowance to the current rounded up. -/
def State.comparedTo (s : State) (b : BayId) (current : Nat) (t : State) : Prop :=
  let x := s.bay b
  let within : Prop := current ≤ x.grant + max 10 ((x.grant * 5 + 99) / 100)
  let rounded := (current + 4) / 5 * 5
  let confirmed : Bay := { x with
    allowance := x.grant, power := s.powerOf b x.grant, reduction := false
    confirmTimer := if x.reduction then none else x.confirmTimer, overdrawStreak := 0 }
  let resolves : Prop := within ∧ x.reduction = true ∧ ∀ a, a ≠ b → (s.bay a).reduction = false
  (∀ q, PortMoves (s.port q) (t.port q)) ∧
    (resolves → t = { s with bays := t.bays, ports := t.ports, pendingList := [] } ∧
      ReleaseWalk s.pendingList (s.setBay b confirmed) t ∧ s.grantsNoticed t) ∧
    (¬ resolves → t = { s with bays := t.bays, ports := t.ports } ∧ (∀ a, a ≠ b → t.bay a = s.bay a) ∧
      (within → t.ports = s.ports ∧
        t.bay b = if x.reduction = true ∨ x.grant < x.allowance then confirmed else { x with overdrawStreak := 0 }) ∧
      (¬ within → x.overdrawStreak = 0 → t.ports = s.ports ∧ t.bay b = { x with overdrawStreak := 1 }) ∧
      (¬ within → 1 ≤ x.overdrawStreak →
        t.bay b = { x with
          allowance := max x.allowance rounded
          power := if x.allowance < rounded then s.powerOf b rounded else x.power
          overdrawStreak := 0, counters := (t.bay b).counters } ∧
        (t.bay b).counters[EventCounter.overdraw.place] = (x.counters[EventCounter.overdraw.place]).counted ∧
        (∀ k : Fin 5, k ≠ EventCounter.overdraw.place → (t.bay b).counters[k] = x.counters[k]) ∧
        (x.allowance < rounded → ∀ q, (s.port q).role.takes .grant (.bay b) = true →
          hasFlag (t.port q).raised NoticeKind.grant.bit = true)))

/-! ### Planning passes (R143 to R149) -/

/-- An entry stands before another in the planning order (R145). -/
def State.plansBefore (s : State) (a b : EntryId) : Prop :=
  ∃ c, s.clock = some c ∧
    match s.windowOf a, s.windowOf b with
    | some .due, some .due =>
      (s.entry b).timeSince c.minute < (s.entry a).timeSince c.minute ∨
        (s.entry a).timeSince c.minute = (s.entry b).timeSince c.minute ∧ a < b
    | some .due, some .active => True
    | some .active, some .active =>
      (s.entry a).timeTo c.minute < (s.entry b).timeTo c.minute ∨
        (s.entry a).timeTo c.minute = (s.entry b).timeTo c.minute ∧ a < b
    | _, _ => False

/-- A list of entries is the planning order of a pass (R145). -/
def State.plansIn (s : State) (order : List EntryId) : Prop :=
  order.Pairwise s.plansBefore ∧
    ∀ e, e ∈ order ↔ (s.windowOf e = some .due ∨ s.windowOf e = some .active) ∧
      (s.settledEntry e).status ≠ .called ∧ (s.settledEntry e).status ≠ .served ∧ (s.settledEntry e).status ≠ .finished

/-- A slot comes no later than another by the rotation key (R147). -/
def State.rotatesBefore (s : State) (i j : SlotId) : Prop :=
  (s.record i).cycles < (s.record j).cycles ∨
    (s.record i).cycles = (s.record j).cycles ∧
      ((s.record j).percent < (s.record i).percent ∨ (s.record i).percent = (s.record j).percent ∧ i ≤ j)

/-- A slot's pack is a candidate for an entry with this projected time, where the entries planned before it hold their packs in t
(R146, R147). -/
def State.offers (s t : State) (before : List EntryId) (e : EntryId) (i : SlotId) (n : Nat) : Prop :=
  (∀ d ∈ before, (t.entry d).reserved ≠ some i) ∧ s.projection e i = some n

/-- A candidate makes it for an entry (R147). -/
def State.makes (s t : State) (before : List EntryId) (e : EntryId) (i : SlotId) : Prop :=
  ∃ n, s.offers t before e i n ∧ (n = 0 ∨ (n : Int) ≤ s.departureIn e)

/-- An entry stands with this pack and this status. -/
def State.gives (t : State) (e : EntryId) (i : Option SlotId) (x : EntryStatus) : Prop :=
  (t.entry e).reserved = i ∧ (t.entry e).status = x

/-- The pack and the status that a pass gives an entry, where the entries planned before it hold their packs (R146, R148). -/
structure State.PackChosen (s t : State) (before : List EntryId) (e : EntryId) : Prop where
  kept : ∀ i, (s.entry e).reserved = some i → s.makes t before e i → t.gives e (some i) .planned
  making : (∀ i, (s.entry e).reserved = some i → ¬ s.makes t before e i) →
    ∀ i, s.makes t before e i → (∀ j, s.makes t before e j → s.rotatesBefore i j) → t.gives e (some i) .planned
  late : (∀ i, ¬ s.makes t before e i) → ∀ i n, s.offers t before e i n →
    (∀ j m, s.offers t before e j m → n < m ∨ n = m ∧ s.rotatesBefore i j) → t.gives e (some i) .late
  short : (∀ i n, ¬ s.offers t before e i n) → t.gives e none .short
  status : ((t.entry e).status = .planned ∨ (t.entry e).status = .late ↔ (t.entry e).reserved ≠ none) ∧
    ((t.entry e).status = .short ↔ (t.entry e).reserved = none)

/-- An entry becomes MISSED at the settlement of a pass (R144). -/
def State.misses (s : State) (e : EntryId) : Prop :=
  s.windowOf e = some .outside ∧
    ((s.entry e).status = .planned ∨ (s.entry e).status = .short ∨ (s.entry e).status = .late)

/-- A SHORT notice is raised at the pass (R144, R148): an entry becomes MISSED, or becomes SHORT or LATE from another status. -/
def State.comesShort (s t : State) : Prop :=
  (∃ e, s.misses e) ∨
    ∃ e, ((t.entry e).status = .short ∨ (t.entry e).status = .late) ∧ (t.entry e).status ≠ (s.settledEntry e).status

/-- A planning pass on a sound roster leads from s to t (R143 to R149). -/
structure State.PlannedTo (s t : State) : Prop where
  frame : t = { s with
    planMark := false, passMark := t.passMark, records := t.records, checks := t.checks, entries := t.entries
    ports := t.ports }
  records : ∀ i, t.record i = { s.record i with reservation := (t.record i).reservation } ∧ t.check i = .clean
  agree : ∀ i e, (t.record i).reservation = some e ↔ (t.entry e).reserved = some i
  entries : ∀ e, t.entry e = { s.settledEntry e with status := (t.entry e).status, reserved := (t.entry e).reserved }
  planned : ∃ order, s.plansIn order ∧
    (∀ e, e ∉ order → t.gives e none (s.settledEntry e).status) ∧
    ∀ before e after, order = before ++ e :: after → s.PackChosen t before e
  request : t.passMark = true ↔ s.passMark = true ∨ ∃ i, (t.record i).reservation ≠ (s.record i).reservation
  ports : ∀ q, PortMoves (s.port q) (t.port q)
  noticed : s.comesShort t → ∀ q, (s.port q).role.takes .short .part = true →
    hasFlag (t.port q).raised NoticeKind.short.bit = true
  quiet : ¬ s.comesShort t → ∀ q, (t.port q).raised = (s.port q).raised

/-! ### Layouts (R184) -/

/-- The number that bytes spell, most significant first (R174). -/
def spelled (bytes : List Byte) : Nat := bytes.foldl (fun n b => n * 256 + b.toNat) 0

/-- Bytes are fields of these sizes and values, in this order, and nothing more (R184). A field of none is absent: all 0xFF. -/
def spells : List Byte → List (Nat × Option Nat) → Bool
  | bytes, [] => bytes.isEmpty
  | bytes, (n, v) :: rest =>
    (bytes.take n).length == n && spelled (bytes.take n) == (v.getD (256 ^ n - 1)) % 256 ^ n && spells (bytes.drop n) rest

/-- A signed byte in two's complement (R174). -/
def signedField (t : Int) : Nat × Option Nat := (1, some (t % 256).toNat)

/-- A temperature, absent as 0x80 (R184). -/
def temperatureField : Option Int → Nat × Option Nat
  | some t => signedField t
  | none => (1, some 0x80)

/-- Marks in one byte, bit 0 first. -/
def markField (marks : List Bool) : Nat × Option Nat :=
  (1, some (marks.foldr (fun m n => (if m then 1 else 0) + 2 * n) 0))

/-- The pack record's fields (R184). A FREE record holds only its slot and its lifecycle (R2). -/
def packFields (i : SlotId) (r : PackRecord) : List (Nat × Option Nat) :=
  let held (v : Nat) : Option Nat := if r.lifecycle = .free then none else some v
  [(1, some i.val), (1, some r.lifecycle.code), (4, some r.tag.toNat), (1, held r.profile.val), (1, r.bay.map (·.val)),
    (1, some ((r.sweeper.map (·.val)).getD 0)), (1, r.reservation.map (·.val)), (2, held r.estimate), (3, held r.residue),
    (2, held r.capacity), (2, held r.cycles), (1, held r.sinceEqualise), (2, r.readySince), (4, held r.seen),
    (1, some ((r.reason.map Reason.code).getD 0))]

/-- The bay record's fields (R184). What R37 gives a bay with a pack is absent while it is EMPTY. While no last report is present its two
marks are clear, the model's choice (notes/assumptions/40.md). -/
def State.bayFields (s : State) (b : BayId) : List (Nat × Option Nat) :=
  let x := s.bay b
  let full (v : Nat) : Option Nat := if x.stage = .empty then none else some v
  [(1, some b.val), (1, some x.stage.code), (2, some x.inhibits.toNat), (1, x.slot.map (·.val)), (4, full x.tag.toNat),
    (1, full x.profile.val), temperatureField (if x.stage = .empty then none else some x.dockTemperature),
    (1, full x.band.val), (1, full x.debounce),
    markField [x.sensorLimit, x.last.any (·.terminated), x.last.any (·.chargerFault), x.reduction],
    (2, x.last.map (·.current)), (2, x.last.map (·.voltage)), temperatureField (x.last.map (·.temperature)),
    (2, x.last.map (·.interval)), (2, x.last.map fun _ => x.sinceReport), (2, full x.session),
    (2, x.restEnd.or x.equaliseEnd), (2, some x.grant), (2, some x.allowance), (2, some x.power),
    (2, (s.pendingList.find? fun y => y.bay = b).map (·.grant)), (1, x.confirmTimer), (1, some x.overdrawStreak),
    (1, some x.report.code), (2, full x.silence), (1, some x.stall.code), (1, some x.stallStreak), (1, x.probation),
    (1, some x.declarations), (1, x.holdEnd), (1, some x.heat)] ++
  (x.counters.toList.map fun c => (2, some c.value)) ++ [markField (x.counters.toList.map (·.saturated))]

/-- The profile entry's fields (R184). -/
def profileFields (pr : Profile) : List (Nat × Option Nat) :=
  [(1, some (if pr.valid then 1 else 0)), (1, some pr.family), (2, some pr.nominalVoltage), (2, some pr.rated),
    (2, some pr.maxCurrent), (2, some pr.minCurrent), (2, some pr.finishCurrent), (1, some pr.absorbPoint),
    (1, some pr.acceptance), (1, some pr.efficiency), (1, some pr.restMinutes), (1, some pr.equaliseInterval),
    (2, some pr.equaliseCurrent), (1, some pr.equaliseMinutes), (1, some pr.returnEstimate)] ++
  pr.breakpoints.toList.map signedField ++ pr.factors.toList.map fun f => (1, some f)

/-- The schedule entry's fields (R184): in the flags byte, bit 7 valid, bit 6 the renewal mark, bit 0 the repeat. -/
def entryFields (x : Entry) : List (Nat × Option Nat) :=
  [markField [x.weekly, false, false, false, false, false, x.renewal, x.valid], (1, some x.sweeper), (2, some x.minute),
    (1, some x.profile), (1, some x.required), (1, some x.status.code), (1, x.reserved.map (·.val))]

/-- The fields of READ_DEPARTURE's answer (R141, R184): after the entry, the window and the minutes, absent while the clock is UNSET or the
entry invalid. -/
def State.departureFields (s : State) (e : EntryId) : List (Nat × Option Nat) :=
  entryFields (s.entry e) ++
    match s.clock, s.windowOf e with
    | some c, some .due => [(1, some 0), (2, some (minutesFrom (s.entry e).minute c.minute).toNat)]
    | some c, some .active => [(1, some 1), (2, some (minutesFrom c.minute (s.entry e).minute).toNat)]
    | some c, some .outside => [(1, some 2), (2, some (minutesFrom c.minute (s.entry e).minute).toNat)]
    | _, _ => [(1, none), (2, none)]

/-- The number by which an answer at the port names a bay (R184): local at a cluster port, global elsewhere. Another cluster's bay has no
local number, and its byte is left open (notes/assumptions/34.md). -/
def State.names (s : State) (p : PortId) (b : BayId) (number : Nat) : Prop :=
  match (s.port p).role with
  | .cluster c => number ≤ 255 ∧ ∀ k, b = globalBay c k → number = k.val
  | _ => number = b.val

/-- The fields of READ_RECALL's answer (R162, R184), its bays under these numbers. -/
def State.recallFields (s : State) (c : ClusterId) (number : BayId → Nat) : List (Nat × Option Nat) :=
  (1, some (s.recall c).length) :: (s.recall c).flatMap fun r =>
    [(1, some (number r.bay)), (1, some r.slot.val), (4, some r.tag.toNat), (1, some r.sweeper.val), (2, some r.minute)]

/-- The fields of READ_SUPPLY's answer at the port (R98, R184), the zone's bays under these numbers. -/
def State.supplyFields (s : State) (p : PortId) (number : BayId → Nat) : List (Nat × Option Nat) :=
  let x := s.supply
  [(3, some x.limit), (2, some x.reserve), (1, some x.meterMode.code), (1, some x.condition.code), (2, x.age),
    (1, some x.readings.length)] ++
  (x.readings.map fun r => (3, some r)) ++ List.replicate (8 - x.readings.length) (3, none) ++
  [(3, some x.otherLoad), (3, some x.openBudget), (3, some s.budget), (3, some x.passFigure), (1, some x.hold.code),
    (1, match x.hold with
      | .windingDown => x.windDown
      | .ramping => x.elapsed
      | .running | .held => none),
    (1, some s.site.rampTime), (1, some (number x.zoneFirst)), (1, some (number x.zoneLast)),
    (1, some (if x.zoneOn then 1 else 0)), (3, some (s.port p).peak)]

/-! ### Laws that every step keeps -/

/-- A bay's grant lies at or below its allowance and is a multiple of 5, and its confirm timer runs exactly while its reduction
mark is set (R38, R119, R121). -/
def Bay.covered (x : Bay) : Prop :=
  x.grant ≤ x.allowance ∧ x.grant % 5 = 0 ∧ x.confirmTimer.isSome = x.reduction

/-- Every bay is covered, and every pending increase is a multiple of 5 (R38, R119). -/
def State.grantsCovered (s : State) : Prop := (∀ b, (s.bay b).covered) ∧ ∀ x ∈ s.pendingList, x.grant % 5 = 0

/-- A bay with a grant is in a charging stage, carries no inhibit and is not LOST (R38, R39, R67). -/
def Bay.earns (x : Bay) : Prop := 0 < x.grant → x.stage.charging = true ∧ x.inhibits = 0 ∧ x.report ≠ .lost

/-- Every grant is earned, and a pending increase stands only for an eligible bay (R38, R39, R40, R127). -/
def State.grantsEarned (s : State) : Prop :=
  (∀ b, (s.bay b).earns) ∧ ∀ x ∈ s.pendingList, (s.bay x.bay).eligible = true

/-- A counter lies in 0 to 65535 and carries its saturated mark exactly at 65535 (R80). -/
def CounterCell.whole (c : CounterCell) : Prop := c.value ≤ 65535 ∧ (c.saturated = true ↔ c.value = 65535)

/-- Every event counter and every image is whole, and the corrected-error counter lies in its range (R17, R80, R81). -/
def State.countersWhole (s : State) : Prop :=
  (∀ (b : BayId) (k : Fin 5), ((s.bay b).counters[k]).whole ∧ ((s.bay b).images[k]).whole) ∧ s.corrected ≤ 65535

/-- A valid entry passes its checks (R26). -/
def Profile.sane (pr : Profile) : Prop := pr.valid = true → pr.passes = true

/-- The law of charge for one record (R2): the estimate lies at or below 110 percent of the capacity, and the residue below one
charge unit. -/
def PackRecord.lawful (r : PackRecord) : Prop := r.estimate ≤ r.capacity * 110 / 100 ∧ r.residue ≤ 3599999

/-- Every profile entry is sane. -/
def State.profilesSane (s : State) : Prop := ∀ k, (s.profile k).sane

/-- Every record keeps the law of charge. -/
def State.recordsLawful (s : State) : Prop := ∀ i, (s.record i).lawful

/-- An OFF port holds no pending notice, no mask and an empty bay summary (R167, R168, R172). -/
def Port.silentWhenOff (x : Port) : Prop := x.role = .off → x.raised = 0 ∧ x.mask = 0 ∧ x.summary = 0

/-- The bytes a port holds are fewer than the entry that its stream is writing takes, and there are none where no entry is being
written (R179). -/
def Port.holdsPart (x : Port) : Prop :=
  match x.stream with
  | some (.profiles (some _) _) => x.held.length < 32
  | some (.schedule (some _) _) => x.held.length < 8
  | _ => x.held = []

/-- The site settings lie in their ranges (R181). -/
def Site.inRange (x : Site) : Prop :=
  (1 ≤ x.period ∧ x.period ≤ 30) ∧ (2 ≤ x.reportTimeout ∧ x.reportTimeout ≤ 60) ∧
    (10 ≤ x.lostTimeout ∧ x.lostTimeout ≤ 300) ∧ (1 ≤ x.confirmTimeout ∧ x.confirmTimeout ≤ 15) ∧
    (∀ k : Fin 4, x.shiftStarts[k] ≤ 1440) ∧ (60 ≤ x.horizon ∧ x.horizon ≤ 1440) ∧ x.grace ≤ 60 ∧ x.rampTime ≤ 120 ∧
    x.minimumIssue ≤ 100

/-- The Supply Monitor's figures lie in their ranges (R85, R86, R87). -/
def Supply.inRange (x : Supply) : Prop :=
  x.limit ≤ 250000 ∧ x.reserve ≤ 50000 ∧ x.readings.length ≤ 8 ∧ (∀ r ∈ x.readings, r ≤ 250000) ∧
    (x.condition = .empty ↔ x.readings = []) ∧ (x.age.isSome = true ↔ x.readings ≠ [])

/-- The depot clock, where it is set, and the minute that awaits its minute change name a minute of the week (R133). -/
def State.clockInRange (s : State) : Prop :=
  (∀ c, s.clock = some c → c.minute ≤ 10079 ∧ c.second ≤ 59) ∧ ∀ m, s.minuteDue = some m → m ≤ 10079

/-- The site settings, the supply and the clock lie in their ranges. -/
def State.settingsInRange (s : State) : Prop := s.site.inRange ∧ s.supply.inRange ∧ s.clockInRange

/-- The total allowance power stands within the budget figure (R129). -/
def State.withinBudget (s : State) : Prop := s.totalPower ≤ s.budget

end Sys2Proof.Machine
end

