-- ==== Sys2Proof/Certificates/Slice0/Obligations.lean ====
section
/-!
DEFINITION. The statements for the provers, each from the rules of spec/ that its docstring cites. A statement about an event names the
whole state that follows: every field that is not written out is the state's before, and every port is given by what the event
does to it.
-/

section
open Sys2Proof Sys2Proof.Machine

/-! ### The part as a machine -/

/-- One step takes the command at the front of the queue and runs it with the queue's rest; on an empty queue the part idles: the
model's choice (notes/assumptions/1.md and 9.md). -/
def Obligations.StepTakesFrontCommand : Prop :=
  (∀ (c : Instr) (rest : List Instr) (s : State), s.pending = c :: rest → step s = exec c { s with pending := rest }) ∧
    ∀ s : State, s.pending = [] → step s = .next s

/-- A term is answered by a next state exactly where it is a command or event of the part, and leaves the queue of waiting commands as
it is: the one other term, UNKNOWN_CODE with a code of the command table, is refused by name. The queue and the refusal are the
model's own (notes/assumptions/1.md and 19.md). -/
def Obligations.EveryCommandCompletes : Prop :=
  ∀ (c : Instr) (s : State),
    (c.wellFormed = true ↔ ∃ t, exec c s = .next t) ∧
      (c.wellFormed = false → exec c s = .refused (.illFormed "UNKNOWN_CODE")) ∧
      ∀ t, exec c s = .next t → t.pending = s.pending

/-! ### Transactions at a port -/

/-- R20, R174, R176, R177: which command a transaction's bytes are, and the checks before a command's own, in their order. The first byte is
the command code of 11.3 and the bytes after it the parameters, as many as the table asks (TABLE_WRITE's stream asks none). Each refusal changes the issuing port's transaction
registers and nothing else. A code outside the command table is refused with UNKNOWN whatever the role, and a transaction that ends
within its command byte leaves SHORT; either leaves STARTING while the part is not
running. That ports refuse so under RESET too is the model's choice (notes/assumptions/3.md). -/
def Obligations.PortChecksInOrder : Prop :=
  commandTable.map (fun row => row.code.toNat) =
    [0x01, 0x02, 0x03, 0x04, 0x05, 0x10, 0x11, 0x12, 0x13, 0x14, 0x15, 0x16, 0x17, 0x18, 0x19] ++
      [0x20, 0x21, 0x22, 0x23, 0x24, 0x25] ++ [0x30, 0x31, 0x32, 0x33, 0x34, 0x35, 0x36, 0x37, 0x38] ++
      [0x40, 0x41, 0x42, 0x43, 0x44, 0x50, 0x51, 0x52, 0x53, 0x54, 0x55, 0x5A] ∧
  commandTable.map (fun row => row.parameters) =
    [0, 0, 2, 3, 0, 5, 1, 0, 1, 0, 1, 0, 1, 0, 1] ++ [8, 5, 9, 3, 1, 0] ++ [3, 6, 3, 0, 0, 2, 0, 0, 20] ++
      [3, 0, 0, 6, 1, 2, 1, 1, 1, 1, 0, 0] ∧
  commandTable.map (fun row => row.cls) =
    List.replicate 15 .common ++ List.replicate 6 .cluster ++ List.replicate 21 .depot ∧
  (∀ code : Byte, knownCode code = true ↔ ∃ row ∈ commandTable, row.code = code) ∧
  [ResultCode.ok, .okPartial, .starting, .unknown, .short, .role, .scope, .range, .state, .full, .notFound, .conflict, .stale,
      .noneReady].map ResultCode.byte =
    [0x00, 0x01, 0x10, 0x20, 0x21, 0x22, 0x23, 0x24, 0x25, 0x26, 0x27, 0x28, 0x29, 0x2A] ∧
  (∀ (c : Instr) (p : PortId) (row : CommandRow) (params : List Byte),
    c.transaction = some (p, row, params) → commandOfBytes p (row.code :: params) = c) ∧
  (∀ (p : PortId) (params : List Byte),
    commandOfBytes p (0x01 :: params) = .identify p ∧ commandOfBytes p [] = .shortTransaction p ∧
      ∀ code : Byte, knownCode code = false → commandOfBytes p (code :: params) = .unknownCode p code) ∧
  (∀ (c : Instr) (p : PortId) (row : CommandRow) (params : List Byte) (s : State),
    c.transaction = some (p, row, params) →
      (s.phase ≠ .running → exec c s = .next (s.setPort p ((s.port p).ended .starting []))) ∧
      (s.phase = .running → (s.port p).role.mayIssue row.cls = false →
        exec c s = .next (s.setPort p ((s.port p).ended .role []))) ∧
      (s.phase = .running → (s.port p).role.mayIssue row.cls = true → params.length < row.parameters →
        exec c s = .next (s.setPort p ((s.port p).ended .short (List.replicate params.length 0xFF))))) ∧
  ∀ (p : PortId) (s : State),
    (∀ code : Byte, knownCode code = false →
      exec (.unknownCode p code) s =
        .next (s.setPort p ((s.port p).ended (if s.phase = .running then .unknown else .starting) []))) ∧
      exec (.shortTransaction p) s =
        .next (s.setPort p { s.port p with
          lastResult := if s.phase = .running then .short else .starting, stream := none, held := [], reading := none
          out := [] })

/-- R182: IDENTIFY is taken in every role and at every moment, answers who the port is, and changes nothing else. -/
def Obligations.IdentifyAnswersAlways : Prop :=
  ∀ (p : PortId) (s : State),
    exec (.identify p) s = .next (s.setPort p ((s.port p).answered 0 .ok
      [0x47, 0x16, 0xD2, 0x01, BitVec.ofNat 8 p.val,
        BitVec.ofNat 8 (match (s.port p).role with
          | .cluster c => c.val
          | .depot => 4
          | .observer => 5
          | .off => 6),
        BitVec.ofNat 8 (s.port p).strap.val,
        BitVec.ofNat 8 ((if (s.port p).conflict then 1 else 0) +
          (if s.phase = .scanAfterPowerOn ∨ s.phase = .scanAfterHardReset then 2 else 0))]))

/-! ### Notices -/

/-- R167, R169, R172: a notice raised for a bay, for a cluster or for the part is delivered to every port whose role and scope take it:
its kind becomes pending there, a bay joins the port's bay summary, and no other port changes. A FAULT notice raised as a clear
reaches only ports in scope whose option is BOTH. -/
def Obligations.NoticesReachTheirPorts : Prop :=
  ∀ (s : State) (k : NoticeKind) (q : PortId),
    (∀ b : BayId, k = .bay ∨ k = .grant ∨ k = .fault ∨ k = .counter →
      (s.notify k (.bay b)).port q =
        if (s.port q).role = .depot ∨ (s.port q).role = .observer ∨ (s.port q).role = .cluster (clusterOf b) then
          { s.port q with
            raised := (s.port q).raised ||| BitVec.twoPow 12 k.bit
            summary := (s.port q).summary ||| BitVec.twoPow 16 b }
        else s.port q) ∧
    (∀ c : ClusterId, k = .recall →
      (s.notify k (.cluster c)).port q =
        if (s.port q).role = .depot ∨ (s.port q).role = .observer ∨ (s.port q).role = .cluster c then
          { s.port q with raised := (s.port q).raised ||| BitVec.twoPow 12 k.bit }
        else s.port q) ∧
    ((s.notify k .part).port q =
      if (s.port q).role = .depot ∨ (s.port q).role = .observer ∨ (k = .supply ∧ (s.port q).role ≠ .off) then
        { s.port q with raised := (s.port q).raised ||| BitVec.twoPow 12 k.bit }
      else s.port q) ∧
    (∀ b : BayId, (s.notifyFaultClear b).port q =
      if (s.port q).edge = .both then ((s.notify .fault (.bay b)).port q) else s.port q) ∧
    ∀ w : Scope, (s.port q).deliver k w = (s.notify k w).port q ∧
      ((s.port q).role.takes k w = true ↔ (s.port q).role = .depot ∨ (s.port q).role = .observer ∨
        ∃ c, (s.port q).role = .cluster c ∧ (match w with
          | .bay b => clusterOf b = c
          | .cluster d => d = c
          | .part => k = .supply))

/-- R170: READ_NOTICES answers the pending set, the mask and the fault-edge option, and changes nothing; the attention line stays
as it was. -/
def Obligations.ReadNoticesChangesNothing : Prop :=
  ∀ (p : PortId) (s : State), s.accepts p rowReadNotices [] = true →
    ∃ t, exec (.readNotices p) s = .next t ∧
      t = s.setPort p ((s.port p).answered 0 .ok
        (be 2 (s.port p).raised.toNat ++ be 2 (s.port p).mask.toNat ++
          be 1 (if (s.port p).edge = .both then 1 else 0))) ∧
      ∀ q, t.attention q = s.attention q

/-- R171: ACK_NOTICES clears the named kinds from its own port's pending set, and the attention line follows; positions that name
no kind are ignored, and the bay summary stands. -/
def Obligations.AckNoticesClearsItsKinds : Prop :=
  ∀ (p : PortId) (params : List Byte) (s : State), s.accepts p rowAckNotices params = true →
    ∃ t, exec (.ackNotices p params) s = .next t ∧
      t = s.setPort p ((({ s.port p with
        raised := (s.port p).raised &&& ~~~ BitVec.ofNat 12 (u16At params 0) } : Port)).wrote params .ok) ∧
      (t.attention p = true ↔
        ∃ k : Fin 12, hasFlag (s.port p).raised k = true ∧ (u16At params 0).testBit k.val = false ∧
          hasFlag (s.port p).mask k = true) ∧
      ∀ q, q ≠ p → t.attention q = s.attention q

/-- R168, R172: SET_NOTICE_MASK writes its own port's mask and fault-edge option, an option above 1 being refused with RANGE.
READ_BAY_SUMMARY answers the summary, a cluster port's in local order, and empties it. -/
def Obligations.MaskAndSummary : Prop :=
  ∀ (p : PortId) (s : State),
    (∀ params : List Byte, s.accepts p rowSetNoticeMask params = true →
      exec (.setNoticeMask p params) s = .next (s.setPort p
        (if byteAt params 2 ≤ 1 then
          (({ s.port p with
            mask := BitVec.ofNat 12 (u16At params 0)
            edge := if byteAt params 2 = 0 then .declare else .both } : Port)).wrote params .ok
        else (s.port p).wrote params .range))) ∧
    (s.accepts p rowReadBaySummary [] = true →
      exec (.readBaySummary p) s = .next (s.setPort p
        ((({ s.port p with summary := 0 } : Port)).answered 0 .ok
          (match (s.port p).role with
          | .cluster c => be 2 (((s.port p).summary.toNat / 2 ^ (4 * c.val)) % 16)
          | _ => be 2 (s.port p).summary.toNat))))

/-! ### Plain reads -/

/-- R8, R41, R83, R131, R136, R141, R162: the reads that change nothing answer their figures as they stand. A bay, an entry or a
queue number out of range is refused with RANGE, and another cluster's recall queue with SCOPE. -/
def Obligations.ReadsChangeNothing : Prop :=
  (∀ (p : PortId) (s : State),
    (s.accepts p rowReadMarks [] = true → exec (.readMarks p) s =
      .next (s.setPort p ((s.port p).answered 0 .ok [(s.port p).marks]))) ∧
    (s.accepts p rowReadCounters [] = true → exec (.readCounters p) s =
      .next (s.setPort p ((s.port p).answered 0 .ok
        (be 2 s.latchNumber ++
          ((match (s.port p).role with
            | .cluster c => (List.finRange 4).map (globalBay c)
            | _ => List.finRange 16).flatMap fun b =>
              counterBytes (s.bay b).images ++ be 1 (saturatedByte (s.bay b).images)) ++
          be 2 s.corrected)))) ∧
    (s.accepts p rowReadClock [] = true → exec (.readClock p) s =
      .next (s.setPort p ((s.port p).answered 0 .ok
        ((match s.clock with
          | some c => be 1 1 ++ be 2 c.minute ++ be 1 c.second
          | none => [0x00, 0xFF, 0xFF, 0xFF]) ++ be 2 s.site.horizon ++ be 1 s.site.grace)))) ∧
    ∀ c : ClusterId, (s.port p).role = .cluster c → s.accepts p rowReadGrants [] = true → exec (.readGrants p) s =
      .next (s.setPort p ((s.port p).answered 0 .ok
        (((List.finRange 4).flatMap fun k =>
          be 2 (s.bay (globalBay c k)).grant ++ be 2 (s.bay (globalBay c k)).allowance ++
            be 2 (s.bay (globalBay c k)).power ++
            optionBe 2 ((s.pendingList.find? fun x => x.bay == globalBay c k).map (·.grant)) ++
            optionBe 1 (s.bay (globalBay c k)).confirmTimer) ++
          be 3 s.budget ++ be 1 (allBays.countP fun b => (s.bay b).reduction))))) ∧
  ∀ (p : PortId) (params : List Byte) (s : State),
    (s.accepts p rowReadBay params = true → exec (.readBay p params) s = .next (s.setPort p
      (match (match (s.port p).role, index 4 (byteAt params 0), index 16 (byteAt params 0) with
        | .cluster c, some k, _ => some (globalBay c k)
        | .cluster _, none, _ => none
        | _, _, b => b) with
      | some b => (s.port p).answered 1 .ok (s.bayBytes b)
      | none => (s.port p).answered 1 .range []))) ∧
    (s.accepts p rowReadDeparture params = true → exec (.readDeparture p params) s = .next (s.setPort p
      (match index 48 (byteAt params 0) with
      | some e => (s.port p).answered 1 .ok (s.departureBody e)
      | none => (s.port p).answered 1 .range []))) ∧
    (s.accepts p rowReadRecall params = true → exec (.readRecall p params) s = .next (s.setPort p
      (match index 4 (byteAt params 0) with
      | some c =>
        (match (s.port p).role with
        | .cluster d => if d = c then (s.port p).answered 1 .ok (s.recallBody p c) else (s.port p).answered 1 .scope []
        | _ => (s.port p).answered 1 .ok (s.recallBody p c))
      | none => (s.port p).answered 1 .range [])))

/-- R8, R97, R98, R184: READ_SUPPLY answers the figures as they stand, then sets its own port's peak to the effective other load. The zone's
first and last bay are sent as global numbers, and to a cluster port as local ones; what is sent there for a bay of another cluster is
left open (notes/assumptions/34.md). READ_GROUP on a sound roster answers the eight records of the group in slot order and clears its own port's mark for that group, no other. -/
def Obligations.ReadsThatChangeTheirPort : Prop :=
  (∀ (p : PortId) (s : State), s.accepts p rowReadSupply [] = true →
    exec (.readSupply p) s = .next (s.setPort p
      ((({ s.port p with peak := s.supply.otherLoad } : Port)).answered 0 .ok (s.supplyBody p))) ∧
    ∃ figures first last,
      s.supplyBody p = figures ++ [first, last] ++ be 1 (if s.supply.zoneOn then 1 else 0) ++ be 3 (s.port p).peak ∧
      (s.supply.readings.length ≤ 8 → figures.length = 49) ∧
      (∀ c k, (s.port p).role = .cluster c →
        (s.supply.zoneFirst = globalBay c k → first = BitVec.ofNat 8 k.val) ∧
        (s.supply.zoneLast = globalBay c k → last = BitVec.ofNat 8 k.val)) ∧
      ((∀ c, (s.port p).role ≠ .cluster c) →
        first = BitVec.ofNat 8 s.supply.zoneFirst.val ∧ last = BitVec.ofNat 8 s.supply.zoneLast.val)) ∧
  ∀ (p : PortId) (params : List Byte) (s : State), s.accepts p rowReadGroup params = true →
    (∀ g : GroupId, byteAt params 0 = g.val → s.sound →
      exec (.readGroup p params) s = .next (s.setPort p
        ((({ s.port p with marks := (s.port p).marks &&& ~~~ BitVec.twoPow 8 g } : Port)).answered 1 .ok
          ((List.finRange 8).flatMap fun k =>
            packBytes ⟨8 * g.val + k.val, by omega⟩ (s.record ⟨8 * g.val + k.val, by omega⟩))))) ∧
    (8 ≤ byteAt params 0 → exec (.readGroup p params) s = .next (s.setPort p ((s.port p).answered 1 .range [])))

/-- R6: the four views of READ_PACK on a sound roster. A lookup finds the record that holds the tag; nothing changes. -/
def Obligations.ReadPackFindsItsRecord : Prop :=
  ∀ (p : PortId) (params : List Byte) (s : State), s.accepts p rowReadPack params = true → s.sound →
    let answers (r : ResultCode) (body : List Byte) :=
      exec (.readPack p params) s = .next (s.setPort p ((s.port p).answered 5 r body))
    let key := u32At params 1
    (byteAt params 0 = 0 → ∀ i : SlotId, key = i.val → answers .ok (packBytes i (s.record i))) ∧
    (byteAt params 0 = 0 → 64 ≤ key → answers .range []) ∧
    (byteAt params 0 = 1 → ∀ i : SlotId, key ≠ 0 → (s.record i).tag = BitVec.ofNat 32 key → (s.record i).lifecycle ≠ .free →
      (∀ j, (s.record j).lifecycle ≠ .free → (s.record j).tag = (s.record i).tag → j = i) →
        answers .ok (packBytes i (s.record i))) ∧
    (byteAt params 0 = 1 → key ≠ 0 → (∀ i, (s.record i).lifecycle ≠ .free → (s.record i).tag ≠ BitVec.ofNat 32 key) →
      answers .notFound []) ∧
    (byteAt params 0 = 1 → key = 0 → answers .range []) ∧
    (∀ b : BayId, s.namedBay p key = some b ↔ match (s.port p).role with
      | .cluster c => ∃ k : Fin 4, key = k.val ∧ b = globalBay c k
      | _ => key = b.val) ∧
    (byteAt params 0 = 2 → s.namedBay p key = none → answers .range []) ∧
    (byteAt params 0 = 2 → ∀ b : BayId, s.namedBay p key = some b →
      match (s.bay b).slot with
      | some i => answers .ok (packBytes i (s.record i))
      | none => answers .notFound []) ∧
    (byteAt params 0 = 3 → ∀ w : SweeperId, key = w.val → w ≠ 0 →
      (∀ i, (s.record i).sweeper ≠ some w) → answers .notFound []) ∧
    (byteAt params 0 = 3 → ∀ (w : SweeperId) (i : SlotId), key = w.val → w ≠ 0 → (s.record i).lifecycle = .issued →
      (s.record i).sweeper = some w → (∀ j, (s.record j).sweeper = some w → j = i) →
        answers .ok (packBytes i (s.record i) ++ List.replicate 27 0xFF)) ∧
    (byteAt params 0 = 3 → key = 0 ∨ 64 ≤ key → answers .range []) ∧
    (4 ≤ byteAt params 0 → answers .range [])

/-- R153, R154, R155: READ_QUEUE on a sound roster answers the queue in its order and changes nothing. The order is by cycle count,
then by greater age, the minutes since the pack's ready-since, then by slot; while the clock is UNSET every age ties. -/
def Obligations.ReadQueueAnswersInOrder : Prop :=
  ∀ (p : PortId) (params : List Byte) (s : State), s.accepts p rowReadQueue params = true →
    (∀ k : ProfileId, byteAt params 0 = k.val → s.sound →
      exec (.readQueue p params) s = .next (s.setPort p ((s.port p).answered 1 .ok
        (be 1 (s.queueOrder k).length ++ (s.queueOrder k).flatMap fun i =>
          be 1 i.val ++ be 2 (s.record i).cycles ++ optionBe 2 (s.record i).readySince ++ be 1 (s.record i).percent ++
            optionBe 1 ((s.record i).reservation.map (·.val))))) ∧
      (∀ i, i ∈ s.queueOrder k ↔ hasFlag (s.queue k) i = true) ∧ (s.queueOrder k).Nodup ∧
      (s.queueOrder k).Pairwise fun i j =>
        (s.record i).cycles < (s.record j).cycles ∨ (s.record i).cycles = (s.record j).cycles ∧
          (s.readyAge j < s.readyAge i ∨ s.readyAge i = s.readyAge j ∧ i ≤ j)) ∧
    (∀ i, (s.record i).percent = (s.record i).estimate * 100 / (s.record i).capacity ∧
      (s.clock = none → s.readyAge i = 0) ∧
      ∀ c m, s.clock = some c → (s.record i).readySince = some m → s.readyAge i = minutesFrom m c.minute) ∧
    (8 ≤ byteAt params 0 → exec (.readQueue p params) s = .next (s.setPort p ((s.port p).answered 1 .range [])))

/-! ### Resets -/

/-- R176: the role that each port's straps fix at power-on and at hard reset, and the classes of commands a role may issue. Where ports
share a cluster the lowest-numbered takes it, and the others are OFF with their strap-conflict mark set. -/
def Obligations.StrapsFixRoles : Prop :=
  ((∀ k : CommandClass, Role.off.mayIssue k = false) ∧
    (∀ k : CommandClass, Role.observer.mayIssue k = true ↔ k = .common) ∧
    (∀ k : CommandClass, Role.depot.mayIssue k = true ↔ k ≠ .cluster) ∧
    ∀ (c : ClusterId) (k : CommandClass), (Role.cluster c).mayIssue k = true ↔ k ≠ .depot) ∧
  (∀ (c : ClusterId) (k : Fin 4), (globalBay c k).val = 4 * c.val + k.val ∧ clusterOf (globalBay c k) = c ∧
    localOf (globalBay c k) = k) ∧
  ∀ (straps : Straps) (s : State) (p : PortId),
    ∃ t u, exec (.powerOn straps) s = .next t ∧ exec (.hardReset straps) s = .next u ∧
      ∀ x : Port, x = t.port p ∨ x = u.port p →
        x.strap = straps[p] ∧
        ((straps[p]).val < 4 ∧ (∃ q, q < p ∧ straps[q] = straps[p]) → x.role = .off ∧ x.conflict = true) ∧
        (¬ ((straps[p]).val < 4 ∧ ∃ q, q < p ∧ straps[q] = straps[p]) → x.conflict = false ∧
          (∀ h : (straps[p]).val < 4, x.role = .cluster ⟨(straps[p]).val, h⟩) ∧
          ((straps[p]).val = 4 → x.role = .depot) ∧ ((straps[p]).val = 5 → x.role = .observer) ∧
          (5 < (straps[p]).val → x.role = .off))

/-- R20, R21, R36, R62, R84, R99, R117, R132, R152, R166, R173, R175, R178, R181: the values of the part after power-on. The roles are
StrapsFixRoles's. That the records and the two tables hold them at POWER_ON itself, though R20 and R36 let the scan set them, is the
model's reading (notes/assumptions/15.md); that no scrub visit is due is its choice (notes/assumptions/37.md). -/
def Obligations.PowerOnValues : Prop :=
  ∀ (straps : Straps) (s : State), ∃ t, exec (.powerOn straps) s = .next t ∧
    t.phase = .scanAfterPowerOn ∧ t.pending = s.pending ∧
    (∀ i, (t.record i).lifecycle = .free ∧ t.check i = .clean) ∧ t.seenCounter = 0 ∧ t.corrected = 0 ∧ t.scrub = 0 ∧
    t.scrubDue = false ∧
    (∀ k, t.profile k = {
      valid := false, family := 0, nominalVoltage := 0, rated := 0, maxCurrent := 0, minCurrent := 0, finishCurrent := 0
      absorbPoint := 0, acceptance := 0, efficiency := 0, restMinutes := 0, equaliseInterval := 0, equaliseCurrent := 0
      equaliseMinutes := 0, returnEstimate := 0, breakpoints := #v[0, 0, 0, 0, 0], factors := #v[0, 0, 0, 0, 0, 0] }) ∧
    (∀ b, (t.bay b).stage = .empty ∧ (t.bay b).inhibits = 0 ∧ (t.bay b).slot = none ∧ (t.bay b).last = none ∧
      (t.bay b).sensorLimit = false ∧ (t.bay b).restEnd = none ∧ (t.bay b).equaliseEnd = none ∧ (t.bay b).grant = 0 ∧
      (t.bay b).allowance = 0 ∧ (t.bay b).power = 0 ∧ (t.bay b).reduction = false ∧ (t.bay b).confirmTimer = none ∧
      (t.bay b).overdrawStreak = 0 ∧ (t.bay b).report = .normal ∧ (t.bay b).stall = .clear ∧
      (t.bay b).stallStreak = 0 ∧ (t.bay b).probation = none ∧ (t.bay b).declarations = 0 ∧ (t.bay b).holdEnd = none ∧
      (t.bay b).heat = 0 ∧ ∀ k : Fin 5, (t.bay b).counters[k] = ⟨0, false⟩ ∧ (t.bay b).images[k] = ⟨0, false⟩) ∧
    t.latchNumber = 0 ∧
    t.site = { period := 4, reportTimeout := 5, lostTimeout := 30, confirmTimeout := 3, criterion := .strict,
               latchMode := .manual, shiftStarts := #v[1440, 1440, 1440, 1440], horizon := 720, grace := 15,
               rampTime := 30, minimumIssue := 40 } ∧
    t.supply = { limit := 0, reserve := 0, meterMode := .metered, readings := [], condition := .empty, age := none,
                 hold := .held, windDown := none, elapsed := none, passFigure := 0, zoneFirst := 0, zoneLast := 15,
                 zoneOn := false } ∧
    t.periodTimer = none ∧ t.passMark = false ∧ t.pendingList = [] ∧ t.clock = none ∧ t.planMark = false ∧
    (∀ e, t.entry e = {
      valid := false, weekly := false, sweeper := 0, minute := 0, profile := 0, required := 0, status := .idle
      reserved := none, renewal := false }) ∧
    (∀ k, t.queue k = 0) ∧ (∀ c, t.recall c = []) ∧ (∀ w, t.drawOf w = none) ∧
    ∀ q, (t.port q).lastResult = .starting ∧ (t.port q).mask = 0 ∧ (t.port q).edge = .declare ∧
      (t.port q).summary = 0 ∧ (t.port q).marks = 0 ∧ (t.port q).peak = 0 ∧ (t.port q).window = none ∧
      (t.port q).stream = none ∧ (t.port q).held = [] ∧ (t.port q).reading = none ∧
      (t.port q).raised = (match (t.port q).role with
        | .depot => BitVec.twoPow 12 NoticeKind.clock.bit ||| BitVec.twoPow 12 NoticeKind.supply.bit
        | .off => 0
        | _ => BitVec.twoPow 12 NoticeKind.supply.bit)

/-- R20, R21, R36, R152, R173: HARD_RESET on a sound roster. The two tables stand, DOCKED, READY and CALLED records become STORED,
every other block takes its values after power-on, every change mark is set, and the part waits for the end of the reset. -/
def Obligations.HardResetValues : Prop :=
  ∀ (straps : Straps) (s t₀ : State), s.sound → exec (.powerOn straps) s = .next t₀ →
    ∃ t, exec (.hardReset straps) s = .next t ∧
      t = { t₀ with phase := .heldInReset, ports := t.ports, records := t.records, profiles := s.profiles,
                    entries := t.entries, seenCounter := s.seenCounter } ∧
      (∀ q, t.port q = { t₀.port q with marks := BitVec.allOnes 8 }) ∧
      (∀ i, t.record i = (match (s.record i).lifecycle with
        | .docked | .ready | .called => { s.record i with
            lifecycle := .stored, bay := none, sweeper := none, reservation := none, readySince := none }
        | .quarantined => { s.record i with bay := none }
        | _ => s.record i)) ∧
      ∀ e, t.entry e = { s.entry e with
        status := if (s.entry e).status = .finished then .finished else .idle, renewal := false, reserved := none }

/-- R20, R93, R99, R117: the scan begins at the end of a hard reset, and SCAN_COMPLETE after power-on ends it; neither is an event at any
other moment, the model's choice (notes/assumptions/4.md and 14.md). Commands are taken, the period timer starts, and the ramp begins, or the hold
state is RUNNING at once where the ramp time is 0; every port but an OFF one has its SUPPLY notice. -/
def Obligations.ScanCompleteStartsTheRamp : Prop :=
  (∀ s : State, exec .hardResetEnd s =
    .next (if s.phase = .heldInReset then { s with phase := .scanAfterHardReset } else s)) ∧
  (∀ s : State, s.phase = .running ∨ s.phase = .heldInReset → exec .scanComplete s = .next s) ∧
  ∀ s : State, s.phase = .scanAfterPowerOn → s.supply.passFigure = 0 →
    ∃ t, exec .scanComplete s = .next t ∧
      t = { s with
        phase := .running
        periodTimer := some s.site.period
        supply := { s.supply with
          hold := if s.site.rampTime = 0 then .running else .ramping
          windDown := none
          elapsed := if s.site.rampTime = 0 then none else some 0 }
        ports := t.ports } ∧
      ∀ q, t.port q = (s.port q).deliver .supply .part

/-- R2, R13, R18, R20, R36, R93, R99, R117, R152, R167: what SCAN_COMPLETE after a hard reset leaves of a sound roster and of the tables. Valid
entries that fail their checks become invalid, with a PROFILE notice. A record without a tag, and of two of one tag the one of the
smaller stamp, or of the higher slot on equal stamps, is rebuilt as DAMAGED; the others' charge is brought within the laws of R2. The
seen counter takes the greatest stamp; the ramp and the period timer start, with a SUPPLY notice. Where a record is rebuilt, no
block names a slot, as HardResetValues leaves them. That the scan is one event is the model's reading (notes/assumptions/14.md). -/
def Obligations.ScanAfterHardResetRestoresTheLaws : Prop :=
  ∀ s : State, s.phase = .scanAfterHardReset → s.sound →
    let present (i : SlotId) : Prop := (s.record i).lifecycle ≠ .free
    let rebuilt (i : SlotId) : Prop := present i ∧ (s.record i).reason ≠ some .damaged ∧ ((s.record i).tag = 0 ∨
      ∃ j, j ≠ i ∧ present j ∧ (s.record j).tag = (s.record i).tag ∧
        ((s.record i).seen < (s.record j).seen ∨ (s.record i).seen = (s.record j).seen ∧ j < i))
    let rejected : Prop := (∃ k, (s.profile k).valid = true ∧ (s.profile k).passes = false) ∨
      ∃ e, (s.entry e).valid = true ∧ (s.entry e).inRange = false
    (∀ i, ¬ rebuilt i) ∨
      ((∀ b, (s.bay b).slot = none) ∧ (∀ e, (s.entry e).reserved = none) ∧ ∀ c, s.recall c = []) →
    ∃ t, exec .scanComplete s = .next t ∧ t.phase = .running ∧ t.bays = s.bays ∧ t.pendingList = s.pendingList ∧
      t.periodTimer = some s.site.period ∧
      t.supply = { s.supply with
        hold := if s.site.rampTime = 0 then .running else .ramping
        windDown := none
        elapsed := if s.site.rampTime = 0 then none else some 0 } ∧
      (∀ k, t.profile k = { s.profile k with valid := (s.profile k).valid && (s.profile k).passes }) ∧
      (∀ e, t.entry e = if (s.entry e).valid = true ∧ (s.entry e).inRange = false then
        { s.entry e with valid := false, status := .idle } else s.entry e) ∧
      (∀ i, ¬ present i → t.record i = s.record i) ∧
      (∀ i, rebuilt i → t.planMark = true ∧ t.record i = { freeRecord with
        lifecycle := .quarantined, reason := some .damaged, capacity := (s.profile 0).rated, seen := (t.record i).seen } ∧
        ∀ q, hasFlag (t.port q).marks (groupOf i) = true ∧
          ((s.port q).role = .depot ∨ (s.port q).role = .observer →
            hasFlag (t.port q).raised NoticeKind.roster.bit = true)) ∧
      (∀ i, present i → ¬ rebuilt i → (t.record i).lawful ∧
        t.record i = { s.record i with
          capacity := (t.record i).capacity, estimate := (t.record i).estimate, residue := (t.record i).residue } ∧
        (t.record i).capacity = (if (t.profile (s.record i).profile).valid then
          min ((s.profile (s.record i).profile).rated * 11 / 10)
            (max ((s.profile (s.record i).profile).rated / 2) (s.record i).capacity)
          else (s.record i).capacity) ∧
        (t.record i).estimate = min ((t.record i).capacity * 110 / 100) (s.record i).estimate ∧
        (t.record i).residue = (if (t.record i).estimate < (s.record i).estimate ∨ 3599999 < (s.record i).residue then 0
          else (s.record i).residue)) ∧
      (∀ i, present i → (t.record i).seen ≤ t.seenCounter) ∧
      ((∀ i, ¬ present i) ∧ t.seenCounter = 0 ∨ ∃ i, present i ∧ t.seenCounter = (t.record i).seen) ∧
      ∀ q, PortMoves (s.port q) (t.port q) ∧
        ((s.port q).role ≠ .off → hasFlag (t.port q).raised NoticeKind.supply.bit = true) ∧
        (rejected → (s.port q).role = .depot ∨ (s.port q).role = .observer →
          hasFlag (t.port q).raised NoticeKind.profile.bit = true)

/-- R22, R63, R84, R99, R117, R132, R152, R166, R173, R183: SOFT_RESET on a sound roster. Every bay becomes EMPTY, a grant above 0 going to 0 as a
reduction that holds its allowance; the queues and the draws are emptied; the ramp begins anew; and SUPPLY alone is pending. -/
def Obligations.SoftResetValues : Prop :=
  ∀ (p : PortId) (s : State), s.accepts p rowSoftReset [] = true → s.sound →
    ∃ t, exec (.softReset p) s = .next t ∧
      t = { s with
        ports := t.ports, records := t.records, bays := t.bays, entries := t.entries
        supply := { s.supply with
          hold := if s.site.rampTime = 0 then .running else .ramping
          windDown := none
          elapsed := if s.site.rampTime = 0 then none else some 0
          passFigure := 0 }
        periodTimer := some s.site.period, passMark := false, planMark := false, pendingList := []
        readyQueues := Vector.replicate 8 0, recalls := Vector.replicate 4 [], draws := Vector.replicate 64 none } ∧
      (∀ b, t.bay b = { emptyBay with
        allowance := (s.bay b).allowance
        power := (s.bay b).power
        reduction := decide (0 < (s.bay b).grant) || (s.bay b).reduction
        confirmTimer := if 0 < (s.bay b).grant ∧ (s.bay b).reduction = false then some s.site.confirmTimeout
          else (s.bay b).confirmTimer
        counters := (s.bay b).counters
        images := (s.bay b).images }) ∧
      (∀ i, t.record i = (match (s.record i).lifecycle with
        | .docked | .ready | .called => { s.record i with
            lifecycle := .stored, bay := none, sweeper := none, reservation := none, readySince := none }
        | .quarantined => { s.record i with bay := none }
        | _ => s.record i)) ∧
      (∀ e, t.entry e = { s.entry e with
        status := if (s.entry e).status = .finished then .finished else .idle, renewal := false, reserved := none }) ∧
      ∀ q, (t.port q).window = none ∧ (t.port q).summary = 0 ∧ (t.port q).marks = BitVec.allOnes 8 ∧
        (t.port q).raised = (if (s.port q).role = .off then 0 else BitVec.twoPow 12 NoticeKind.supply.bit) ∧
        (t.port q).role = (s.port q).role ∧ (t.port q).conflict = (s.port q).conflict ∧
        (t.port q).mask = (s.port q).mask ∧ (t.port q).edge = (s.port q).edge ∧ (t.port q).peak = (s.port q).peak ∧
        (t.port q).lastResult = (if q = p then .ok else (s.port q).lastResult) ∧
        (t.port q).held = [] ∧
        (q ≠ p → (t.port q).stream = (s.port q).stream.map fun _ => .windowGone)

/-! ### Docking and undocking -/

/-- R2, R5, R9, R10, R11, R31, R42, R43, R44, R45: a DOCK of a new tag on a sound roster, in an EMPTY bay. The pack is listed into the lowest FREE
slot or, with none, into that of the STORED record with the smallest stamp, which is evicted with a ROSTER notice. With neither, the
bay is left UNLISTED with a ROSTER notice and no record is touched. The bay's stage, band and inhibits follow; no other record and no
other bay changes. The parameters are the tag, the profile, the gauge (255 for none) and the temperature. -/
def Obligations.DockListsANewPack : Prop :=
  ∀ (p : PortId) (params : List Byte) (s : State) (b : BayId) (d : Docking),
    s.accepts p rowDock params = true → s.sound → s.localBay p (byteAt params 0) = some b → (s.bay b).stage = .empty →
    dockingOf params = some d →
    (∀ j, (s.record j).lifecycle ≠ .free → (s.record j).tag ≠ d.tag) →
    (∀ a, (s.bay a).stage ≠ .empty → (s.bay a).tag ≠ d.tag) →
    let pr := s.profile d.profile
    (d.tag = BitVec.ofNat 32 (u32At params 1) ∧ d.tag ≠ 0 ∧ byteAt params 5 = d.profile.val ∧ d.temperature = s8At params 7 ∧
      d.gauge = (if byteAt params 6 = 255 then none else some (byteAt params 6)) ∧
      (byteAt params 6 ≤ 100 ∨ byteAt params 6 = 255)) ∧
    (s.supply.insideZone b = true ↔ if s.supply.zoneFirst ≤ s.supply.zoneLast then
      s.supply.zoneFirst ≤ b ∧ b ≤ s.supply.zoneLast else s.supply.zoneFirst ≤ b ∨ b ≤ s.supply.zoneLast) ∧
    let taken (t : State) (slot : Option SlotId) (absorbing : Bool) : Prop :=
      t = { s with
        records := t.records, bays := t.bays, ports := t.ports, passMark := true, planMark := true
        seenCounter := if s.seenCounter < 4294967295 then s.seenCounter + 1 else s.seenCounter } ∧
      (∀ a, a ≠ b → t.bay a = s.bay a) ∧
      (t.bay b).slot = slot ∧ (t.bay b).tag = d.tag ∧ (t.bay b).profile = d.profile ∧
      (t.bay b).dockTemperature = min 85 (max (-40) d.temperature) ∧
      ((t.bay b).sensorLimit = true ↔ d.temperature < -40 ∨ 85 < d.temperature) ∧
      (t.bay b).last = none ∧ (t.bay b).session = 0 ∧ (t.bay b).debounce = 0 ∧ (t.bay b).restEnd = none ∧
      (t.bay b).equaliseEnd = none ∧ (t.bay b).report = .normal ∧ (t.bay b).silence = 0 ∧ (t.bay b).stall = .clear ∧
      (t.bay b).declarations = 0 ∧ (t.bay b).overdrawStreak = 0 ∧
      (t.bay b).grant = (s.bay b).grant ∧ (t.bay b).allowance = (s.bay b).allowance ∧
      (t.bay b).reduction = (s.bay b).reduction ∧ (t.bay b).confirmTimer = (s.bay b).confirmTimer ∧
      (pr.valid = false → (t.bay b).band = 0 ∧ (t.bay b).stage = .bulk ∧ (t.bay b).counters = (s.bay b).counters) ∧
      (pr.valid = true →
        (t.bay b).band = pr.bandOf (t.bay b).dockTemperature ∧ pr.liesIn (t.bay b).dockTemperature (t.bay b).band ∧
        (t.bay b).stage = (if absorbing then .absorb else .bulk) ∧
        (t.bay b).heat = (if (t.bay b).band = 5 then 1 else 0)) ∧
      (∀ r : Inhibit, (t.bay b).carries r = true ↔
        r = .unlisted ∧ slot = none ∨
        r = .profile ∧ pr.valid = false ∨
        r = .temperature ∧ pr.valid = true ∧ pr.factors[(t.bay b).band] = 0 ∨
        r = .hold ∧ (s.supply.hold = .windingDown ∨ s.supply.hold = .held) ∨
        r = .restricted ∧ s.supply.zoneOn = true ∧ s.supply.insideZone b = false) ∧
      (∀ q, q ≠ p → PortMoves (s.port q) (t.port q)) ∧ (t.port p).lastResult = .ok ∧
      ∀ q, (s.port q).role.takes .bay (.bay b) = true →
        hasFlag (t.port q).raised NoticeKind.bay.bit = true ∧ hasFlag (t.port q).summary b = true
    let rosterNoticed (t : State) : Prop := ∀ q, (s.port q).role = .depot ∨ (s.port q).role = .observer →
      hasFlag (t.port q).raised NoticeKind.roster.bit = true
    (∀ i, ((s.record i).lifecycle = .free ∧ ∀ j, j < i → (s.record j).lifecycle ≠ .free) ∨
        ((∀ j, (s.record j).lifecycle ≠ .free) ∧ (s.record i).lifecycle = .stored ∧
          ∀ j, (s.record j).lifecycle = .stored → (s.record i).seen < (s.record j).seen ∨
            (s.record i).seen = (s.record j).seen ∧ i ≤ j) →
      ∃ t, exec (.dock p params) s = .next t ∧
        taken t (some i) (decide (pr.rated * pr.absorbPoint / 100 ≤ (t.record i).estimate)) ∧
        (∀ j, j ≠ i → t.record j = s.record j) ∧
        t.record i = { freeRecord with
          tag := d.tag, profile := d.profile, lifecycle := .docked, bay := some b, capacity := pr.rated
          estimate := (match d.gauge with
            | some g => pr.rated * g / 100
            | none => 0)
          seen := t.seenCounter } ∧
        (∀ q, hasFlag (t.port q).marks (groupOf i) = true) ∧
        ((s.record i).lifecycle = .stored → rosterNoticed t)) ∧
    ((∀ j, (s.record j).lifecycle ≠ .free ∧ (s.record j).lifecycle ≠ .stored) →
      ∃ t, exec (.dock p params) s = .next t ∧ taken t none false ∧ t.records = s.records ∧ rosterNoticed t)

/-- R5, R42, R43, R44, R45: a DOCK of a tag that a STORED, an ISSUED or a QUARANTINED record without a bay holds, on a sound roster. The record is
put under the bay; an ISSUED one counts a cycle and loses its sweeper; a QUARANTINED one stays so with its reason, and the bay gains
QUARANTINE; a reported profile other than its own is taken with its rated capacity, the estimate lowered to the bound. -/
def Obligations.DockFindsItsPack : Prop :=
  ∀ (p : PortId) (params : List Byte) (s : State) (b : BayId) (d : Docking) (i : SlotId),
    s.accepts p rowDock params = true → s.sound → s.localBay p (byteAt params 0) = some b → (s.bay b).stage = .empty →
    dockingOf params = some d → (s.record i).tag = d.tag →
    (s.record i).lifecycle = .stored ∨ (s.record i).lifecycle = .issued ∨
      (s.record i).lifecycle = .quarantined ∧ (s.record i).bay = none →
    (∀ j, j ≠ i → (s.record j).lifecycle ≠ .free → (s.record j).tag ≠ d.tag) →
    (∀ a, (s.bay a).stage ≠ .empty → (s.bay a).tag ≠ d.tag) →
    ∃ t, exec (.dock p params) s = .next t ∧
      (∀ j, j ≠ i → t.record j = s.record j) ∧ (∀ a, a ≠ b → t.bay a = s.bay a) ∧
      (t.bay b).slot = some i ∧ (t.bay b).tag = d.tag ∧ (t.bay b).stage ≠ .empty ∧
      ((t.bay b).carries .quarantine = true ↔ (s.record i).lifecycle = .quarantined) ∧
      (t.record i).tag = d.tag ∧ (t.record i).bay = some b ∧ (t.record i).reason = (s.record i).reason ∧
      (t.record i).lifecycle = (if (s.record i).lifecycle = .quarantined then .quarantined else .docked) ∧
      (t.record i).profile = d.profile ∧ (t.record i).seen = t.seenCounter ∧
      t.seenCounter = (if s.seenCounter < 4294967295 then s.seenCounter + 1 else s.seenCounter) ∧
      ((s.record i).lifecycle = .issued → (t.record i).sweeper = none ∧
        (t.record i).cycles = (if (s.record i).cycles < 65535 then (s.record i).cycles + 1 else (s.record i).cycles)) ∧
      ((s.record i).lifecycle ≠ .issued →
        (t.record i).sweeper = (s.record i).sweeper ∧ (t.record i).cycles = (s.record i).cycles) ∧
      (t.record i).capacity = (if (s.record i).profile = d.profile then (s.record i).capacity
        else (s.profile d.profile).rated) ∧
      (∀ g, d.gauge = some g → (t.record i).estimate = (t.record i).capacity * g / 100 ∧ (t.record i).residue = 0) ∧
      (d.gauge = none → (s.record i).lifecycle = .issued → (s.profile d.profile).valid = true →
        (t.record i).estimate = (t.record i).capacity * (s.profile d.profile).returnEstimate / 100 ∧
          (t.record i).residue = 0) ∧
      (d.gauge = none → (s.record i).lifecycle ≠ .issued ∨ (s.profile d.profile).valid = false →
        ((s.record i).profile = d.profile →
          (t.record i).estimate = (s.record i).estimate ∧ (t.record i).residue = (s.record i).residue) ∧
        ((s.record i).profile ≠ d.profile →
          (t.record i).estimate = min ((t.record i).capacity * 110 / 100) (s.record i).estimate ∧
          (t.record i).residue = (if (t.record i).estimate < (s.record i).estimate then 0 else (s.record i).residue))) ∧
      t.passMark = true ∧ t.planMark = true ∧ (t.port p).lastResult = .ok

/-- R4, R42, R47, R177: a cluster command refused by its own checks. A local bay above 3 is refused with RANGE by all five; DOCK and
UNDOCK have checks of STATE, RANGE and CONFLICT besides. Each refusal changes the issuing port's transaction registers alone, but
for DOCK's CONFLICT, of a tag that stands in a bay or in the copy of an UNLISTED bay or of one with a DAMAGED record, which also
raises a ROSTER notice. -/
def Obligations.ClusterCommandRefusals : Prop :=
  ∀ (p : PortId) (params : List Byte) (s : State),
    (∀ (c : Instr) (row : CommandRow), c.transaction = some (p, row, params) →
      row ∈ [rowDock, rowUndock, rowReport, rowGrantAck, rowClearFault] → s.accepts p row params = true →
      4 ≤ byteAt params 0 → exec c s = .next (s.setPort p ((s.port p).wrote params .range))) ∧
    (∀ (n : Nat) (b : BayId), s.localBay p n = some b ↔
      ∃ (c : ClusterId) (k : Fin 4), (s.port p).role = .cluster c ∧ n = k.val ∧ b = globalBay c k) ∧
    ∀ b, s.localBay p (byteAt params 0) = some b →
      (s.accepts p rowDock params = true →
        ((s.bay b).stage ≠ .empty → exec (.dock p params) s = .next (s.setPort p ((s.port p).wrote params .state))) ∧
        ((s.bay b).stage = .empty →
          (tagAt params 1 = 0 ∨ 8 ≤ byteAt params 5 ∨ 100 < byteAt params 6 ∧ byteAt params 6 < 255 →
            exec (.dock p params) s = .next (s.setPort p ((s.port p).wrote params .range))) ∧
          ∀ d, dockingOf params = some d → s.sound →
            ((∃ i, (s.record i).tag = d.tag ∧
                ((s.record i).lifecycle = .docked ∨ (s.record i).lifecycle = .ready ∨ (s.record i).lifecycle = .called ∨
                  (s.record i).lifecycle = .quarantined ∧ (s.record i).bay ≠ none) ∧
                ∀ j, j ≠ i → (s.record j).lifecycle ≠ .free → (s.record j).tag ≠ d.tag) ∨
              ∃ a, (s.bay a).stage ≠ .empty ∧ (s.bay a).tag = d.tag ∧
                ((s.bay a).slot = none ∧ (s.bay a).carries .unlisted = true ∨
                  ∃ i, (s.bay a).slot = some i ∧ (s.record i).lifecycle = .quarantined ∧
                    (s.record i).reason = some .damaged)) →
            ∃ t, exec (.dock p params) s = .next t ∧ t = { s with ports := t.ports } ∧
              ∀ q, t.port q = atPorts (·.deliver .roster .part) p (·.wrote params .conflict) q (s.port q))) ∧
      (s.accepts p rowUndock params = true →
        ((s.bay b).stage = .empty → exec (.undock p params) s = .next (s.setPort p ((s.port p).wrote params .state))) ∧
        ((s.bay b).stage ≠ .empty → tagAt params 1 = 0 →
          exec (.undock p params) s = .next (s.setPort p ((s.port p).wrote params .range))) ∧
        ((s.bay b).stage ≠ .empty → tagAt params 1 ≠ 0 → tagAt params 1 ≠ (s.bay b).tag → s.sound →
          exec (.undock p params) s = .next (s.setPort p ((s.port p).wrote params .conflict))))

/-- R5, R47, R48, R49, R150: UNDOCK of a DOCKED, READY or QUARANTINED pack, or of an UNLISTED bay without a record, on a sound roster. The record
leaves the bay, a reservation of a DOCKED or READY one is cleared on both sides, the bay returns to EMPTY, and its grant goes to 0
as a reduction with the allowance held. -/
def Obligations.UndockStoresThePack : Prop :=
  ∀ (p : PortId) (params : List Byte) (s : State) (b : BayId),
    s.accepts p rowUndock params = true → s.sound → s.localBay p (byteAt params 0) = some b →
    (s.bay b).stage ≠ .empty → tagAt params 1 ≠ 0 → tagAt params 1 = (s.bay b).tag →
    let undocked (t : State) : Prop :=
      t = { s with
        records := t.records, bays := t.bays, ports := t.ports, readyQueues := t.readyQueues, entries := t.entries
        passMark := true, planMark := true
        pendingList := s.pendingList.filter fun x => x.bay != b
        seenCounter := if s.seenCounter < 4294967295 then s.seenCounter + 1 else s.seenCounter } ∧
      (∀ a, a ≠ b → t.bay a = s.bay a) ∧
      t.bay b = { emptyBay with
        allowance := (s.bay b).allowance
        power := (s.bay b).power
        reduction := decide (0 < (s.bay b).grant) || (s.bay b).reduction
        confirmTimer := if 0 < (s.bay b).grant ∧ (s.bay b).reduction = false then some s.site.confirmTimeout
          else (s.bay b).confirmTimer
        counters := (s.bay b).counters
        images := (s.bay b).images } ∧
      (∀ q, q ≠ p → PortMoves (s.port q) (t.port q)) ∧ (t.port p).lastResult = .ok ∧
      ∀ q, (s.port q).role.takes .bay (.bay b) = true →
        hasFlag (t.port q).raised NoticeKind.bay.bit = true ∧ hasFlag (t.port q).summary b = true
    (∀ i, (s.bay b).slot = some i →
      (s.record i).lifecycle = .docked ∨ (s.record i).lifecycle = .ready ∨ (s.record i).lifecycle = .quarantined →
      let stays : Prop := (s.record i).lifecycle = .quarantined
      ∃ t, exec (.undock p params) s = .next t ∧ undocked t ∧
        (∀ j, j ≠ i → t.record j = s.record j) ∧
        (stays → t.record i = { s.record i with bay := none, seen := t.seenCounter } ∧ t.entries = s.entries ∧
          t.readyQueues = s.readyQueues) ∧
        (¬ stays → t.record i = { s.record i with
            lifecycle := .stored, bay := none, reservation := none, readySince := none, seen := t.seenCounter } ∧
          (∀ e, t.entry e = if (s.record i).reservation = some e then { s.entry e with reserved := none }
            else s.entry e) ∧
          ∀ k j, hasFlag (t.queue k) j = (hasFlag (s.queue k) j && decide (j ≠ i)))) ∧
    ((s.bay b).slot = none → ∃ t, exec (.undock p params) s = .next t ∧ undocked t ∧ t.records = s.records ∧
      t.entries = s.entries ∧ t.readyQueues = s.readyQueues)

/-- R5, R48, R49, R161, R163: UNDOCK of a CALLED pack issues it to its sweeper, on a sound roster. Another pack ISSUED to that sweeper is
unaccounted: it becomes STORED, with a ROSTER notice. The draw ends, its entry becomes SERVED, and the recall leaves its queue. -/
def Obligations.UndockIssuesTheCalledPack : Prop :=
  ∀ (p : PortId) (params : List Byte) (s : State) (b : BayId) (i : SlotId) (w : SweeperId),
    s.accepts p rowUndock params = true → s.sound → s.localBay p (byteAt params 0) = some b →
    (s.bay b).stage ≠ .empty → tagAt params 1 ≠ 0 → tagAt params 1 = (s.bay b).tag → (s.bay b).slot = some i →
    (s.record i).lifecycle = .called → (s.record i).sweeper = some w →
    (∀ v, (s.drawOf v).map (·.slot) = some i ↔ v = w) →
    let unaccounted (j : SlotId) : Prop := j ≠ i ∧ (s.record j).lifecycle = .issued ∧ (s.record j).sweeper = some w
    ∃ t, exec (.undock p params) s = .next t ∧
      (∀ j, j ≠ i → ¬ unaccounted j → t.record j = s.record j) ∧ (∀ a, a ≠ b → t.bay a = s.bay a) ∧
      (∀ j, unaccounted j → t.record j = { s.record j with lifecycle := .stored, sweeper := none } ∧
        ∀ q, (s.port q).role = .depot ∨ (s.port q).role = .observer →
          hasFlag (t.port q).raised NoticeKind.roster.bit = true) ∧
      t.record i = { s.record i with lifecycle := .issued, bay := none, seen := t.seenCounter } ∧
      (t.bay b).stage = .empty ∧ (t.bay b).slot = none ∧ (t.bay b).inhibits = 0 ∧ (t.bay b).grant = 0 ∧
      (t.bay b).allowance = (s.bay b).allowance ∧
      (∀ v, t.drawOf v = if v = w then none else s.drawOf v) ∧
      (∀ c, t.recall c = (s.recall c).filter fun r => r.slot != i) ∧
      (∀ e, t.entry e = if ((s.drawOf w).bind (·.entry)) = some e ∧ (s.entry e).status = .called then
        { s.entry e with status := .served } else s.entry e) ∧
      t.passMark = true ∧ t.planMark = true ∧
      (∀ q, q ≠ p → PortMoves (s.port q) (t.port q)) ∧ (t.port p).lastResult = .ok ∧
      ∀ q, (s.port q).role = .depot ∨ (s.port q).role = .observer →
        hasFlag (t.port q).raised NoticeKind.draw.bit = true

/-! ### Reports, acknowledgements and faults -/

/-- R53, R123, R129, R130: a REPORT for an EMPTY bay. A current within the tolerance confirms, and where that leaves no reduction unresolved the
pending list is released; one above it counts toward overdraw, and the second such report raises the allowance. Nothing is recorded or
credited. -/
def Obligations.ReportForEmptyBay : Prop :=
  ∀ (p : PortId) (params : List Byte) (s : State) (b : BayId),
    s.accepts p rowReport params = true → s.localBay p (byteAt params 0) = some b → (s.bay b).stage = .empty →
    let x := s.bay b
    let current := (min 2500 (max 0 (s16At params 1))).toNat
    let tolerance := max 10 ((x.grant * 5 + 99) / 100)
    let rounded := (current + 4) / 5 * 5
    let resolves := current ≤ x.grant + tolerance ∧ x.reduction = true ∧ ∀ a, a ≠ b → (s.bay a).reduction = false
    (resolves →
      ∃ t, exec (.report p params) s = .next t ∧ t = { s with bays := t.bays, ports := t.ports, pendingList := [] } ∧
        ReleaseWalk s.pendingList (s.setBay b { x with
          allowance := x.grant, power := (x.grant * 9999 + 699) / 700, reduction := false, confirmTimer := none
          overdrawStreak := 0 }) t ∧
        s.grantsNoticed t ∧
        ∀ q, PortMoves (if q = p then (s.port p).wrote params .ok else s.port q) (t.port q)) ∧
    (s.pendingList = [] ∨ ¬ resolves →
    ∃ t, exec (.report p params) s = .next t ∧ t = { s with bays := t.bays, ports := t.ports } ∧
      (∀ a, a ≠ b → t.bay a = s.bay a) ∧
      (current ≤ x.grant + tolerance → x.reduction = true ∨ x.grant < x.allowance →
        t.bay b = { x with
          allowance := x.grant, power := (x.grant * 9999 + 699) / 700, reduction := false
          confirmTimer := if x.reduction then none else x.confirmTimer, overdrawStreak := 0 } ∧
        ∀ q, q ≠ p → t.port q = s.port q) ∧
      (current ≤ x.grant + tolerance → x.reduction = false → x.allowance ≤ x.grant →
        t.bay b = { x with overdrawStreak := 0 } ∧ ∀ q, q ≠ p → t.port q = s.port q) ∧
      (x.grant + tolerance < current → x.overdrawStreak = 0 →
        t.bay b = { x with overdrawStreak := 1 } ∧ ∀ q, q ≠ p → t.port q = s.port q) ∧
      (x.grant + tolerance < current → 1 ≤ x.overdrawStreak →
        t.bay b = { x with
          allowance := max x.allowance rounded
          power := if x.allowance < rounded then (rounded * 9999 + 699) / 700 else x.power
          overdrawStreak := 0, counters := (t.bay b).counters } ∧
        (t.bay b).counters[EventCounter.overdraw.place] = (x.counters[EventCounter.overdraw.place]).counted ∧
        (∀ k : Fin 5, k ≠ EventCounter.overdraw.place → (t.bay b).counters[k] = x.counters[k]) ∧
        (x.allowance < rounded → ∀ q, (s.port q).role.takes .grant (.bay b) = true →
          hasFlag (t.port q).raised NoticeKind.grant.bit = true)) ∧
      (t.port p).lastResult = .ok)

/-- R51, R52, R53, R68, R69, R70, R123, R129, R130: a REPORT for a bay that is not EMPTY, on a sound roster: the seven steps of R51 in their order, on the report with its
values clamped. It is recorded and ends the silence; its current confirms or counts toward overdraw; then charge, band and stage, which
CreditConservesCharge, BandTakesThreeReports and StageMovesAtAReport state; and last the charger-fault mark before the probation and the
stall of StallsAreDeclaredAndCleared, an order the model chose (notes/assumptions/33.md). Where the band stays where it is, the report is recorded, the silence ends, and no other slot's record changes. -/
def Obligations.ReportIsRecorded : Prop :=
  ∀ (p : PortId) (params : List Byte) (s : State) (b : BayId),
    s.accepts p rowReport params = true → s.localBay p (byteAt params 0) = some b → (s.bay b).stage ≠ .empty → s.sound →
    let temperature := min 85 (max (-40) (s8At params 5))
    let l : LastReport := {
      current := (min 2500 (max 0 (s16At params 1))).toNat, voltage := min 9999 (u16At params 3)
      temperature := temperature, interval := u16At params 6
      terminated := (params.getD 8 0).getLsbD 0, chargerFault := (params.getD 8 0).getLsbD 1 }
    let recorded := s.recordReport b l (decide (s8At params 5 < -40 ∨ 85 < s8At params 5))
    let returned := recorded.returnToNormal b
    let credited := (returned.compareCurrent b l.current).creditCharge b l.current l.interval
    let moved := (credited.trackBand b temperature).moveStage b l (decide ((s.bay b).inhibits = 0))
    let u := moved.supervise b l
    exec (.report p params) s = .next (u.setPort p ((u.port p).wrote params .ok)) ∧
    ((s.bay b).report = .normal → returned = recorded) ∧
    ((s.bay b).report ≠ .normal → returned = { recorded with
        bays := returned.bays, ports := returned.ports, passMark := s.passMark || (returned.bay b).eligible } ∧
      (∀ a, returned.bay a = if a = b then { recorded.bay b with report := .normal } else recorded.bay a) ∧
      ∀ q, returned.port q = (recorded.port q).deliver .bay (.bay b)) ∧
    returned.comparedTo b l.current (returned.compareCurrent b l.current) ∧
    (let faulted := if l.chargerFault then moved.addFault b else moved
     u = (faulted.judgeProbation b l.current).judgeStall b l.current ∧
      (l.chargerFault = true → (∀ a, faulted.bay a = if a = b then { moved.bay b with
          inhibits := (moved.bay b).inhibits ||| BitVec.twoPow 9 Inhibit.fault.bit, grant := 0
          reduction := decide (0 < (moved.bay b).grant) || (moved.bay b).reduction
          confirmTimer := if 0 < (moved.bay b).grant ∧ (moved.bay b).reduction = false then some moved.site.confirmTimeout
            else (moved.bay b).confirmTimer } else moved.bay a) ∧
        ∀ q, (moved.port q).role.takes .fault (.bay b) = true →
          hasFlag (faulted.port q).raised NoticeKind.fault.bit = true)) ∧
    recorded = { s with bays := recorded.bays, ports := recorded.ports } ∧ (∀ a, a ≠ b → recorded.bay a = s.bay a) ∧
    recorded.bay b = { s.bay b with
      last := some l, sinceReport := 0, silence := 0
      sensorLimit := decide (s8At params 5 < -40 ∨ 85 < s8At params 5) } ∧
    ((s.profile (s.bay b).profile).candidateBand (s.bay b).band temperature = (s.bay b).band →
      (∀ x ∈ s.pendingList, (s.bay x.bay).grant ≤ x.grant) →
      let t := u.setPort p ((u.port p).wrote params .ok)
      (t.bay b).last = some l ∧ (t.bay b).sinceReport = 0 ∧ (t.bay b).silence = 0 ∧ (t.bay b).report = .normal ∧
      (t.bay b).band = (s.bay b).band ∧ (t.bay b).tag = (s.bay b).tag ∧ (t.bay b).slot = (s.bay b).slot ∧
      ((t.bay b).sensorLimit = true ↔ s8At params 5 < -40 ∨ 85 < s8At params 5) ∧
      (l.chargerFault = true → (t.bay b).carries .fault = true ∧ (t.bay b).grant = 0) ∧
      (∀ j, (s.bay b).slot ≠ some j → t.record j = s.record j) ∧
      (∀ a, a ≠ b → (t.bay a).stage = (s.bay a).stage ∧ (t.bay a).inhibits = (s.bay a).inhibits ∧
        (t.bay a).last = (s.bay a).last ∧ (s.bay a).grant ≤ (t.bay a).grant) ∧
      t.profiles = s.profiles ∧ t.supply = s.supply ∧ t.clock = s.clock ∧ t.site = s.site ∧
      (t.port p).lastResult = .ok)

/-- R52: what a report credits. The estimate and the residue together grow by exactly the credited amount of 0.1 A·ms, unless that would
carry the estimate above its bound, in which case it is the bound with no residue. The docked record of the bay is credited at the
acceptance of the bay's profile, and the session charge counts the whole units; a bay without a record credits nothing. -/
def Obligations.CreditConservesCharge : Prop :=
  (∀ (s : State) (b : BayId) (current interval : Nat),
    ((s.bay b).slot = none → s.creditCharge b current interval = s) ∧
    ∀ i, (s.bay b).slot = some i →
      let c := current * min 10000 (max 1 interval) * min (s.profile (s.bay b).profile).acceptance 100 / 100
      let t := s.creditCharge b current interval
      t.record i = (s.record i).credited c ∧ (∀ j, j ≠ i → t.record j = s.record j) ∧ (∀ a, a ≠ b → t.bay a = s.bay a) ∧
        t.bay b = { s.bay b with
          session := min 65535 ((s.bay b).session + ((s.record i).residue + c) / 3600000) } ∧ t.ports = s.ports) ∧
  ∀ (r : PackRecord) (current interval acceptance : Nat), r.residue ≤ 3599999 → r.capacity * 110 / 100 ≤ 65535 →
    let c := current * min 10000 (max 1 interval) * min acceptance 100 / 100
    let u := r.credited (creditOf current interval acceptance)
    (r.estimate + (r.residue + c) / 3600000 ≤ r.capacity * 110 / 100 →
      u.estimate * 3600000 + u.residue = r.estimate * 3600000 + r.residue + c ∧ u.residue ≤ 3599999) ∧
    (r.capacity * 110 / 100 < r.estimate + (r.residue + c) / 3600000 →
      u.estimate = r.capacity * 110 / 100 ∧ u.residue = 0) ∧
    u = { r with estimate := u.estimate, residue := u.residue }

/-- R13, R28, R30, R54, R55, R77, R79: the band tracked at a report. The candidate is the band that the temperature lies in by the breakpoints,
or the band in force where that is the higher and the temperature stands above 2 degrees below its lower breakpoint: the cooling margin. A
candidate other than the band in force is taken at the third report in a row that
gives it; TEMPERATURE then follows the new band's factor; entering band 5 counts an OVERTEMP and a heat entry. The third heat entry
reaches the heat limit: on a sound roster the pack under the bay is QUARANTINED for HEAT unless it is so already, and a bay without
a record gains FAULT. A bay under PROFILE holds its band and its count. -/
def Obligations.BandTakesThreeReports : Prop :=
  ∀ (s : State) (b : BayId) (temperature : Int),
    let x := s.bay b
    let pr := s.profile x.profile
    let k := pr.candidateBand x.band temperature
    let t := s.trackBand b temperature
    let limit : Prop := k = 5 ∧ 2 ≤ x.heat
    pr.liesIn temperature (pr.bandOf temperature) ∧ pr.candidateIs x.band temperature k ∧
    (x.carries .profile = true → t = s) ∧
    (x.carries .profile = false → k = x.band ∨ x.debounce < 2 →
      t.bay b = { x with debounce := if k = x.band then 0 else x.debounce + 1 } ∧ (∀ a, a ≠ b → t.bay a = s.bay a) ∧
        t.records = s.records ∧ t.ports = s.ports) ∧
    (x.carries .profile = false → k ≠ x.band → 2 ≤ x.debounce →
      (t.bay b).band = k ∧ (t.bay b).debounce = 0 ∧ (t.bay b).stage = x.stage ∧ (t.bay b).slot = x.slot ∧
      ((t.bay b).carries .temperature = true ↔ pr.factors[k] = 0) ∧ (t.bay b).allowance = x.allowance ∧
      (t.bay b).heat = (if k = 5 then min 3 (x.heat + 1) else x.heat) ∧
      (t.bay b).counters[EventCounter.overtemp.place] = (if k = 5 then
        (x.counters[EventCounter.overtemp.place]).counted else x.counters[EventCounter.overtemp.place]) ∧
      (∀ q, (s.port q).role.takes .bay (.bay b) = true → hasFlag (t.port q).raised NoticeKind.bay.bit = true) ∧
      (¬ limit → (t.bay b).grant = (if pr.factors[k] = 0 then 0 else x.grant) ∧ (∀ a, a ≠ b → t.bay a = s.bay a) ∧
        t.records = s.records) ∧
      (limit → x.slot = none → (t.bay b).carries .fault = true ∧ (t.bay b).grant = 0 ∧ (∀ a, a ≠ b → t.bay a = s.bay a) ∧
        t.records = s.records ∧
        ∀ q, (s.port q).role.takes .fault (.bay b) = true → hasFlag (t.port q).raised NoticeKind.fault.bit = true) ∧
      ∀ i, limit → x.slot = some i → s.sound → (s.record i).bay = some b →
        (∀ a, a ≠ b → t.bay a = s.bay a) ∧ (∀ j, j ≠ i → t.record j = s.record j) ∧
        ((s.record i).lifecycle = .quarantined →
          t.record i = s.record i ∧ (t.bay b).grant = (if pr.factors[k] = 0 then 0 else x.grant)) ∧
        ((s.record i).lifecycle ≠ .quarantined →
          t.record i = { s.record i with
            lifecycle := .quarantined, sweeper := none, reservation := none, readySince := none, reason := some .heat } ∧
          (t.bay b).carries .quarantine = true ∧ (t.bay b).carries .called = false ∧ (t.bay b).grant = 0 ∧
          t.planMark = true ∧
          ∀ q, (s.port q).role = .depot ∨ (s.port q).role = .observer →
            hasFlag (t.port q).raised NoticeKind.roster.bit = true))

/-- R56, R57, R58, R60, R61: the stage moved at a report of a docked pack. BULK gives way to ABSORB at the absorb point; ABSORB ends at a
terminating report at or below the finish current, taken without inhibits, or at 105 percent of the capacity; the completed charge
learns the capacity, counts toward an equalise, and leads to EQUALISE, RESTING or DONE. -/
def Obligations.StageMovesAtAReport : Prop :=
  ∀ (s : State) (b : BayId) (i : SlotId) (l : LastReport) (uninhibited : Bool),
    (s.bay b).slot = some i →
    let x := s.bay b
    let pr := s.profile x.profile
    let r := s.record i
    let t := s.moveStage b l uninhibited
    let reached := x.stage = .bulk ∧ r.capacity * pr.absorbPoint / 100 ≤ r.estimate
    let ends := (reached ∨ x.stage = .absorb) ∧
      (l.terminated = true ∧ l.current ≤ pr.finishCurrent ∧ uninhibited = true ∨ r.capacity * 105 / 100 ≤ r.estimate)
    let count := if r.sinceEqualise < 255 then r.sinceEqualise + 1 else r.sinceEqualise
    let due := pr.family = 0 ∧ 0 < pr.equaliseInterval ∧ pr.equaliseInterval ≤ count
    let learned :=
      if r.capacity * 60 ≤ x.session * 100 then
        clampNat (pr.rated / 2) (pr.rated * 11 / 10) ((3 * r.capacity + r.estimate + 2) / 4)
      else r.capacity
    let charged : PackRecord := { r with capacity := learned, estimate := learned, residue := 0, sinceEqualise := count }
    let lowered : Bay := { x with
      grant := 0, reduction := decide (0 < x.grant) || x.reduction
      confirmTimer := if 0 < x.grant ∧ x.reduction = false then some s.site.confirmTimeout else x.confirmTimer }
    (x.carries .profile = true → t = s) ∧
    (x.carries .profile = false →
      (∀ a, a ≠ b → t.bay a = s.bay a) ∧ (∀ j, j ≠ i → t.record j = s.record j) ∧
      (¬ reached → ¬ ends → t = s) ∧
      (reached → ¬ ends → t.bay b = { x with stage := .absorb } ∧ t.record i = r) ∧
      (ends → due → t.bay b = { x with stage := .equalise, equaliseEnd := some (pr.equaliseMinutes * 60) } ∧
        t.record i = charged) ∧
      (ends → ¬ due → 0 < pr.restMinutes →
        t.bay b = { lowered with stage := .resting, restEnd := some (pr.restMinutes * 60) } ∧ t.record i = charged) ∧
      (ends → ¬ due → pr.restMinutes = 0 → t.bay b = { lowered with stage := .done } ∧
        t.record i = (if r.lifecycle = .docked then
          { charged with lifecycle := .ready, readySince := some ((s.clock.map (·.minute)).getD 0) } else charged) ∧
        (r.lifecycle = .docked → hasFlag (t.queue r.profile) i = true ∧ t.planMark = true)))

/-- R24, R65, R72, R73, R74, R76, R80: a stall trigger counts toward the criterion's demand and any other report breaks the streak. The first two
declarations of a docking hold the bay, later ones fault it; either lowers its grant to 0. Four good reports in PROBATION clear the
stall; a report under an invalid profile entry leaves the count, as that entry's min current is not read. -/
def Obligations.StallsAreDeclaredAndCleared : Prop :=
  ∀ (s : State) (b : BayId) (current : Nat),
    let x := s.bay b
    let min' := (s.profile x.profile).minCurrent
    let t := s.judgeStall b current
    let u := s.judgeProbation b current
    let triggers := x.eligible = true ∧ min' ≤ x.grant ∧ current < x.grant / 4
    let demand := match s.site.criterion with
      | .strict => 4
      | .lenient => 16
    let lowered : Bay := { x with
      grant := 0, reduction := decide (0 < x.grant) || x.reduction, probation := none, stallStreak := 0
      counters := (t.bay b).counters
      confirmTimer := if 0 < x.grant ∧ x.reduction = false then some s.site.confirmTimeout else x.confirmTimer }
    let good := x.stall = .probation ∧ (s.profile x.profile).valid = true ∧ min' ≤ x.grant
    (∀ a, a ≠ b → t.bay a = s.bay a ∧ u.bay a = s.bay a) ∧
    (¬ triggers → t.bay b = { x with stallStreak := 0 } ∧ t.ports = s.ports) ∧
    (triggers → x.stallStreak + 1 < demand → t.bay b = { x with stallStreak := x.stallStreak + 1 } ∧ t.ports = s.ports) ∧
    (triggers → demand ≤ x.stallStreak + 1 →
      (t.bay b).counters[EventCounter.stall.place] = (x.counters[EventCounter.stall.place]).counted ∧
      (∀ k : Fin 5, k ≠ EventCounter.stall.place → (t.bay b).counters[k] = x.counters[k]) ∧ t.passMark = true ∧
      (∀ q, (s.port q).role.takes .fault (.bay b) = true → hasFlag (t.port q).raised NoticeKind.fault.bit = true) ∧
      (x.declarations < 2 → t.bay b = { lowered with
        declarations := x.declarations + 1, stall := .holding, holdEnd := some 60
        inhibits := x.inhibits ||| BitVec.twoPow 9 Inhibit.stallHold.bit }) ∧
      (2 ≤ x.declarations → t.bay b = { lowered with
        declarations := min 3 (x.declarations + 1), stall := .clear
        inhibits := x.inhibits ||| BitVec.twoPow 9 Inhibit.fault.bit })) ∧
    (¬ good → u = s) ∧
    (good → current * 2 < x.grant → u.bay b = { x with probation := some 0 } ∧ u.ports = s.ports) ∧
    (good → x.grant ≤ current * 2 → x.probation.getD 0 < 3 →
      u.bay b = { x with probation := some (x.probation.getD 0 + 1) } ∧ u.ports = s.ports) ∧
    (good → x.grant ≤ current * 2 → 3 ≤ x.probation.getD 0 →
      u.bay b = { x with stall := .clear, probation := none } ∧ u.passMark = true ∧
        ∀ q, u.port q = if (s.port q).edge = .both then (s.port q).deliver .fault (.bay b) else s.port q)

/-- R38, R104, R105, R119, R123, R124, R129: a GRANT_ACK equal to the grant confirms, and where that leaves no reduction unresolved the pending
list is released; any other value is refused with STALE, and the report state, the silence and the overdraw streak stand. -/
def Obligations.GrantAckConfirms : Prop :=
  ∀ (p : PortId) (params : List Byte) (s : State) (b : BayId),
    s.accepts p rowGrantAck params = true → s.localBay p (byteAt params 0) = some b →
    let resolves := (s.bay b).reduction = true ∧ ∀ a, a ≠ b → (s.bay a).reduction = false
    (u16At params 1 = (s.bay b).grant → resolves →
      ∃ t, exec (.grantAck p params) s = .next t ∧ t = { s with bays := t.bays, ports := t.ports, pendingList := [] } ∧
        ReleaseWalk s.pendingList (s.setBay b { s.bay b with
          allowance := (s.bay b).grant, power := s.powerOf b (s.bay b).grant, reduction := false, confirmTimer := none }) t ∧
        s.grantsNoticed t ∧
        ∀ q, PortMoves (if q = p then (s.port p).wrote params .ok else s.port q) (t.port q)) ∧
    (u16At params 1 = (s.bay b).grant → s.pendingList = [] ∨ ¬ resolves →
      exec (.grantAck p params) s = .next
        ((if (s.bay b).reduction = true ∨ (s.bay b).grant < (s.bay b).allowance then
            s.setBay b { s.bay b with
              allowance := (s.bay b).grant, power := s.powerOf b (s.bay b).grant, reduction := false
              confirmTimer := if (s.bay b).reduction then none else (s.bay b).confirmTimer }
          else s).setPort p ((s.port p).wrote params .ok))) ∧
    (u16At params 1 ≠ (s.bay b).grant →
      exec (.grantAck p params) s = .next (s.setPort p ((s.port p).wrote params .stale)))

/-- R40, R71, R169: CLEAR_FAULT removes FAULT and raises a clear; the bay may thereby become eligible. A bay without FAULT, or LOST, is
refused with STATE. -/
def Obligations.ClearFaultRemovesFault : Prop :=
  ∀ (p : PortId) (params : List Byte) (s : State) (b : BayId),
    s.accepts p rowClearFault params = true → s.localBay p (byteAt params 0) = some b →
    let x := { s.bay b with inhibits := (s.bay b).inhibits &&& ~~~ BitVec.twoPow 9 Inhibit.fault.bit }
    ((s.bay b).carries .fault = true → (s.bay b).report ≠ .lost →
      ∃ t, exec (.clearFault p params) s = .next t ∧
        t = { s.setBay b x with passMark := s.passMark || x.eligible, ports := t.ports } ∧
        ∀ q, t.port q = atPorts (fun y => if y.edge = .both then y.deliver .fault (.bay b) else y) p
          (·.wrote params .ok) q (s.port q)) ∧
    ((s.bay b).carries .fault = false ∨ (s.bay b).report = .lost →
      exec (.clearFault p params) s = .next (s.setPort p ((s.port p).wrote params .state)))

/-! ### Supply, hold, zone and settings -/

/-- R85, R89, R90, R134, R143, R167: SET_CLOCK sets the clock, raises a CLOCK notice and requests a planning pass; a minute above 10079 or a
second above 59 is refused with RANGE. SET_SUPPLY writes the limit, the reserve and the meter mode, clamped, and a budget figure that
falls below the pass figure requests a pass; a mode above 1 is refused with RANGE. -/
def Obligations.ClockAndSupplyAreSet : Prop :=
  (∀ (p : PortId) (params : List Byte) (s : State), s.accepts p rowSetClock params = true →
    (u16At params 0 ≤ 10079 → byteAt params 2 ≤ 59 →
      ∃ t, exec (.setClock p params) s = .next t ∧
        t = { s with clock := some ⟨u16At params 0, byteAt params 2⟩, planMark := true, ports := t.ports } ∧
        ∀ q, t.port q = atPorts (·.deliver .clock .part) p (·.wrote params .ok) q (s.port q)) ∧
    (10079 < u16At params 0 ∨ 59 < byteAt params 2 →
      exec (.setClock p params) s = .next (s.setPort p ((s.port p).wrote params .range)))) ∧
  ∀ (p : PortId) (params : List Byte) (s : State), s.accepts p rowSetSupply params = true →
    (byteAt params 5 ≤ 1 →
      let x := { s.supply with
        limit := min 250000 (u24At params 0), reserve := min 50000 (u16At params 3)
        meterMode := if byteAt params 5 = 0 then .metered else .unmetered }
      let u := { s with supply := x }
      exec (.setSupply p params) s = .next
        ({ u with passMark := s.passMark || decide (u.budget < x.passFigure) }.setPort p
          ((s.port p).wrote params .ok))) ∧
    (2 ≤ byteAt params 5 → exec (.setSupply p params) s = .next (s.setPort p ((s.port p).wrote params .range)))

/-- R86, R87, R88, R89, R90, R97: OTHER_LOAD appends the clamped reading to the window of eight, makes the meter FRESH with age 0, with a SUPPLY notice
where it was not, and raises every port's peak to the reading. The effective other load is the newest reading while FRESH, the
greatest while STALE, the limit while EMPTY, and 0 when UNMETERED; the open budget is limit − reserve − other load, within 0 to the limit;
and the budget figure is the open budget, its share of the ramp, or 0 while winding down or HELD. -/
def Obligations.OtherLoadAppendsAReading : Prop :=
  (∀ (p : PortId) (params : List Byte) (s : State), s.accepts p rowOtherLoad params = true → s.supply.readings.length ≤ 8 →
    let r := min 250000 (u24At params 0)
    let x := { s.supply with
      readings := (if s.supply.readings.length < 8 then s.supply.readings else s.supply.readings.tail) ++ [r]
      age := some 0, condition := .fresh }
    ∃ t, exec (.otherLoad p params) s = .next t ∧
      t = { s with
        supply := x, ports := t.ports
        passMark := s.passMark || decide (({ s with supply := x } : State).budget < x.passFigure) } ∧
      ∀ q, t.port q = atPorts
        (fun y => { (if s.supply.condition = .fresh then y else y.deliver .supply .part) with peak := max y.peak r }) p
        (·.wrote params .ok) q (s.port q)) ∧
  (∀ x : Supply,
    (x.meterMode = .unmetered → x.otherLoad = 0) ∧
    (x.meterMode = .metered →
      (x.condition = .empty → x.otherLoad = x.limit) ∧
      (x.condition = .fresh → ∀ r older, x.readings = older ++ [r] → x.otherLoad = r) ∧
      (x.condition = .stale → x.readings ≠ [] → x.otherLoad ∈ x.readings ∧ ∀ r ∈ x.readings, r ≤ x.otherLoad)) ∧
    (x.openBudget : Int) = min (x.limit : Int) (max 0 ((x.limit : Int) - x.reserve - x.otherLoad))) ∧
  ∀ s : State,
    (s.supply.hold = .windingDown ∨ s.supply.hold = .held → s.budget = 0) ∧
    (s.supply.hold = .running → s.budget = s.supply.openBudget) ∧
    (s.supply.hold = .ramping → ∀ n, s.supply.elapsed = some n → s.budget = s.supply.openBudget * n / s.site.rampTime)

/-- R39, R40, R90, R91, R93: HOLD in RUNNING or RAMPING. The wind-down starts, every bay that is not EMPTY gains HOLD and loses its grant as a
reduction, its pending increase is dropped, and SUPPLY is raised; in WINDING_DOWN or HELD it changes nothing. RESUME in HELD takes
HOLD off every bay and begins the ramp, or runs at once under a ramp time of 0; the grants stand. In WINDING_DOWN it is refused with
STATE, and otherwise it changes nothing. -/
def Obligations.HoldAndResume : Prop :=
  (∀ (p : PortId) (s : State), s.accepts p rowHold [] = true →
    (s.supply.hold = .running ∨ s.supply.hold = .ramping →
      ∃ t, exec (.hold p) s = .next t ∧
        t = { s with
          supply := { s.supply with hold := .windingDown, elapsed := none, windDown := some 10 }
          bays := t.bays, ports := t.ports
          passMark := s.passMark || decide (0 < s.supply.passFigure) || allBays.any fun b => (s.bay b).eligible
          pendingList := s.pendingList.filter fun x => !(s.bay x.bay).eligible } ∧
        (∀ b, t.bay b = if (s.bay b).stage = .empty then s.bay b else
          { s.bay b with
            inhibits := (s.bay b).inhibits ||| BitVec.twoPow 9 Inhibit.hold.bit, grant := 0
            reduction := decide (0 < (s.bay b).grant) || (s.bay b).reduction
            confirmTimer := if 0 < (s.bay b).grant ∧ (s.bay b).reduction = false then some s.site.confirmTimeout
              else (s.bay b).confirmTimer }) ∧
        (∀ q, q ≠ p → PortMoves (s.port q) (t.port q)) ∧ (t.port p).lastResult = .ok ∧
        ∀ q, (s.port q).role ≠ .off → hasFlag (t.port q).raised NoticeKind.supply.bit = true) ∧
    (s.supply.hold = .windingDown ∨ s.supply.hold = .held →
      exec (.hold p) s = .next (s.setPort p ((s.port p).wrote [] .ok)))) ∧
  ∀ (p : PortId) (s : State), s.accepts p rowResume [] = true →
    (s.supply.hold = .held →
      let lifted (x : Bay) : Bay := { x with inhibits := x.inhibits &&& ~~~ BitVec.twoPow 9 Inhibit.hold.bit }
      ∃ t, exec (.resume p) s = .next t ∧
        t = { s with
          supply := { s.supply with
            hold := if s.site.rampTime = 0 then .running else .ramping
            windDown := none
            elapsed := if s.site.rampTime = 0 then none else some 0 }
          bays := t.bays, ports := t.ports, passMark := t.passMark } ∧
        (∀ b, t.bay b = lifted (s.bay b)) ∧
        (t.passMark = true ↔ s.passMark = true ∨
          (∃ b, (s.bay b).carries .hold = true ∧ (lifted (s.bay b)).eligible = true) ∨
          t.budget < s.supply.passFigure) ∧
        ∀ q, t.port q = atPorts (·.deliver .supply .part) p (·.wrote [] .ok) q (s.port q)) ∧
    (s.supply.hold = .windingDown → exec (.resume p) s = .next (s.setPort p ((s.port p).wrote [] .state))) ∧
    (s.supply.hold = .running ∨ s.supply.hold = .ramping →
      exec (.resume p) s = .next (s.setPort p ((s.port p).wrote [] .ok)))

/-- R39, R95, R96: while the zone is on, a zone command treats every bay that is not EMPTY by its place: outside it gains RESTRICTED and loses
its grant as a reduction, inside it loses RESTRICTED. SET_ZONE with the zone off changes the zone alone, and a bay above 15 is
refused with RANGE. -/
def Obligations.ZoneCommandsRestrict : Prop :=
  ∀ (p : PortId) (s : State),
    let inside (first last : Nat) (b : BayId) : Bool :=
      if first ≤ last then first ≤ b.val && b.val ≤ last else first ≤ b.val || b.val ≤ last
    let rezoned (first last : Nat) (b : BayId) (x : Bay) : Bay :=
      if x.stage = .empty then x
      else if inside first last b then { x with inhibits := x.inhibits &&& ~~~ BitVec.twoPow 9 Inhibit.restricted.bit }
      else if x.carries .restricted then x
      else { x with
        inhibits := x.inhibits ||| BitVec.twoPow 9 Inhibit.restricted.bit, grant := 0
        reduction := decide (0 < x.grant) || x.reduction
        confirmTimer := if 0 < x.grant ∧ x.reduction = false then some s.site.confirmTimeout else x.confirmTimer }
    (∀ (params : List Byte) (first last : BayId), s.accepts p rowSetZone params = true → byteAt params 0 = first.val →
      byteAt params 1 = last.val →
      ∃ t, exec (.setZone p params) s = .next t ∧
        t = { s with
          supply := { s.supply with zoneFirst := first, zoneLast := last }
          bays := t.bays, ports := t.ports, passMark := s.passMark || s.supply.zoneOn, pendingList := t.pendingList } ∧
        (∀ b, t.bay b = if s.supply.zoneOn then rezoned first.val last.val b (s.bay b) else s.bay b) ∧
        (s.supply.zoneOn = false → t.pendingList = s.pendingList ∧
          ∀ q, t.port q = atPorts id p (·.wrote params .ok) q (s.port q)) ∧
        (s.supply.zoneOn = true → ∀ q, (s.port q).role ≠ .off →
          hasFlag (t.port q).raised NoticeKind.supply.bit = true)) ∧
    (∀ params : List Byte, s.accepts p rowSetZone params = true → 16 ≤ byteAt params 0 ∨ 16 ≤ byteAt params 1 →
      exec (.setZone p params) s = .next (s.setPort p ((s.port p).wrote params .range))) ∧
    (s.accepts p rowZoneOn [] = true → s.supply.zoneOn = false →
      ∃ t, exec (.zoneOn p) s = .next t ∧
        t = { s with
          supply := { s.supply with zoneOn := true }
          bays := t.bays, ports := t.ports, passMark := true, pendingList := t.pendingList } ∧
        ∀ b, t.bay b = rezoned s.supply.zoneFirst.val s.supply.zoneLast.val b (s.bay b)) ∧
    (s.accepts p rowZoneOff [] = true → s.supply.zoneOn = true →
      ∃ t, exec (.zoneOff p) s = .next t ∧
        t = { s with supply := { s.supply with zoneOn := false }, bays := t.bays, ports := t.ports, passMark := true } ∧
        (∀ b, t.bay b = { s.bay b with
          inhibits := (s.bay b).inhibits &&& ~~~ BitVec.twoPow 9 Inhibit.restricted.bit }) ∧
        ∀ q, t.port q = atPorts (·.deliver .supply .part) p (·.wrote [] .ok) q (s.port q)) ∧
    (s.accepts p rowZoneOn [] = true → s.supply.zoneOn = true →
      exec (.zoneOn p) s = .next (s.setPort p ((s.port p).wrote [] .ok))) ∧
    (s.accepts p rowZoneOff [] = true → s.supply.zoneOn = false →
      exec (.zoneOff p) s = .next (s.setPort p ((s.port p).wrote [] .ok)))

/-- R65, R94, R102, R120, R135, R156, R181: SET_SITE writes every setting, clamped, with result OK. A changed period restarts the period timer, a changed
horizon or grace requests a planning pass, and a ramp in progress follows the new ramp time. -/
def Obligations.SetSiteClampsEverySetting : Prop :=
  ∀ (p : PortId) (params : List Byte) (s : State), s.accepts p rowSetSite params = true →
    let clamp (low high n : Nat) : Nat := min high (max low n)
    let x : Site := {
      period := clamp 1 30 (byteAt params 0), reportTimeout := clamp 2 60 (byteAt params 1)
      lostTimeout := clamp 10 300 (u16At params 2), confirmTimeout := clamp 1 15 (byteAt params 4)
      criterion := if byteAt params 5 = 0 then .strict else .lenient
      latchMode := if byteAt params 6 = 0 then .manual else .auto
      shiftStarts := #v[min 1440 (u16At params 7), min 1440 (u16At params 9), min 1440 (u16At params 11),
        min 1440 (u16At params 13)]
      horizon := clamp 60 1440 (u16At params 15), grace := min 60 (byteAt params 17)
      rampTime := min 120 (byteAt params 18), minimumIssue := min 100 (byteAt params 19) }
    let ends := x.rampTime ≠ s.site.rampTime ∧ s.supply.hold = .ramping ∧ x.rampTime ≤ s.supply.elapsed.getD 0
    ∃ t, exec (.setSite p params) s = .next t ∧
      t = { s with
        site := x
        supply := if ends then { s.supply with hold := .running, elapsed := none } else s.supply
        periodTimer := if x.period = s.site.period then s.periodTimer else some x.period
        planMark := s.planMark || decide (x.horizon ≠ s.site.horizon) || decide (x.grace ≠ s.site.grace)
        passMark := t.passMark, ports := t.ports } ∧
      (x.rampTime = s.site.rampTime ∨ s.supply.hold ≠ .ramping → t.passMark = s.passMark) ∧
      (x.rampTime ≠ s.site.rampTime → s.supply.hold = .ramping →
        t.passMark = (s.passMark || decide (t.budget < s.supply.passFigure))) ∧
      ∀ q, t.port q = atPorts (fun y => if ends then y.deliver .supply .part else y) p (·.wrote params .ok) q (s.port q)

/-! ### Windows, streams and the two tables -/

/-- R178, R179, R180: SET_WINDOW sets a depot port's window, a last entry beyond the table's end being taken as the end; TABLE_WRITE opens a
stream at byte 0 of the window's first entry; each byte but an entry's last is held at the port, and one after the last entry is ignored;
the stream's end discards an incomplete entry and leaves OK, or STATE where a soft reset took the window; and TABLE_READ answers each
entry of the window as it stands when its first byte is shifted out. The split of the two transactions into their parts is the
model's choice (notes/assumptions/11.md and 12.md); so is that the end of a stream, a byte of one or a next entry is no event where no
such stream or reading is open (notes/assumptions/4.md). -/
def Obligations.WindowsAndStreams : Prop :=
  ∀ (p : PortId) (s : State),
    (∀ params : List Byte, s.accepts p rowSetWindow params = true →
      (∀ f l : ProfileId, byteAt params 0 = 0 → byteAt params 1 = f.val → l.val = min 7 (byteAt params 2) →
        byteAt params 1 ≤ byteAt params 2 → exec (.setWindow p params) s = .next (s.setPort p
          ((({ s.port p with window := some (.profiles f l) } : Port)).wrote params .ok))) ∧
      (∀ f l : EntryId, byteAt params 0 = 1 → byteAt params 1 = f.val → l.val = min 47 (byteAt params 2) →
        byteAt params 1 ≤ byteAt params 2 → exec (.setWindow p params) s = .next (s.setPort p
          ((({ s.port p with window := some (.schedule f l) } : Port)).wrote params .ok))) ∧
      (2 ≤ byteAt params 0 ∨ byteAt params 0 = 0 ∧ 7 < byteAt params 1 ∨ byteAt params 0 = 1 ∧ 47 < byteAt params 1 ∨
        byteAt params 2 < byteAt params 1 →
          exec (.setWindow p params) s = .next (s.setPort p ((s.port p).wrote params .range)))) ∧
    (s.accepts p rowTableWrite [] = true → exec (.tableWrite p) s = .next (s.setPort p
      (match (s.port p).window with
      | some (.profiles f l) => { s.port p with
          stream := some (.profiles (some f) l), held := [], reading := none, out := [(s.port p).lastResult.byte] }
      | some (.schedule f l) => { s.port p with
          stream := some (.schedule (some f) l), held := [], reading := none, out := [(s.port p).lastResult.byte] }
      | none => (s.port p).ended .state []))) ∧
    (∀ b : Byte,
      ((∃ k l, (s.port p).stream = some (.profiles (some k) l)) → (s.port p).held.length < 31 →
        exec (.profileEntryTake p b) s = .next (s.setPort p { s.port p with held := (s.port p).held ++ [b] })) ∧
      ((∀ k l, (s.port p).stream ≠ some (.profiles (some k) l)) → exec (.profileEntryTake p b) s = .next s) ∧
      ((∃ e l, (s.port p).stream = some (.schedule (some e) l)) → (s.port p).held.length < 7 →
        exec (.scheduleEntryTake p b) s = .next (s.setPort p { s.port p with held := (s.port p).held ++ [b] })) ∧
      ((∀ e l, (s.port p).stream ≠ some (.schedule (some e) l)) → exec (.scheduleEntryTake p b) s = .next s)) ∧
    (exec (.tableWriteStreamEnd p) s = .next
      (match (s.port p).stream with
      | some .windowGone => s.setPort p { s.port p with stream := none, held := [], lastResult := .state }
      | some _ => s.setPort p { s.port p with stream := none, held := [], lastResult := .ok }
      | none => s)) ∧
    (s.accepts p rowTableRead [] = true → exec (.tableRead p .command) s = .next (s.setPort p
      (match (s.port p).window with
      | some (.profiles f l) => { (s.port p).answered 0 .ok [] with reading := some (.profiles (some f) l) }
      | some (.schedule f l) => { (s.port p).answered 0 .ok [] with reading := some (.schedule (some f) l) }
      | none => (s.port p).answered 0 .state []))) ∧
    exec (.tableRead p .nextEntry) s = .next
      (match (s.port p).reading with
      | some (.profiles (some k) l) => s.setPort p { s.port p with
          out := (s.port p).out ++ profileBytes (s.profile k)
          reading := some (.profiles (if h : k.val < l.val then some ⟨k.val + 1, by omega⟩ else none) l) }
      | some (.schedule (some e) l) => s.setPort p { s.port p with
          out := (s.port p).out ++ entryBytes (s.entry e)
          reading := some (.schedule (if h : e.val < l.val then some ⟨e.val + 1, by omega⟩ else none) l) }
      | _ => s)

/-- R25, R26, R27, R28, R30, R31, R33, R34, R35, R179: a profile entry taken at its last byte on a sound roster, no bay of that profile being one heat entry short of its limit. The
entry is replaced whole and is valid when requested and its checks pass, those of R26's table. An invalid entry bars its bays; a valid
one clamps its records' capacity and estimate into its bounds, sets its bays' band and TEMPERATURE from its breakpoints, and moves a BULK bay
at its absorb point to ABSORB. Both passes are requested. -/
def Obligations.ProfileEntryTaken : Prop :=
  ∀ (p : PortId) (bytes : Vector Byte 32) (s : State) (k last : ProfileId),
    (s.port p).stream = some (.profiles (some k) last) → (s.port p).held = bytes.toList.take 31 → s.sound →
    (∀ b, (s.bay b).stage ≠ .empty → (s.bay b).profile = k → (s.bay b).heat ≤ 1) →
    ∃ t, exec (.profileEntryTake p bytes[31]) s = .next t ∧
      t.passMark = true ∧ t.planMark = true ∧ t.entries = s.entries ∧ t.supply = s.supply ∧ t.clock = s.clock ∧
      t.readyQueues = s.readyQueues ∧ t.recalls = s.recalls ∧ t.draws = s.draws ∧
      (t.port p).stream = some (.profiles (if h : k.val < last.val then some ⟨k.val + 1, by omega⟩ else none) last) ∧
      (t.port p).held = [] ∧
      (∀ j, j ≠ k → t.profile j = s.profile j) ∧
      t.profile k = { profileOfBytes bytes with valid := decide (bytes[0] ≠ 0) && (profileOfBytes bytes).passes } ∧
      ((t.profile k).valid = true ↔ bytes[0] ≠ 0 ∧ (profileOfBytes bytes).meetsChecks) ∧
      (∀ i, (t.profile k).valid = true → (s.record i).lifecycle ≠ .free → (s.record i).profile = k →
        let bounded := min ((t.profile k).rated * 11 / 10) (max ((t.profile k).rated / 2) (s.record i).capacity)
        t.record i = { s.record i with
          capacity := bounded, estimate := min (bounded * 110 / 100) (s.record i).estimate
          residue := if bounded * 110 / 100 < (s.record i).estimate then 0 else (s.record i).residue } ∧
        (bounded ≠ (s.record i).capacity → ∀ q, hasFlag (t.port q).marks (groupOf i) = true)) ∧
      (∀ i, t.record i =
        if (t.profile k).valid = true ∧ (s.record i).lifecycle ≠ .free ∧ (s.record i).profile = k then
          (s.record i).within (t.profile k)
        else s.record i) ∧
      (∀ b, (s.bay b).stage = .empty ∨ (s.bay b).profile ≠ k → t.bay b = s.bay b) ∧
      (∀ b, (s.bay b).stage ≠ .empty → (s.bay b).profile = k → (t.profile k).valid = false →
        t.bay b = { s.bay b with
          inhibits := (s.bay b).inhibits ||| BitVec.twoPow 9 Inhibit.profile.bit, grant := 0
          reduction := decide (0 < (s.bay b).grant) || (s.bay b).reduction
          confirmTimer := if 0 < (s.bay b).grant ∧ (s.bay b).reduction = false then some s.site.confirmTimeout
            else (s.bay b).confirmTimer }) ∧
      (∀ b, (s.bay b).stage ≠ .empty → (s.bay b).profile = k → (t.profile k).valid = true →
        (t.bay b).carries .profile = false ∧ (t.bay b).debounce = 0 ∧
        (t.bay b).band = (t.profile k).bandOf (match (s.bay b).last with
          | some l => l.temperature
          | none => (s.bay b).dockTemperature) ∧
        (t.profile k).liesIn (match (s.bay b).last with
          | some l => l.temperature
          | none => (s.bay b).dockTemperature) (t.bay b).band ∧
        (t.bay b).stage = (match (s.bay b).slot with
          | some i =>
            if (s.bay b).stage = .bulk ∧ (t.record i).capacity * (t.profile k).absorbPoint / 100 ≤ (t.record i).estimate then .absorb
            else (s.bay b).stage
          | none => (s.bay b).stage) ∧
        ((t.bay b).carries .temperature = true ↔ (t.profile k).factors[(t.bay b).band] = 0) ∧
        (t.bay b).slot = (s.bay b).slot ∧ (t.bay b).tag = (s.bay b).tag ∧
        (t.bay b).grant = (if (t.profile k).factors[(t.bay b).band] = 0 then 0 else (s.bay b).grant)) ∧
      ((t.profile k).valid = false → bytes[0] ≠ 0 → ∀ q, (s.port q).role = .depot ∨ (s.port q).role = .observer →
        hasFlag (t.port q).raised NoticeKind.profile.bit = true)

/-- R137, R138, R139, R140, R150, R179: the events that write a departure entry, on a sound roster. A take at the entry's last byte, an addition and a cancel each leave the entry IDLE,
unreserved and unrenewed; a reservation it held is cleared on both sides; a planning pass is requested. -/
def Obligations.DepartureEntriesWritten : Prop :=
  ∀ (p : PortId) (s : State) (e : EntryId), s.sound →
    let unreserved (t : State) : Prop :=
      (∀ i, t.record i = if (s.entry e).reserved = some i then { s.record i with reservation := none } else s.record i) ∧
        t.passMark = (s.passMark || (s.entry e).reserved.isSome) ∧ t.planMark = true ∧
        (∀ f, f ≠ e → t.entry f = s.entry f) ∧ t.bays = s.bays ∧ t.profiles = s.profiles ∧ t.readyQueues = s.readyQueues
    (∀ (bytes : Vector Byte 8) (last : EntryId), (s.port p).stream = some (.schedule (some e) last) →
      (s.port p).held = bytes.toList.take 7 →
      ∃ t, exec (.scheduleEntryTake p bytes[7]) s = .next t ∧ unreserved t ∧
        (t.entry e).weekly = bytes[0].getLsbD 0 ∧ (t.entry e).sweeper = bytes[1].toNat ∧
        (t.entry e).minute = bytes[2].toNat * 256 + bytes[3].toNat ∧ (t.entry e).profile = bytes[4].toNat ∧
        (t.entry e).required = bytes[5].toNat ∧ (t.entry e).status = .idle ∧ (t.entry e).reserved = none ∧
        (t.entry e).renewal = false ∧
        ((t.entry e).valid = true ↔ bytes[0].getLsbD 7 = true ∧ 1 ≤ (t.entry e).sweeper ∧ (t.entry e).sweeper ≤ 63 ∧
          (t.entry e).minute ≤ 10079 ∧ (t.entry e).profile ≤ 7 ∧ 50 ≤ (t.entry e).required ∧
          (t.entry e).required ≤ 100) ∧
        (∀ w, t.drawOf w = (s.drawOf w).map fun d => { d with entry := if d.entry = some e then none else d.entry }) ∧
        (t.port p).stream = some (.schedule (if h : e.val < last.val then some ⟨e.val + 1, by omega⟩ else none) last) ∧
        (t.port p).held = []) ∧
    (∀ params : List Byte, (departureOf params).inRange = true ↔ 1 ≤ byteAt params 1 ∧ byteAt params 1 ≤ 63 ∧
      u16At params 2 ≤ 10079 ∧ byteAt params 4 ≤ 7 ∧ 50 ≤ byteAt params 5 ∧ byteAt params 5 ≤ 100) ∧
    (∀ params : List Byte, s.accepts p rowAddDeparture params = true →
      (1 < byteAt params 0 ∨ (departureOf params).inRange = false →
        exec (.addDeparture p params) s = .next (s.setPort p ((s.port p).wrote params .range))) ∧
      (byteAt params 0 ≤ 1 → (departureOf params).inRange = true →
        ((s.entry e).valid = false ∨ (s.entry e).status = .finished) →
        (∀ f, f < e → (s.entry f).valid = true ∧ (s.entry f).status ≠ .finished) →
        ∃ t, exec (.addDeparture p params) s = .next t ∧ unreserved t ∧ (t.port p).lastResult = .ok ∧
          t.entry e = {
            valid := true, weekly := decide (byteAt params 0 = 1), sweeper := byteAt params 1, minute := u16At params 2
            profile := byteAt params 4, required := byteAt params 5, status := .idle, reserved := none
            renewal := false }) ∧
      (byteAt params 0 ≤ 1 → (departureOf params).inRange = true →
        (∀ f, (s.entry f).valid = true ∧ (s.entry f).status ≠ .finished) →
        exec (.addDeparture p params) s = .next (s.setPort p ((s.port p).wrote params .full)))) ∧
    ∀ params : List Byte, s.accepts p rowCancelDeparture params = true →
      (48 ≤ byteAt params 0 →
        exec (.cancelDeparture p params) s = .next (s.setPort p ((s.port p).wrote params .range))) ∧
      (byteAt params 0 = e.val → (s.entry e).valid = false ∨ (s.entry e).status = .called →
        exec (.cancelDeparture p params) s = .next (s.setPort p ((s.port p).wrote params .state))) ∧
      (byteAt params 0 = e.val → (s.entry e).valid = true → (s.entry e).status ≠ .called →
        ∃ t, exec (.cancelDeparture p params) s = .next t ∧ unreserved t ∧ (t.port p).lastResult = .ok ∧
          t.entry e = { s.entry e with valid := false, status := .idle, renewal := false, reserved := none })

/-! ### Draws and the roster commands -/

/-- R159: the pack a draw chooses on a sound roster. The matching entry's reserved pack comes first, then the first open pack of the profile's
ready queue, then the fullest open DOCKED pack of the profile that has the minimum issue charge. -/
def Obligations.DrawChoosesItsPack : Prop :=
  ∀ (s : State) (w : SweeperId) (k : ProfileId) (match' : Option EntryId), s.sound →
    let takes (i : SlotId) : Prop := (s.record i).lifecycle = .ready ∨ (s.record i).lifecycle = .docked ∧
      ∃ e, match' = some e ∧ ((s.entry e).required * (s.record i).capacity + 99) / 100 ≤ (s.record i).estimate
    let reserved (i : SlotId) : Prop := ∃ e, match' = some e ∧ (s.entry e).reserved = some i ∧ takes i
    let open' (i : SlotId) : Prop := ∀ e, (s.record i).reservation = some e → (s.entry e).sweeper = w.val
    let docked (i : SlotId) : Prop := (s.record i).lifecycle = .docked ∧ (s.record i).profile = k ∧ open' i ∧
      ∀ b, (s.record i).bay = some b → (s.bay b).carries .fault = false
    (s.choosePack w k match').1 = s ∧
    (∀ i, reserved i → (s.choosePack w k match').2 = some ⟨i, .ok⟩) ∧
    ((∀ i, ¬ reserved i) →
      (∀ i pre post, s.queueOrder k = pre ++ i :: post → open' i → (∀ j ∈ pre, ¬ open' j) →
        (s.choosePack w k match').2 = some ⟨i, .ok⟩) ∧
      ((∀ j ∈ s.queueOrder k, ¬ open' j) →
        (∀ i, docked i → s.site.minimumIssue ≤ (s.record i).percent →
          (∀ j, docked j → j ≠ i → (s.record j).percent < (s.record i).percent ∨
            (s.record j).percent = (s.record i).percent ∧ ((s.record i).cycles < (s.record j).cycles ∨
              (s.record i).cycles = (s.record j).cycles ∧ i < j)) →
          (s.choosePack w k match').2 = some ⟨i, .okPartial⟩) ∧
        ((∀ i, docked i → (s.record i).percent < s.site.minimumIssue) → (s.choosePack w k match').2 = none)))

/-- R145, R150, R157, R158, R159, R160, R161: DRAW on a sound roster. The matching entry is the first, in the planning order, of the valid
entries for the sweeper and the profile that are DUE or ACTIVE and not CALLED, SERVED or FINISHED. Refusals and NONE_READY change the port's transaction registers alone. A draw served
with a pack calls it: the record, the bay, the draw table, the recall queue and the entry change as the rule says, and the answer
names the pack. A reservation the pack holds, for the matching entry or another, is cleared on both sides, with both requests; and so
is one that the matching entry holds on another pack, as R145 has it (notes/assumptions/35.md). -/
def Obligations.DrawCallsThePack : Prop :=
  ∀ (p : PortId) (params : List Byte) (s : State), s.accepts p rowDraw params = true → s.sound →
    (byteAt params 0 = 0 ∨ 64 ≤ byteAt params 0 ∨ 8 ≤ byteAt params 1 →
      exec (.draw p params) s = .next (s.setPort p ((s.port p).answered 2 .range []))) ∧
    ∀ (w : SweeperId) (k : ProfileId), byteAt params 0 = w.val → w ≠ 0 → byteAt params 1 = k.val →
      (let fits (e : EntryId) : Prop := (s.entry e).valid = true ∧ (s.entry e).sweeper = w.val ∧
          (s.entry e).profile = k.val ∧ (s.windowOf e = some .due ∨ s.windowOf e = some .active) ∧
          (s.entry e).status ≠ .called ∧ (s.entry e).status ≠ .served ∧ (s.entry e).status ≠ .finished
       (∀ e, s.matchingEntry w k = some e ↔ fits e ∧ ∀ f, fits f → f = e ∨ s.plansBefore e f) ∧
        (s.matchingEntry w k = none ↔ ∀ e, ¬ fits e)) ∧
      (s.drawOf w ≠ none → exec (.draw p params) s = .next (s.setPort p ((s.port p).answered 2 .conflict []))) ∧
      (s.drawOf w = none → (s.profile k).valid = false →
        exec (.draw p params) s = .next (s.setPort p ((s.port p).answered 2 .state []))) ∧
      (s.drawOf w = none → (s.profile k).valid = true → (s.choosePack w k (s.matchingEntry w k)).2 = none →
        exec (.draw p params) s = .next (s.setPort p ((s.port p).answered 2 .noneReady (List.replicate 7 0xFF)))) ∧
      ∀ (i : SlotId) (r : ResultCode) (b : BayId), s.drawOf w = none → (s.profile k).valid = true →
        (s.choosePack w k (s.matchingEntry w k)).2 = some ⟨i, r⟩ → (s.record i).bay = some b →
        (s.record i).lifecycle ≠ .free →
        let other : Option SlotId := match s.matchingEntry w k with
          | some e => if (s.record i).reservation = some e then none else (s.entry e).reserved
          | none => none
        let cleared := (s.record i).reservation.isSome || other.isSome
        ∃ t, exec (.draw p params) s = .next t ∧
          (∀ j, j ≠ i → t.record j = { s.record j with
            reservation := if other = some j then none else (s.record j).reservation }) ∧
          (∀ a, a ≠ b → t.bay a = s.bay a) ∧
          t.record i = { s.record i with
            lifecycle := .called, sweeper := some w, reservation := none, readySince := none } ∧
          t.bay b = { s.bay b with
            inhibits := (s.bay b).inhibits ||| BitVec.twoPow 9 Inhibit.called.bit, grant := 0
            reduction := decide (0 < (s.bay b).grant) || (s.bay b).reduction
            confirmTimer := if 0 < (s.bay b).grant ∧ (s.bay b).reduction = false then some s.site.confirmTimeout
              else (s.bay b).confirmTimer } ∧
          (∀ v, t.drawOf v = if v = w then some ⟨i, s.matchingEntry w k⟩ else s.drawOf v) ∧
          (∀ c, t.recall c = if c = clusterOf b then
            s.recall c ++ [⟨b, i, (s.record i).tag, w, (s.clock.map (·.minute)).getD 0⟩] else s.recall c) ∧
          (∀ e, t.entry e = { s.entry e with
            status := if s.matchingEntry w k = some e then .called else (s.entry e).status
            reserved := if (s.record i).reservation = some e ∨ s.matchingEntry w k = some e then none
              else (s.entry e).reserved }) ∧
          (∀ n j, hasFlag (t.queue n) j = (hasFlag (s.queue n) j && decide (j ≠ i))) ∧
          t.passMark = (s.passMark || (s.bay b).eligible || cleared) ∧ t.planMark = (s.planMark || cleared) ∧
          (∀ j, other = some j → ∀ q, hasFlag (t.port q).marks (groupOf j) = true) ∧
          (∀ q, hasFlag (t.port q).marks (groupOf i) = true) ∧
          (∀ q, q ≠ p → PortMoves (s.port q) (t.port q)) ∧ (t.port p).lastResult = r ∧
          (t.port p).out = (s.port p).lastResult.byte :: [0xFF, 0xFF, 0xA5, r.byte, BitVec.ofNat 8 i.val] ++
            be 4 (s.record i).tag.toNat ++ [BitVec.ofNat 8 b.val] ++ be 1 (s.record i).percent ∧
          ∀ q, (s.port q).role.takes .recall (.cluster (clusterOf b)) = true →
            hasFlag (t.port q).raised NoticeKind.recall.bit = true

/-- R163, R164: CANCEL_DRAW on a sound roster. The called pack is READY again in DONE and DOCKED otherwise, the bay loses CALLED and keeps its
grant, the recall leaves its queue, the draw's entry returns to IDLE, and a planning pass is requested. -/
def Obligations.CancelDrawReturnsThePack : Prop :=
  ∀ (p : PortId) (params : List Byte) (s : State), s.accepts p rowCancelDraw params = true → s.sound →
    (byteAt params 0 = 0 ∨ 64 ≤ byteAt params 0 →
      exec (.cancelDraw p params) s = .next (s.setPort p ((s.port p).wrote params .range))) ∧
    ∀ w : SweeperId, byteAt params 0 = w.val → w ≠ 0 →
      (s.drawOf w = none → exec (.cancelDraw p params) s = .next (s.setPort p ((s.port p).wrote params .state))) ∧
      ∀ (d : Draw) (b : BayId), s.drawOf w = some d → (s.record d.slot).bay = some b →
        (∀ v, (s.drawOf v).map (·.slot) = some d.slot → v = w) →
        ∃ t, exec (.cancelDraw p params) s = .next t ∧
          (∀ j, j ≠ d.slot → t.record j = s.record j) ∧ (∀ a, a ≠ b → t.bay a = s.bay a) ∧
          t.record d.slot = { s.record d.slot with
            lifecycle := if (s.bay b).stage = .done then .ready else .docked
            sweeper := none
            readySince := if (s.bay b).stage = .done then some ((s.clock.map (·.minute)).getD 0)
              else (s.record d.slot).readySince } ∧
          t.bay b = { s.bay b with
            inhibits := (s.bay b).inhibits &&& ~~~ BitVec.twoPow 9 Inhibit.called.bit } ∧
          (∀ v, t.drawOf v = if v = w then none else s.drawOf v) ∧
          (∀ c, t.recall c = (s.recall c).filter fun r => r.slot != d.slot) ∧
          (∀ e, t.entry e = if d.entry = some e ∧ (s.entry e).status = .called then { s.entry e with status := .idle }
            else s.entry e) ∧
          (∀ n j, hasFlag (t.queue n) j = (hasFlag (s.queue n) j ||
            decide ((s.bay b).stage = .done ∧ n = (s.record d.slot).profile ∧ j = d.slot))) ∧
          t.planMark = true ∧ (t.port p).lastResult = .ok ∧
          ∀ q, (s.port q).role = .depot ∨ (s.port q).role = .observer →
            hasFlag (t.port q).raised NoticeKind.draw.bit = true

/-- R12, R13, R14, R15, R16, R46, R150, R163: QUARANTINE, RELEASE and FORGET on a sound roster. A slot above 63 is refused with RANGE, and a record that
the command does not apply to with STATE. A quarantined pack's reservation is cleared, it leaves its ready queue, and a CALLED one's
draw is voided. A forgotten record becomes FREE, its bay UNLISTED, and the lowest-numbered UNLISTED bay is listed into the slot. -/
def Obligations.RosterCommandsMoveTheRecord : Prop :=
  ∀ (p : PortId) (params : List Byte) (s : State),
    (64 ≤ byteAt params 0 → ∀ (c : Instr) (row : CommandRow), c.transaction = some (p, row, params) →
      row ∈ [rowQuarantine, rowRelease, rowForget] → s.accepts p row params = true →
      exec c s = .next (s.setPort p ((s.port p).wrote params .range))) ∧
  ∀ i : SlotId, s.sound → byteAt params 0 = i.val →
    let r := s.record i
    let rosterNoticed (t : State) : Prop := ∀ q, (s.port q).role = .depot ∨ (s.port q).role = .observer →
      hasFlag (t.port q).raised NoticeKind.roster.bit = true
    (s.accepts p rowQuarantine params = true →
      (r.lifecycle = .free ∨ r.lifecycle = .quarantined →
        exec (.quarantine p params) s = .next (s.setPort p ((s.port p).wrote params .state))) ∧
      (r.lifecycle ≠ .free → r.lifecycle ≠ .quarantined →
        (r.lifecycle = .called → ∃ w, ∀ v, (s.drawOf v).map (·.slot) = some i ↔ v = w) →
        let held := (r.lifecycle = .docked ∨ r.lifecycle = .ready) ∧ r.reservation.isSome = true
        ∃ t, exec (.quarantine p params) s = .next t ∧
          (∀ j, j ≠ i → t.record j = s.record j) ∧
          t.record i = { r with
            lifecycle := .quarantined, sweeper := none, reservation := none, readySince := none, reason := some .operator } ∧
          (∀ a, r.bay ≠ some a → t.bay a = s.bay a) ∧
          (∀ b, r.bay = some b → (t.bay b).carries .quarantine = true ∧ (t.bay b).carries .called = false ∧
            (t.bay b).grant = 0 ∧ (t.bay b).allowance = (s.bay b).allowance ∧ (t.bay b).stage = (s.bay b).stage) ∧
          (∀ n j, hasFlag (t.queue n) j = (hasFlag (s.queue n) j && !decide (r.lifecycle = .ready ∧ j = i))) ∧
          (r.lifecycle ≠ .called → t.draws = s.draws ∧ t.recalls = s.recalls ∧ ∀ e, t.entry e =
            if held ∧ r.reservation = some e then { s.entry e with reserved := none } else s.entry e) ∧
          (r.lifecycle = .called →
            (∀ v, t.drawOf v = if (s.drawOf v).map (·.slot) = some i then none else s.drawOf v) ∧
            (∀ c, t.recall c = (s.recall c).filter fun x => x.slot != i) ∧
            (∀ e, t.entry e = if (∃ v, s.drawOf v = some ⟨i, some e⟩) ∧ (s.entry e).status = .called then
              { s.entry e with status := .idle } else s.entry e) ∧
            ∀ q, ((s.port q).role = .depot ∨ (s.port q).role = .observer →
                hasFlag (t.port q).raised NoticeKind.draw.bit = true) ∧
              ∀ x, s.recallOf i = some x → (s.port q).role.takes .recall (.cluster (clusterOf x.bay)) = true →
                hasFlag (t.port q).raised NoticeKind.recall.bit = true) ∧
          t.passMark = (s.passMark || decide held || r.bay.any fun b => (s.bay b).eligible) ∧
          t.planMark = true ∧ (t.port p).lastResult = .ok ∧ rosterNoticed t)) ∧
    (s.accepts p rowRelease params = true →
      (r.lifecycle ≠ .quarantined ∨ r.reason = some .damaged →
        exec (.release p params) s = .next (s.setPort p ((s.port p).wrote params .state))) ∧
      (r.lifecycle = .quarantined → r.reason ≠ some .damaged →
        ∃ t, exec (.release p params) s = .next t ∧
          (∀ j, j ≠ i → t.record j = s.record j) ∧ (t.record i).reason = none ∧
          (r.bay = none → (t.record i).lifecycle = .stored ∧ t.bays = s.bays) ∧
          (∀ b, r.bay = some b →
            (∀ a, a ≠ b → t.bay a = s.bay a) ∧ (t.bay b).carries .quarantine = false ∧
            (t.bay b).grant = (s.bay b).grant ∧
            ((s.bay b).stage ≠ .done → (t.record i).lifecycle = .docked) ∧
            ((s.bay b).stage = .done → (t.record i).lifecycle = .ready ∧
              (t.record i).readySince = some ((s.clock.map (·.minute)).getD 0) ∧
              hasFlag (t.queue r.profile) i = true)) ∧
          t.planMark = true ∧ (t.port p).lastResult = .ok ∧ rosterNoticed t)) ∧
    (s.accepts p rowForget params = true →
      let forgettable : Prop := r.lifecycle = .stored ∨ r.lifecycle = .quarantined ∧ (r.bay = none ∨ r.reason = some .damaged)
      let waits (a : BayId) : Prop := (s.bay a).carries .unlisted = true ∨ r.bay = some a
      (¬ forgettable → exec (.forget p params) s = .next (s.setPort p ((s.port p).wrote params .state))) ∧
      (forgettable → (∀ a, ¬ waits a) →
        ∃ t, exec (.forget p params) s = .next t ∧ t = { s with records := t.records, ports := t.ports } ∧
          (∀ j, j ≠ i → t.record j = s.record j) ∧ t.record i = freeRecord ∧
          ∀ q, t.port q = atPorts (fun y => { y with marks := y.marks ||| BitVec.twoPow 8 (groupOf i) }) p
            (·.wrote params .ok) q (s.port q)) ∧
      ∀ u, forgettable → waits u → (∀ a, a < u → ¬ waits a) →
        ∃ t, exec (.forget p params) s = .next t ∧
          (∀ j, j ≠ i → t.record j = s.record j) ∧ (∀ a, a ≠ u → r.bay ≠ some a → t.bay a = s.bay a) ∧
          t.record i = { freeRecord with
            tag := (s.bay u).tag, profile := (s.bay u).profile, lifecycle := .docked, bay := some u
            capacity := (s.profile (s.bay u).profile).rated, seen := s.seenCounter } ∧
          (t.bay u).slot = some i ∧ (t.bay u).carries .unlisted = false ∧ (t.bay u).tag = (s.bay u).tag ∧
          (t.bay u).stage = (if (s.bay u).carries .profile = true ∨ 0 < (s.profile (s.bay u).profile).rated *
            (s.profile (s.bay u).profile).absorbPoint / 100 then .bulk else .absorb) ∧
          (∀ b, r.bay = some b → (t.bay b).carries .quarantine = false ∧ (t.bay b).session = 0 ∧ (t.bay b).grant = 0 ∧
            (t.bay b).restEnd = none ∧ (t.bay b).equaliseEnd = none ∧
            (b ≠ u → (t.bay b).slot = none ∧ (t.bay b).carries .unlisted = true ∧ (t.bay b).stage = .bulk ∧
              (t.bay b).tag = (s.bay b).tag)) ∧
          t.seenCounter = s.seenCounter ∧ t.planMark = true ∧ (t.port p).lastResult = .ok ∧ rosterNoticed t)

/-! ### Counters, the clock and the timers -/

/-- R37, R64, R80, R81, R82, R133, R143, R151: LATCH_COUNTERS copies every bay's counters to their images, sets them to 0 and advances the latch
number, wrapping at 65535. An event counted adds 1, and the one that reaches 65535 sets the saturated mark and raises COUNTER; a counter there
stays. A minute change does the same where the latch mode is AUTO and the minute is a shift start, and on a sound
roster takes a planning pass, the pass that PlanningReservationsAgree states, which answers every request made by then; it is no event
where none is awaited: the model's choice (notes/assumptions/4.md, 5.md and 36.md). -/
def Obligations.LatchesCopyTheCounters : Prop :=
  let latched (x : Bay) : Bay := { x with images := x.counters, counters := Vector.replicate 5 ⟨0, false⟩ }
  let next (n : Nat) : Nat := if n < 65535 then n + 1 else 0
  (∀ (p : PortId) (s : State), s.accepts p rowLatchCounters [] = true →
    ∃ t, exec (.latchCounters p) s = .next t ∧
      t = { s with bays := t.bays, latchNumber := next s.latchNumber, ports := t.ports } ∧
      (∀ b, t.bay b = latched (s.bay b)) ∧ ∀ q, t.port q = if q = p then (s.port q).wrote [] .ok else s.port q) ∧
  (∀ c : CounterCell, (c.value < 65535 → c.counted = ⟨c.value + 1, c.saturated || decide (c.value + 1 = 65535)⟩) ∧
    (65535 ≤ c.value → c.counted = c)) ∧
  (∀ (s : State) (b : BayId) (k : EventCounter),
    let n := ((s.bay b).counters[k.place]).value
    let t := s.count b k
    t = { s with bays := t.bays, ports := t.ports } ∧ (∀ a, a ≠ b → t.bay a = s.bay a) ∧
      t.bay b = { s.bay b with counters := (t.bay b).counters } ∧
      (t.bay b).counters[k.place] = ((s.bay b).counters[k.place]).counted ∧
      (∀ j : Fin 5, j ≠ k.place → (t.bay b).counters[j] = (s.bay b).counters[j]) ∧
      ∀ q, t.port q = if n + 1 = 65535 then (s.port q).deliver .counter (.bay b) else s.port q) ∧
  ∀ s : State,
    (s.phase ≠ .running ∨ s.minuteDue = none → exec .clockMinuteChange s = .next s) ∧
    ∀ m, s.phase = .running → s.minuteDue = some m → s.sound →
      ∃ t, exec .clockMinuteChange s = .next t ∧ t.minuteDue = none ∧ t.planMark = false ∧ t.clock = s.clock ∧
        t.site = s.site ∧ t.supply = s.supply ∧ t.profiles = s.profiles ∧ t.readyQueues = s.readyQueues ∧
        t.draws = s.draws ∧ t.recalls = s.recalls ∧ t.pendingList = s.pendingList ∧
        ({ s with minuteDue := none, bays := t.bays, latchNumber := t.latchNumber } : State).PlannedTo t ∧
        (s.site.latchMode = .auto → (∃ k : Fin 4, s.site.shiftStarts[k] = m % 1440) →
          (∀ b, t.bay b = latched (s.bay b)) ∧ t.latchNumber = next s.latchNumber) ∧
        ((s.site.latchMode = .manual ∨ ∀ k : Fin 4, s.site.shiftStarts[k] ≠ m % 1440) →
          t.bays = s.bays ∧ t.latchNumber = s.latchNumber)

/-- R17, R19, R20, R37, R64, R87, R92, R94, R102, R119, R133: TIMEBASE_SECOND counts every count up and every timer down by one second, and the
clock on by one; each second of a ramp is judged against the pass figure; the second's scrub visit falls due, in the model's own mark
(notes/assumptions/37.md). During the scan and under RESET nothing counts.
A timer stays at 0 until its expiry is taken (notes/assumptions/5.md and 26.md). A record struck by an upset keeps its stored fields, and a check of it will find one bad bit or two (notes/assumptions/6.md). -/
def Obligations.SecondMovesEveryTimer : Prop :=
  ∀ (upsets : List (SlotId × Upset)) (s : State),
    ∃ t, exec (.timebaseSecond upsets) s = .next t ∧
      (s.phase ≠ .running → t = { s with checks := t.checks }) ∧
      (s.phase = .running →
        t = { s with
          checks := t.checks, clock := t.clock, minuteDue := t.minuteDue, bays := t.bays, passMark := t.passMark
          scrubDue := true
          supply := { s.supply with
            age := s.supply.age.map fun n => if n < 65535 then n + 1 else n
            windDown := s.supply.windDown.map fun n => n - 1
            elapsed := if s.supply.hold = .ramping then
              s.supply.elapsed.map fun n => if n < s.site.rampTime then n + 1 else n else s.supply.elapsed }
          periodTimer := s.periodTimer.map fun n => n - 1 } ∧
        (∀ b, t.bay b = { s.bay b with
          sinceReport := if (s.bay b).last.isSome = true ∧ (s.bay b).sinceReport < 65535 then (s.bay b).sinceReport + 1
            else (s.bay b).sinceReport
          silence := if (s.bay b).stage ≠ .empty ∧ (s.bay b).silence < 65535 then (s.bay b).silence + 1
            else (s.bay b).silence
          restEnd := (s.bay b).restEnd.map fun n => n - 1
          equaliseEnd := (s.bay b).equaliseEnd.map fun n => n - 1
          confirmTimer := (s.bay b).confirmTimer.map fun n => n - 1
          holdEnd := (s.bay b).holdEnd.map fun n => n - 1 }) ∧
        (s.clock = none → t.clock = none ∧ t.minuteDue = s.minuteDue) ∧
        (∀ c, s.clock = some c → c.second < 59 →
          t.clock = some { c with second := c.second + 1 } ∧ t.minuteDue = s.minuteDue) ∧
        (∀ c, s.clock = some c → 59 ≤ c.second →
          t.clock = some ⟨if c.minute < 10079 then c.minute + 1 else 0, 0⟩ ∧
            t.minuteDue = some (if c.minute < 10079 then c.minute + 1 else 0)) ∧
        t.passMark = (s.passMark || (decide (s.supply.hold = .ramping) && decide (t.budget < s.supply.passFigure)))) ∧
      ∀ i, let hits := upsets.filter fun u => u.1 = i
        (hits = [] → t.check i = s.check i) ∧
        (∀ u, hits = [u] → s.check i = .clean → t.check i = (match u.2 with
          | .oneBit => .oneBit
          | .twoBits => .twoBits)) ∧
        (hits ≠ [] → s.check i ≠ .clean ∨ 2 ≤ hits.length → t.check i = .twoBits)

/-- R40, R66, R67, R80: a bay that has been silent for the report timeout becomes SILENT and keeps its grant; one that has been silent for the
lost timeout becomes LOST with FAULT, and its grant goes to 0 as a reduction. Neither is an event before it is due, and a bay still in
NORMAL passes through SILENT to LOST: the model's readings (notes/assumptions/4.md, 16.md and 27.md). -/
def Obligations.SilenceTakesTheBay : Prop :=
  ∀ (s : State) (b : BayId),
    let x := s.bay b
    let probed : Option Nat := if x.stall = .probation then some 0 else x.probation
    let follows (t : State) : Prop :=
      t = { s with
        bays := t.bays, ports := t.ports, passMark := s.passMark || x.eligible
        pendingList := if x.eligible then s.pendingList.filter fun y => y.bay != b else s.pendingList } ∧
      (∀ a, a ≠ b → t.bay a = s.bay a) ∧ (∀ q, PortMoves (s.port q) (t.port q)) ∧
      (∀ k : Fin 5, k ≠ EventCounter.silence.place → (t.bay b).counters[k] = x.counters[k])
    let silentDue := s.phase = .running ∧ x.stage ≠ .empty ∧ x.report = .normal ∧ s.site.reportTimeout ≤ x.silence
    let lostDue := s.phase = .running ∧ x.stage ≠ .empty ∧ x.report ≠ .lost ∧ s.site.lostTimeout ≤ x.silence
    (silentDue → ∃ t, exec (.reportTimeoutSilent b) s = .next t ∧ follows t ∧
      t.bay b = { x with report := .silent, stallStreak := 0, probation := probed, counters := (t.bay b).counters } ∧
      (t.bay b).counters[EventCounter.silence.place] = (x.counters[EventCounter.silence.place]).counted ∧
      ∀ q, (s.port q).role.takes .bay (.bay b) = true →
        hasFlag (t.port q).raised NoticeKind.bay.bit = true ∧ hasFlag (t.port q).summary b = true) ∧
    (¬ silentDue → exec (.reportTimeoutSilent b) s = .next s) ∧
    (lostDue → ∃ t, exec (.lostTimeout b) s = .next t ∧ follows t ∧
      t.bay b = { x with
        report := .lost, stallStreak := 0, probation := probed, counters := (t.bay b).counters
        inhibits := x.inhibits ||| BitVec.twoPow 9 Inhibit.fault.bit, grant := 0
        reduction := decide (0 < x.grant) || x.reduction
        confirmTimer := if 0 < x.grant ∧ x.reduction = false then some s.site.confirmTimeout else x.confirmTimer } ∧
      (t.bay b).counters[EventCounter.silence.place] = (if x.report = .normal then
        (x.counters[EventCounter.silence.place]).counted else x.counters[EventCounter.silence.place]) ∧
      ∀ q, (s.port q).role.takes .fault (.bay b) = true →
        hasFlag (t.port q).raised NoticeKind.fault.bit = true ∧ hasFlag (t.port q).summary b = true) ∧
    (¬ lostDue → exec (.lostTimeout b) s = .next s)

/-- R39, R40, R59, R60, R75, R153: the ends of a stall hold, of an equalise and of a rest, on a sound roster. The hold gives way to
PROBATION; the equalise clears the charges since equalise and leads to RESTING, or to DONE where there is no rest; the rest leads to
DONE. A bay that reaches DONE makes its DOCKED pack READY. None is an event before its timer has run out: the model's choice
(notes/assumptions/4.md and 5.md). -/
def Obligations.StageTimersEnd : Prop :=
  ∀ (s : State) (b : BayId),
    let x := s.bay b
    let lowered : Bay := { x with
      grant := 0, reduction := decide (0 < x.grant) || x.reduction
      confirmTimer := if 0 < x.grant ∧ x.reduction = false then some s.site.confirmTimeout else x.confirmTimer }
    let rest := (s.profile x.profile).restMinutes
    let arrived (r : PackRecord) (i : SlotId) (t : State) : Prop :=
      (r.lifecycle = .docked →
        t.record i = { r with lifecycle := .ready, readySince := some ((s.clock.map (·.minute)).getD 0) } ∧
        (∀ k j, hasFlag (t.queue k) j = (hasFlag (s.queue k) j || decide (k = r.profile ∧ j = i))) ∧ t.planMark = true ∧
        ∀ q, (s.port q).role = .depot ∨ (s.port q).role = .observer →
          hasFlag (t.port q).raised NoticeKind.ready.bit = true) ∧
      (r.lifecycle ≠ .docked → t.record i = r ∧ t.readyQueues = s.readyQueues ∧ t.planMark = s.planMark)
    (s.phase = .running → x.holdEnd = some 0 →
      ∃ t, exec (.stallHoldEnd b) s = .next t ∧
        t = { s with bays := t.bays, ports := t.ports, passMark := s.passMark || ((t.bay b).eligible && !x.eligible) } ∧
        (∀ a, a ≠ b → t.bay a = s.bay a) ∧
        t.bay b = { x with
          stall := .probation, probation := some 0, holdEnd := none
          inhibits := x.inhibits &&& ~~~ BitVec.twoPow 9 Inhibit.stallHold.bit } ∧
        ∀ q, t.port q = (s.port q).deliver .bay (.bay b)) ∧
    (s.phase ≠ .running ∨ x.holdEnd ≠ some 0 → exec (.stallHoldEnd b) s = .next s) ∧
    (∀ i, s.phase = .running → x.equaliseEnd = some 0 → s.sound → x.slot = some i →
      ∃ t, exec (.equaliseEnd b) s = .next t ∧ (∀ a, a ≠ b → t.bay a = s.bay a) ∧ (∀ j, j ≠ i → t.record j = s.record j) ∧
        t.passMark = (s.passMark || x.eligible) ∧
        (0 < rest → t.bay b = { lowered with stage := .resting, equaliseEnd := none, restEnd := some (min 240 rest * 60) } ∧
          t.record i = { s.record i with sinceEqualise := 0 } ∧ t.readyQueues = s.readyQueues) ∧
        (rest = 0 → t.bay b = { lowered with stage := .done, equaliseEnd := none } ∧
          arrived { s.record i with sinceEqualise := 0 } i t)) ∧
    (s.phase ≠ .running ∨ x.equaliseEnd ≠ some 0 → exec (.equaliseEnd b) s = .next s) ∧
    (∀ i, s.phase = .running → x.restEnd = some 0 → s.sound → x.slot = some i →
      ∃ t, exec (.restEnd b) s = .next t ∧ (∀ a, a ≠ b → t.bay a = s.bay a) ∧ (∀ j, j ≠ i → t.record j = s.record j) ∧
        t.passMark = (s.passMark || x.eligible) ∧ t.bay b = { lowered with stage := .done, restEnd := none } ∧
        arrived (s.record i) i t) ∧
    (s.phase ≠ .running ∨ x.restEnd ≠ some 0 → exec (.restEnd b) s = .next s)

/-- R39, R40, R69, R80, R126, R129: the confirm timer of a bay expires. The reduction is resolved with the allowance still held, the timeout
is counted, a bay that is not EMPTY gains FAULT and loses its grant without a new reduction, and where no reduction is left unresolved the
pending list, less the bay's own increase, is released. It is no event before the timer has run out: the model's choice
(notes/assumptions/4.md and 5.md). -/
def Obligations.ConfirmTimerGivesUp : Prop :=
  ∀ (s : State) (b : BayId),
    let x := s.bay b
    let waiting := if x.eligible then s.pendingList.filter fun y => y.bay != b else s.pendingList
    let released := ∀ a, a ≠ b → (s.bay a).reduction = false
    (s.phase = .running → x.confirmTimer = some 0 →
      ∃ t, exec (.confirmTimerExpiry b) s = .next t ∧
        let resolved : Bay := { x with reduction := false, confirmTimer := none, counters := (t.bay b).counters }
        let left : Bay := if x.stage = .empty then resolved else { resolved with
          grant := 0, inhibits := x.inhibits ||| BitVec.twoPow 9 Inhibit.fault.bit }
        t = { s with
          bays := t.bays, ports := t.ports, passMark := s.passMark || x.eligible
          pendingList := t.pendingList } ∧
        (¬ released → t.pendingList = waiting ∧ ∀ a, t.bay a = if a = b then left else s.bay a) ∧
        (released → t.pendingList = [] ∧ ReleaseWalk waiting (s.setBay b left) t ∧ (s.setBay b left).grantsNoticed t) ∧
        (x.stage ≠ .empty →
          (∀ q, (s.port q).role.takes .fault (.bay b) = true → hasFlag (t.port q).raised NoticeKind.fault.bit = true) ∧
          (0 < x.grant → ∀ q, (s.port q).role.takes .grant (.bay b) = true →
            hasFlag (t.port q).raised NoticeKind.grant.bit = true)) ∧
        (t.bay b).counters[EventCounter.confirmTimeout.place] =
          (x.counters[EventCounter.confirmTimeout.place]).counted ∧
        (∀ k : Fin 5, k ≠ EventCounter.confirmTimeout.place → (t.bay b).counters[k] = x.counters[k]) ∧
        ∀ q, PortMoves (s.port q) (t.port q)) ∧
    (s.phase ≠ .running ∨ x.confirmTimer ≠ some 0 → exec (.confirmTimerExpiry b) s = .next s)

/-- R87, R90, R92, R94: a FRESH meter whose reading is 11 seconds old becomes STALE, a wind-down that has run out leads to HELD, and a ramp
whose time has passed to RUNNING; each raises SUPPLY and requests a pass where the budget figure falls below the pass figure. None is
an event before it is due: the model's choice (notes/assumptions/4.md, 5.md and 27.md). -/
def Obligations.SupplyTimersEnd : Prop :=
  ∀ s : State,
    let moved (x : Supply) (t : State) : Prop :=
      t = { s with
        supply := x, ports := t.ports
        passMark := s.passMark || decide (({ s with supply := x } : State).budget < s.supply.passFigure) } ∧
      ∀ q, t.port q = (s.port q).deliver .supply .part
    let staleDue := s.phase = .running ∧ s.supply.condition = .fresh ∧ 11 ≤ s.supply.age.getD 0
    let heldDue := s.phase = .running ∧ s.supply.hold = .windingDown ∧ s.supply.windDown = some 0
    let rampDue := s.phase = .running ∧ s.supply.hold = .ramping ∧ s.site.rampTime ≤ s.supply.elapsed.getD 0
    (staleDue → ∃ t, exec .meterStale s = .next t ∧ moved { s.supply with condition := .stale } t) ∧
    (¬ staleDue → exec .meterStale s = .next s) ∧
    (heldDue → ∃ t, exec .windDownEnd s = .next t ∧ moved { s.supply with hold := .held, windDown := none } t) ∧
    (¬ heldDue → exec .windDownEnd s = .next s) ∧
    (rampDue → ∃ t, exec .rampEnd s = .next t ∧ moved { s.supply with hold := .running, elapsed := none } t) ∧
    (¬ rampDue → exec .rampEnd s = .next s)

/-- R7, R17, R18, R19: SCRUB_VISIT accesses the record at the scrub position and moves to the next slot, once in a second: it is no
event where the second's visit has been made, the model's choice (notes/assumptions/4.md and 37.md). A clean record stands; one bad bit is
corrected and counted; two bad bits leave a QUARANTINED record with reason DAMAGED, whose tag, charge and counts are gone, whose
bay is the one that names the slot, and whose seen stamp is left open (notes/assumptions/8.md). -/
def Obligations.ScrubVisitChecksARecord : Prop :=
  ∀ s : State,
    let i := s.scrub
    (s.phase ≠ .running ∨ s.scrubDue = false → exec .scrubVisit s = .next s) ∧
    (s.phase = .running → s.scrubDue = true → ∃ t, exec .scrubVisit s = .next t ∧
      t.scrub.val = (s.scrub.val + 1) % 64 ∧ t.scrubDue = false ∧
      t.check i = .clean ∧ (∀ j, j ≠ i → t.check j = s.check j ∧ t.record j = s.record j) ∧
      (s.check i = .clean → t = { s with scrub := t.scrub, scrubDue := false }) ∧
      (s.check i = .oneBit →
        t = { s with
          scrub := t.scrub, scrubDue := false, checks := t.checks, ports := t.ports
          corrected := if s.corrected < 65535 then s.corrected + 1 else s.corrected } ∧
        ∀ q, t.port q = if s.corrected = 65534 then (s.port q).deliver .roster .part else s.port q) ∧
      (s.check i = .twoBits →
        t.record i = { freeRecord with
          profile := (t.record i).profile, lifecycle := .quarantined, bay := (t.record i).bay, reason := some .damaged
          capacity := (s.profile (t.record i).profile).rated, seen := (t.record i).seen } ∧
        (∀ b, (s.bay b).slot = some i → (∀ a, (s.bay a).slot = some i → a = b) →
          (t.record i).bay = some b ∧ (t.record i).profile = (s.bay b).profile ∧
            (t.bay b).carries .quarantine = true ∧ (t.bay b).grant = 0 ∧ (t.bay b).slot = some i ∧
            ∀ a, a ≠ b → t.bay a = s.bay a) ∧
        ((∀ b, (s.bay b).slot ≠ some i) →
          (t.record i).bay = none ∧ (t.record i).profile = 0 ∧ t.bays = s.bays) ∧
        (∀ e, (s.entry e).reserved ≠ some i → (s.entry e).reserved = (t.entry e).reserved) ∧
        t.planMark = true ∧ t.corrected = s.corrected ∧
        ∀ q, PortMoves (s.port q) (t.port q) ∧ hasFlag (t.port q).marks (groupOf i) = true ∧
          ((s.port q).role = .depot ∨ (s.port q).role = .observer →
            hasFlag (t.port q).raised NoticeKind.roster.bit = true)))

/-! ### The passes -/

/-- R100, R101, R102, R116, R121, R122, R129: an allocation pass, requested or at the end of the period. Every bay has one target; a
target below an eligible bay's grant lowers it as a reduction; one above it waits on the pending list while any reduction is
unresolved, and where none is the list is released in its order: each grant rises to its target where the total allowance power as
the walk has left it fits the budget figure, else to the largest step that fits, else not at all. The pass figure takes the budget
figure. A pass that is not due is no event: the model's choice (notes/assumptions/4.md). -/
def Obligations.PassesHandOverTheirTargets : Prop :=
  ∀ s : State,
    let lowers := ∃ x ∈ s.targets, (s.bay x.bay).eligible = true ∧ x.current < (s.bay x.bay).grant
    let waits := lowers ∨ ∃ b, (s.bay b).reduction = true
    let increases : List Increase := (s.targets.filter fun x =>
      (s.bay x.bay).eligible && decide ((s.bay x.bay).grant < x.current)).map fun x => ⟨x.bay, x.current⟩
    let passed (timer : Option Nat) (t : State) : Prop :=
      t = { s with
        supply := { s.supply with passFigure := s.budget }, passMark := false, periodTimer := timer
        bays := t.bays, pendingList := t.pendingList, ports := t.ports } ∧
      (∀ b, (s.bay b).eligible = false → t.bay b = s.bay b) ∧
      (∀ x ∈ s.targets, (s.bay x.bay).eligible = true →
        (x.current < (s.bay x.bay).grant → t.bay x.bay = { s.bay x.bay with
          grant := x.current, reduction := true
          confirmTimer := if (s.bay x.bay).reduction then (s.bay x.bay).confirmTimer else some s.site.confirmTimeout }) ∧
        (x.current = (s.bay x.bay).grant → t.bay x.bay = s.bay x.bay) ∧
        ((s.bay x.bay).grant < x.current → waits → t.bay x.bay = s.bay x.bay) ∧
        ((s.bay x.bay).grant < x.current → ¬ waits → (s.bay x.bay).grant ≤ (t.bay x.bay).grant ∧
          (t.bay x.bay).grant ≤ x.current ∧
          t.bay x.bay = { s.bay x.bay with
            grant := (t.bay x.bay).grant, allowance := (t.bay x.bay).allowance, power := (t.bay x.bay).power })) ∧
      (waits → t.pendingList = increases) ∧
      (¬ waits → t.pendingList = [] ∧ ReleaseWalk increases s t) ∧
      (∀ q, PortMoves (s.port q) (t.port q)) ∧
      ∀ b q, (t.bay b).grant ≠ (s.bay b).grant → (s.port q).role.takes .grant (.bay b) = true →
        hasFlag (t.port q).raised NoticeKind.grant.bit = true ∧ hasFlag (t.port q).summary b = true
    (s.targets.map fun x => x.bay).Perm (List.finRange 16) ∧
    s.targets = s.filledTargets ++
      ((List.finRange 16).filter fun b => !(s.bay b).eligible).map (fun b => (⟨b, 0⟩ : Target)) ∧
    (∀ x ∈ s.targets, (s.bay x.bay).eligible = false → x.current = 0) ∧
    (s.phase = .running → s.passMark = true → ∃ t, exec .allocationPass s = .next t ∧ passed s.periodTimer t) ∧
    (s.phase ≠ .running ∨ s.passMark = false → exec .allocationPass s = .next s) ∧
    (s.phase = .running → s.periodTimer = some 0 →
      ∃ t, exec .allocationPeriodExpiry s = .next t ∧ passed (some s.site.period) t) ∧
    (s.phase ≠ .running ∨ s.periodTimer ≠ some 0 → exec .allocationPeriodExpiry s = .next s)

/-- R40, R104, R106, R107, R108, R109, R110, R111, R112, R113, R114, R115: the figures of a pass and its fills. The power of a current, the
fixed load and the pool are R104's and R106's. A bay's cap is its derating cap, narrowed by the taper, by EQUALISE and by PROBATION, in
steps of 5, or 0 below the min current; that an EQUALISE bay is capped by an equalise current left unchecked is the model's choice
(notes/assumptions/39.md). A reserved bay's need rate and slack are those of R112's table. The two fills spend no more than the pool: the powers of all their targets together lie within it, and the
pool with the fixed load within the budget figure. A target is a multiple of 5, at most its bay's cap, and 0 or at least the min
current. The fills walk the eligible bays with the least slack first, and then the emptiest, and each target of each fill is the largest
that fits the pool left when the walk reaches its bay. -/
def Obligations.FillsStayWithinThePool : Prop :=
  ∀ s : State,
    (s.filledTargets.map fun x => s.powerOf x.bay x.current).sum ≤ s.pool ∧
    (s.fixedLoad ≤ s.budget → s.pool + s.fixedLoad = s.budget) ∧
    (∀ x ∈ s.filledTargets, (s.bay x.bay).eligible = true ∧ x.current % 5 = 0 ∧ x.current ≤ s.capOf x.bay ∧
      (x.current = 0 ∨ (s.profile (s.bay x.bay).profile).minCurrent ≤ x.current)) ∧
    s.filledTargets.map (fun x => x.bay) = s.allocationOrder ∧
    (∀ b, b ∈ s.allocationOrder ↔ (s.bay b).eligible = true) ∧ s.allocationOrder.Nodup ∧
    (∀ b, (s.bay b).eligible = true ↔ ((s.bay b).stage = .bulk ∨ (s.bay b).stage = .absorb ∨ (s.bay b).stage = .equalise) ∧
      (s.bay b).inhibits = 0 ∧ (s.bay b).report = .normal) ∧
    (∀ b v, s.powerIs b v (s.powerOf b v)) ∧
    s.fixedLoad = ((List.finRange 16).map fun b =>
      if (s.bay b).eligible = false ∨ (s.bay b).reduction = true ∨ (s.bay b).grant < (s.bay b).allowance then (s.bay b).power
      else 0).sum ∧
    (s.budget < s.fixedLoad → s.pool = 0) ∧
    (∀ b i, (s.bay b).slot = some i →
      s.capIs b (s.record i) (s.capOf b) ∧ s.urgencyIs b (s.record i) (s.urgency b) ∧
      (s.dockedRecord b).percent = (s.record i).estimate * 100 / (s.record i).capacity) ∧
    (∀ b, (s.urgency b = none → s.needRate b = 0) ∧ ∀ r d, s.urgency b = some (r, d) → s.needRate b = r) ∧
    (let power (x : Target) : Nat := s.powerOf x.bay x.current
     let least (b : BayId) : Nat := (s.profile (s.bay b).profile).minCurrent
     let firsts := (s.firstFill s.pool s.allocationOrder).2
     firsts.map (fun x => x.bay) = s.allocationOrder ∧
     (∀ pre x post, firsts = pre ++ x :: post →
      let left := s.pool - (pre.map power).sum
      let wanted := if s.needRate x.bay = 0 then 0
        else min (s.capOf x.bay) (max ((s.needRate x.bay + 4) / 5 * 5) (least x.bay))
      x.current ≤ wanted ∧ power x ≤ left ∧ x.current % 5 = 0 ∧ (x.current = 0 ∨ least x.bay ≤ x.current) ∧
        ∀ v, x.current < v → v % 5 = 0 → v ≤ wanted → least x.bay ≤ v → left < s.powerOf x.bay v) ∧
     ∀ pre y x post, firsts.zip s.filledTargets = pre ++ (y, x) :: post →
      let left := s.pool - (firsts.map power).sum - (pre.map fun z => power z.2 - power z.1).sum
      y.current ≤ x.current ∧ power x - power y ≤ left ∧
        ∀ v, x.current < v → v % 5 = 0 → v ≤ s.capOf x.bay → y.current ≠ 0 ∨ least x.bay ≤ v →
          left < s.powerOf x.bay v - power y) ∧
    s.allocationOrder.Pairwise fun a b =>
      match s.urgency a, s.urgency b with
      | some (_, none), some (_, none) => a ≤ b
      | some (_, none), some (_, some _) => True
      | some (_, some _), some (_, none) => False
      | some (_, some u), some (_, some v) => u < v ∨ u = v ∧ a ≤ b
      | some _, none => True
      | none, some _ => False
      | none, none => (s.dockedRecord a).percent < (s.dockedRecord b).percent ∨
          (s.dockedRecord a).percent = (s.dockedRecord b).percent ∧ a ≤ b

/-- R104, R105, R122, R123, R124, R126, R129: a grant rises only at a REPORT or a GRANT_ACK, at an allocation pass, requested or at the end of
the period, or at a confirm timeout, the events that release, and no release raises the total allowance power above the budget figure:
whichever of them raises a grant leaves the total within it; and so does a report or an acknowledgement for one bay that raises the allowance power of another. A pass, at a request or at the end of
the period, and a timeout leave the total at or below what it was or within the figure, and if they raise the allowance power of
any bay, within the figure. -/
def Obligations.ReleasesKeepTheBudget : Prop :=
  (∀ (c : Instr) (s t : State), exec c s = .next t → ∀ a, (s.bay a).grant < (t.bay a).grant → t.withinBudget ∧
    ((∃ p params, c = .report p params ∨ c = .grantAck p params) ∨ c = .allocationPass ∨ c = .allocationPeriodExpiry ∨
      ∃ b, c = .confirmTimerExpiry b)) ∧
  (∀ (p : PortId) (params : List Byte) (s t : State) (b : BayId), s.localBay p (byteAt params 0) = some b →
    exec (.report p params) s = .next t ∨ exec (.grantAck p params) s = .next t →
      t.budget = s.budget ∧ ∀ a, a ≠ b → (s.bay a).power < (t.bay a).power → t.withinBudget) ∧
  ∀ (s t : State) (b : BayId),
    exec .allocationPass s = .next t ∨ exec .allocationPeriodExpiry s = .next t ∨
        exec (.confirmTimerExpiry b) s = .next t →
      t.budget = s.budget ∧ t.totalPower ≤ max s.totalPower s.budget ∧ (s.withinBudget → t.withinBudget) ∧
        ∀ a, (s.bay a).power < (t.bay a).power → t.withinBudget

/-- R111, R142, R143, R144, R145, R146, R147, R148, R149: a planning pass on a sound roster. An entry's window and its seconds to departure are those
of R142 and R111. Settlement gives every entry its status, reservation and
renewal mark by its window. The entries in a window are then planned, the DUE ones longest past first and the ACTIVE ones nearest first:
each takes the pack it had reserved where that makes it, else the first by the rotation key among those that make it (PLANNED), else the
one of least projected time (LATE), and only with no candidate none (SHORT); a candidate is free of the entries before it, DOCKED or READY,
of the entry's valid profile, in a bay without FAULT, and can be projected. The two sides of every reservation agree afterwards, an
allocation pass is requested exactly where one changed, and SHORT is raised exactly where an entry becomes MISSED, SHORT or LATE. A pass
that is not due is no event: the model's choice (notes/assumptions/4.md); so it is while a minute change awaits its pass, which answers the
request (notes/assumptions/36.md). -/
def Obligations.PlanningReservationsAgree : Prop :=
  ∀ s : State,
    (s.phase ≠ .running ∨ s.planMark = false ∨ s.clock = none ∨ s.minuteDue ≠ none → exec .planningPass s = .next s) ∧
    (s.phase = .running → s.planMark = true → s.clock ≠ none → s.minuteDue = none → s.sound →
      ∃ t, exec .planningPass s = .next t ∧ s.PlannedTo t ∧
        (∀ e i, (t.entry e).reserved = some i →
          ((s.record i).lifecycle = .docked ∨ (s.record i).lifecycle = .ready) ∧
          (s.record i).profile.val = (s.entry e).profile ∧ (s.profile (s.record i).profile).valid = true ∧
          ∃ b, (s.record i).bay = some b ∧ (s.bay b).carries .fault = false) ∧
        (∀ e, s.misses e → (t.entry e).status = .missed ∧ (t.entry e).reserved = none)) ∧
    (∀ e, (s.clock = none ∨ (s.entry e).valid = false → s.windowOf e = none) ∧
      ∀ c, s.clock = some c → (s.entry e).valid = true →
        (∃ w, s.windowOf e = some w ∧ (s.entry e).standsIn s.site c.minute w) ∧
        (s.entry e).departsIn s.site c (s.departureIn e) ∧
        (s.entry e).timeSince c.minute = minutesFrom (s.entry e).minute c.minute ∧
        (s.entry e).timeTo c.minute = minutesFrom c.minute (s.entry e).minute) ∧
    (∀ e, s.settledEntry e =
      let x := s.entry e
      match s.windowOf e with
      | none => x
      | some .outside => { x with
          status := match x.status with
            | .planned | .short | .late => .missed
            | .served | .missed => if x.weekly then x.status else .finished
            | other => other
          reserved := match x.status with
            | .planned | .short | .late => none
            | _ => x.reserved
          renewal := x.renewal || (x.weekly && x.status != .called && x.status != .finished) }
      | some _ => if x.weekly = true ∧ x.renewal = true ∧ x.status ≠ .called then { x with status := .idle, renewal := false } else x) ∧
    ∀ e i n, s.projection e i = some n ↔
      let r := s.record i
      let pr := s.profile r.profile
      let required := ((s.entry e).required * r.capacity + 99) / 100
      (r.lifecycle = .docked ∨ r.lifecycle = .ready) ∧ r.profile.val = (s.entry e).profile ∧ pr.valid = true ∧
        ∃ b, r.bay = some b ∧ (s.bay b).carries .fault = false ∧
          if r.lifecycle = .ready ∨ required ≤ r.estimate then n = 0
          else
            let k := (s.bay b).band
            ∃ f, (pr.factors[k] ≠ 0 → f = pr.factors[k]) ∧
              (pr.factors[k] = 0 → ∃ j : Fin 6, k < j ∧ f = pr.factors[j] ∧ 0 < f ∧
                ∀ m : Fin 6, k < m → m < j → pr.factors[m] = 0) ∧
              pr.minCurrent ≤ pr.maxCurrent * f / 100 ∧
              n = ceilDiv ((required - r.estimate) * 360000) (pr.maxCurrent * f / 100 * pr.acceptance) +
                if pr.factors[k] = 0 then 2700 else 0

/-! ### Layouts -/

/-- R98, R141, R162, R174, R184: the layouts of the records, the tables and the answers of READ_SUPPLY, READ_DEPARTURE and READ_RECALL are R184's, field
by field in its order with its sizes, its marks for what is absent and its codes; the byte for a bay of another cluster is left open
(notes/assumptions/34.md), and the marks of a last report that is absent are clear, the model's choice (notes/assumptions/40.md). They lose
nothing. A profile entry is what its 32 bytes write, and the 32 bytes are what the entry they write
is read as; a departure entry is what its 8 bytes write, but for the status, the renewal mark and the reserved slot, which are not
written. A pack record takes 27 bytes and a bay record 57. -/
def Obligations.TableBytesRoundTrip : Prop :=
  (∀ pr : Profile, pr.family ≤ 255 → pr.nominalVoltage ≤ 65535 → pr.rated ≤ 65535 → pr.maxCurrent ≤ 65535 →
    pr.minCurrent ≤ 65535 → pr.finishCurrent ≤ 65535 → pr.absorbPoint ≤ 255 → pr.acceptance ≤ 255 →
    pr.efficiency ≤ 255 → pr.restMinutes ≤ 255 → pr.equaliseInterval ≤ 255 → pr.equaliseCurrent ≤ 65535 →
    pr.equaliseMinutes ≤ 255 → pr.returnEstimate ≤ 255 →
    (∀ k : Fin 5, -128 ≤ pr.breakpoints[k] ∧ pr.breakpoints[k] ≤ 127) → (∀ k : Fin 6, pr.factors[k] ≤ 255) →
      (profileBytes pr).length = 32 ∧
      ∀ v : Vector Byte 32, v.toList = profileBytes pr → { profileOfBytes v with valid := decide (v[0] ≠ 0) } = pr) ∧
  (∀ v : Vector Byte 32, v[0] = 0 ∨ v[0] = 1 →
    profileBytes { profileOfBytes v with valid := decide (v[0] = 1) } = v.toList) ∧
  (∀ e : Entry, e.sweeper ≤ 255 → e.minute ≤ 65535 → e.profile ≤ 255 → e.required ≤ 255 →
    (entryBytes e).length = 8 ∧
    ∀ v : Vector Byte 8, v.toList = entryBytes e →
      entryOfBytes v = { e with valid := false, status := .idle, reserved := none, renewal := false } ∧
        v[0].getLsbD 7 = e.valid) ∧
  (∀ (i : SlotId) (r : PackRecord), (packBytes i r).length = 27 ∧ spells (packBytes i r) (packFields i r) = true) ∧
  (∀ (s : State) (b : BayId), (s.bayBytes b).length = 57 ∧ spells (s.bayBytes b) (s.bayFields b) = true) ∧
  (∀ pr : Profile, spells (profileBytes pr) (profileFields pr) = true) ∧
  (∀ e : Entry, spells (entryBytes e) (entryFields e) = true) ∧
  (∀ (s : State) (e : EntryId), spells (s.departureBody e) (s.departureFields e) = true) ∧
  (∀ (s : State) (p : PortId), ∃ number : BayId → Nat, (∀ b, s.names p b (number b)) ∧
    spells (s.supplyBody p) (s.supplyFields p number) = true ∧
    ∀ c, spells (s.recallBody p c) (s.recallFields c number) = true) ∧
  (∀ n v : Nat, spells (be n v) [(n, some v)] = true ∧ optionBe n (some v) = be n v ∧
    optionBe n none = List.replicate n 0xFF) ∧
  [Lifecycle.free, .stored, .docked, .ready, .called, .issued, .quarantined].map Lifecycle.code = List.range 7 ∧
  [Reason.operator, .heat, .damaged].map Reason.code = [1, 2, 3] ∧
  [Stage.empty, .bulk, .absorb, .equalise, .resting, .done].map Stage.code = List.range 6 ∧
  [Inhibit.temperature, .restricted, .hold, .profile, .unlisted, .quarantine, .called, .fault, .stallHold].map (·.bit.val) =
    List.range 9 ∧
  [ReportState.normal, .silent, .lost].map ReportState.code = List.range 3 ∧
  [StallState.clear, .holding, .probation].map StallState.code = List.range 3 ∧
  [EventCounter.stall, .overtemp, .silence, .confirmTimeout, .overdraw].map (·.place.val) = List.range 5 ∧
  [EntryStatus.idle, .planned, .short, .late, .called, .served, .missed, .finished].map EntryStatus.code = List.range 8 ∧
  [MeterMode.metered, .unmetered].map MeterMode.code = List.range 2 ∧
  [MeterCondition.empty, .fresh, .stale].map MeterCondition.code = List.range 3 ∧
  [HoldState.running, .windingDown, .held, .ramping].map HoldState.code = List.range 4 ∧
  [NoticeKind.bay, .grant, .fault, .counter, .recall, .ready, .draw, .short, .supply, .roster, .clock, .profile].map
    (·.bit.val) = List.range 12

/-! ### Laws that every step keeps -/

/-- R38, R80, R119, R121, R123: every step keeps each grant a multiple of 5 at or below its allowance, each confirm timer running exactly
while its reduction is unresolved, and each counter in its range with its saturated mark exactly at the end of it. -/
def Obligations.StepKeepsGrantsAndCounters : Prop :=
  ∀ s t : State, step s = .next t → s.grantsCovered → s.countersWhole → t.grantsCovered ∧ t.countersWhole

/-- R38, R39, R40, R67, R127: every step keeps a grant above 0 only at bays in a charging stage without any inhibit and not LOST, and pending
increases only at eligible bays. -/
def Obligations.StepKeepsGrantsEarned : Prop :=
  ∀ s t : State, step s = .next t → s.grantsEarned → t.grantsEarned

/-- R2, R26, R33, R52: every step keeps valid profile entries within their checks, and every record's charge within 110 percent of its
capacity. -/
def Obligations.StepKeepsTablesLawful : Prop :=
  ∀ s t : State, step s = .next t → s.profilesSane → s.recordsLawful → t.profilesSane ∧ t.recordsLawful

/-- R85, R86, R133, R167, R168, R172, R179, R181: every step keeps OFF ports without notices, the bytes a port holds fewer than the entry its
stream is writing, and the site settings, the supply figures and the clock within their ranges. -/
def Obligations.StepKeepsPortsAndSettings : Prop :=
  ∀ s t : State, step s = .next t → (∀ q, (s.port q).silentWhenOff ∧ (s.port q).holdsPart) → s.settingsInRange →
    (∀ q, (t.port q).silentWhenOff ∧ (t.port q).holdsPart) ∧ t.settingsInRange

/-- State.reset is the state that POWER_ON leaves with the straps of notes/assumptions/2.md, the model's choice of straps, and it keeps
every law above. -/
def Obligations.ResetKeepsTheLaws : Prop :=
  exec (.powerOn #v[0, 1, 2, 3, 4, 4]) State.reset = .next State.reset ∧
    State.reset.grantsCovered ∧ State.reset.countersWhole ∧ State.reset.grantsEarned ∧ State.reset.profilesSane ∧
    State.reset.recordsLawful ∧ (∀ q, (State.reset.port q).silentWhenOff ∧ (State.reset.port q).holdsPart) ∧
    State.reset.settingsInRange ∧
    State.reset.withinBudget

end
end

