-- ==== Sys2Proof/Laws/State.lean ====
section
/-!
SUPPORT. The updates of the state: what each of the named writes leaves in every field, true by unfolding one record update.
-/

namespace Sys2Proof.Machine

/-! #### setPort -/

@[simp] theorem State.setPort_pending (s : State) (p : PortId) (x : Port) : (s.setPort p x).pending = s.pending := rfl
@[simp] theorem State.setPort_phase (s : State) (p : PortId) (x : Port) : (s.setPort p x).phase = s.phase := rfl
@[simp] theorem State.setPort_ports (s : State) (p : PortId) (x : Port) : (s.setPort p x).ports = s.ports.set p x := rfl
@[simp] theorem State.setPort_records (s : State) (p : PortId) (x : Port) : (s.setPort p x).records = s.records := rfl
@[simp] theorem State.setPort_checks (s : State) (p : PortId) (x : Port) : (s.setPort p x).checks = s.checks := rfl
@[simp] theorem State.setPort_seenCounter (s : State) (p : PortId) (x : Port) : (s.setPort p x).seenCounter = s.seenCounter := rfl
@[simp] theorem State.setPort_corrected (s : State) (p : PortId) (x : Port) : (s.setPort p x).corrected = s.corrected := rfl
@[simp] theorem State.setPort_scrub (s : State) (p : PortId) (x : Port) : (s.setPort p x).scrub = s.scrub := rfl
@[simp] theorem State.setPort_scrubDue (s : State) (p : PortId) (x : Port) : (s.setPort p x).scrubDue = s.scrubDue := rfl
@[simp] theorem State.setPort_profiles (s : State) (p : PortId) (x : Port) : (s.setPort p x).profiles = s.profiles := rfl
@[simp] theorem State.setPort_bays (s : State) (p : PortId) (x : Port) : (s.setPort p x).bays = s.bays := rfl
@[simp] theorem State.setPort_latchNumber (s : State) (p : PortId) (x : Port) : (s.setPort p x).latchNumber = s.latchNumber := rfl
@[simp] theorem State.setPort_site (s : State) (p : PortId) (x : Port) : (s.setPort p x).site = s.site := rfl
@[simp] theorem State.setPort_supply (s : State) (p : PortId) (x : Port) : (s.setPort p x).supply = s.supply := rfl
@[simp] theorem State.setPort_periodTimer (s : State) (p : PortId) (x : Port) : (s.setPort p x).periodTimer = s.periodTimer := rfl
@[simp] theorem State.setPort_passMark (s : State) (p : PortId) (x : Port) : (s.setPort p x).passMark = s.passMark := rfl
@[simp] theorem State.setPort_pendingList (s : State) (p : PortId) (x : Port) : (s.setPort p x).pendingList = s.pendingList := rfl
@[simp] theorem State.setPort_clock (s : State) (p : PortId) (x : Port) : (s.setPort p x).clock = s.clock := rfl
@[simp] theorem State.setPort_minuteDue (s : State) (p : PortId) (x : Port) : (s.setPort p x).minuteDue = s.minuteDue := rfl
@[simp] theorem State.setPort_planMark (s : State) (p : PortId) (x : Port) : (s.setPort p x).planMark = s.planMark := rfl
@[simp] theorem State.setPort_entries (s : State) (p : PortId) (x : Port) : (s.setPort p x).entries = s.entries := rfl
@[simp] theorem State.setPort_readyQueues (s : State) (p : PortId) (x : Port) : (s.setPort p x).readyQueues = s.readyQueues := rfl
@[simp] theorem State.setPort_recalls (s : State) (p : PortId) (x : Port) : (s.setPort p x).recalls = s.recalls := rfl
@[simp] theorem State.setPort_draws (s : State) (p : PortId) (x : Port) : (s.setPort p x).draws = s.draws := rfl
@[simp] theorem State.setPort_freeUses (s : State) (p : PortId) (x : Port) : (s.setPort p x).freeUses = s.freeUses := rfl
@[simp] theorem State.setPort_record (s : State) (p : PortId) (x : Port) (j : SlotId) : (s.setPort p x).record j = s.record j := rfl
@[simp] theorem State.setPort_check (s : State) (p : PortId) (x : Port) (j : SlotId) : (s.setPort p x).check j = s.check j := rfl
@[simp] theorem State.setPort_profile (s : State) (p : PortId) (x : Port) (j : ProfileId) : (s.setPort p x).profile j = s.profile j := rfl
@[simp] theorem State.setPort_bay (s : State) (p : PortId) (x : Port) (d : BayId) : (s.setPort p x).bay d = s.bay d := rfl
@[simp] theorem State.setPort_entry (s : State) (p : PortId) (x : Port) (g : EntryId) : (s.setPort p x).entry g = s.entry g := rfl
@[simp] theorem State.setPort_queue (s : State) (p : PortId) (x : Port) (j : ProfileId) : (s.setPort p x).queue j = s.queue j := rfl
@[simp] theorem State.setPort_recall (s : State) (p : PortId) (x : Port) (d : ClusterId) : (s.setPort p x).recall d = s.recall d := rfl
@[simp] theorem State.setPort_drawOf (s : State) (p : PortId) (x : Port) (v : SweeperId) : (s.setPort p x).drawOf v = s.drawOf v := rfl

/-! #### setBay -/

@[simp] theorem State.setBay_pending (s : State) (b : BayId) (x : Bay) : (s.setBay b x).pending = s.pending := rfl
@[simp] theorem State.setBay_phase (s : State) (b : BayId) (x : Bay) : (s.setBay b x).phase = s.phase := rfl
@[simp] theorem State.setBay_ports (s : State) (b : BayId) (x : Bay) : (s.setBay b x).ports = s.ports := rfl
@[simp] theorem State.setBay_records (s : State) (b : BayId) (x : Bay) : (s.setBay b x).records = s.records := rfl
@[simp] theorem State.setBay_checks (s : State) (b : BayId) (x : Bay) : (s.setBay b x).checks = s.checks := rfl
@[simp] theorem State.setBay_seenCounter (s : State) (b : BayId) (x : Bay) : (s.setBay b x).seenCounter = s.seenCounter := rfl
@[simp] theorem State.setBay_corrected (s : State) (b : BayId) (x : Bay) : (s.setBay b x).corrected = s.corrected := rfl
@[simp] theorem State.setBay_scrub (s : State) (b : BayId) (x : Bay) : (s.setBay b x).scrub = s.scrub := rfl
@[simp] theorem State.setBay_scrubDue (s : State) (b : BayId) (x : Bay) : (s.setBay b x).scrubDue = s.scrubDue := rfl
@[simp] theorem State.setBay_profiles (s : State) (b : BayId) (x : Bay) : (s.setBay b x).profiles = s.profiles := rfl
@[simp] theorem State.setBay_bays (s : State) (b : BayId) (x : Bay) : (s.setBay b x).bays = s.bays.set b x := rfl
@[simp] theorem State.setBay_latchNumber (s : State) (b : BayId) (x : Bay) : (s.setBay b x).latchNumber = s.latchNumber := rfl
@[simp] theorem State.setBay_site (s : State) (b : BayId) (x : Bay) : (s.setBay b x).site = s.site := rfl
@[simp] theorem State.setBay_supply (s : State) (b : BayId) (x : Bay) : (s.setBay b x).supply = s.supply := rfl
@[simp] theorem State.setBay_periodTimer (s : State) (b : BayId) (x : Bay) : (s.setBay b x).periodTimer = s.periodTimer := rfl
@[simp] theorem State.setBay_passMark (s : State) (b : BayId) (x : Bay) : (s.setBay b x).passMark = s.passMark := rfl
@[simp] theorem State.setBay_pendingList (s : State) (b : BayId) (x : Bay) : (s.setBay b x).pendingList = s.pendingList := rfl
@[simp] theorem State.setBay_clock (s : State) (b : BayId) (x : Bay) : (s.setBay b x).clock = s.clock := rfl
@[simp] theorem State.setBay_minuteDue (s : State) (b : BayId) (x : Bay) : (s.setBay b x).minuteDue = s.minuteDue := rfl
@[simp] theorem State.setBay_planMark (s : State) (b : BayId) (x : Bay) : (s.setBay b x).planMark = s.planMark := rfl
@[simp] theorem State.setBay_entries (s : State) (b : BayId) (x : Bay) : (s.setBay b x).entries = s.entries := rfl
@[simp] theorem State.setBay_readyQueues (s : State) (b : BayId) (x : Bay) : (s.setBay b x).readyQueues = s.readyQueues := rfl
@[simp] theorem State.setBay_recalls (s : State) (b : BayId) (x : Bay) : (s.setBay b x).recalls = s.recalls := rfl
@[simp] theorem State.setBay_draws (s : State) (b : BayId) (x : Bay) : (s.setBay b x).draws = s.draws := rfl
@[simp] theorem State.setBay_freeUses (s : State) (b : BayId) (x : Bay) : (s.setBay b x).freeUses = s.freeUses := rfl
@[simp] theorem State.setBay_port (s : State) (b : BayId) (x : Bay) (q : PortId) : (s.setBay b x).port q = s.port q := rfl
@[simp] theorem State.setBay_record (s : State) (b : BayId) (x : Bay) (j : SlotId) : (s.setBay b x).record j = s.record j := rfl
@[simp] theorem State.setBay_check (s : State) (b : BayId) (x : Bay) (j : SlotId) : (s.setBay b x).check j = s.check j := rfl
@[simp] theorem State.setBay_profile (s : State) (b : BayId) (x : Bay) (j : ProfileId) : (s.setBay b x).profile j = s.profile j := rfl
@[simp] theorem State.setBay_entry (s : State) (b : BayId) (x : Bay) (g : EntryId) : (s.setBay b x).entry g = s.entry g := rfl
@[simp] theorem State.setBay_queue (s : State) (b : BayId) (x : Bay) (j : ProfileId) : (s.setBay b x).queue j = s.queue j := rfl
@[simp] theorem State.setBay_recall (s : State) (b : BayId) (x : Bay) (d : ClusterId) : (s.setBay b x).recall d = s.recall d := rfl
@[simp] theorem State.setBay_drawOf (s : State) (b : BayId) (x : Bay) (v : SweeperId) : (s.setBay b x).drawOf v = s.drawOf v := rfl

/-! #### modBay -/

@[simp] theorem State.modBay_pending (s : State) (b : BayId) (f : Bay → Bay) : (s.modBay b f).pending = s.pending := rfl
@[simp] theorem State.modBay_phase (s : State) (b : BayId) (f : Bay → Bay) : (s.modBay b f).phase = s.phase := rfl
@[simp] theorem State.modBay_ports (s : State) (b : BayId) (f : Bay → Bay) : (s.modBay b f).ports = s.ports := rfl
@[simp] theorem State.modBay_records (s : State) (b : BayId) (f : Bay → Bay) : (s.modBay b f).records = s.records := rfl
@[simp] theorem State.modBay_checks (s : State) (b : BayId) (f : Bay → Bay) : (s.modBay b f).checks = s.checks := rfl
@[simp] theorem State.modBay_seenCounter (s : State) (b : BayId) (f : Bay → Bay) : (s.modBay b f).seenCounter = s.seenCounter := rfl
@[simp] theorem State.modBay_corrected (s : State) (b : BayId) (f : Bay → Bay) : (s.modBay b f).corrected = s.corrected := rfl
@[simp] theorem State.modBay_scrub (s : State) (b : BayId) (f : Bay → Bay) : (s.modBay b f).scrub = s.scrub := rfl
@[simp] theorem State.modBay_scrubDue (s : State) (b : BayId) (f : Bay → Bay) : (s.modBay b f).scrubDue = s.scrubDue := rfl
@[simp] theorem State.modBay_profiles (s : State) (b : BayId) (f : Bay → Bay) : (s.modBay b f).profiles = s.profiles := rfl
@[simp] theorem State.modBay_bays (s : State) (b : BayId) (f : Bay → Bay) : (s.modBay b f).bays = s.bays.set b (f (s.bay b)) := rfl
@[simp] theorem State.modBay_latchNumber (s : State) (b : BayId) (f : Bay → Bay) : (s.modBay b f).latchNumber = s.latchNumber := rfl
@[simp] theorem State.modBay_site (s : State) (b : BayId) (f : Bay → Bay) : (s.modBay b f).site = s.site := rfl
@[simp] theorem State.modBay_supply (s : State) (b : BayId) (f : Bay → Bay) : (s.modBay b f).supply = s.supply := rfl
@[simp] theorem State.modBay_periodTimer (s : State) (b : BayId) (f : Bay → Bay) : (s.modBay b f).periodTimer = s.periodTimer := rfl
@[simp] theorem State.modBay_passMark (s : State) (b : BayId) (f : Bay → Bay) : (s.modBay b f).passMark = s.passMark := rfl
@[simp] theorem State.modBay_pendingList (s : State) (b : BayId) (f : Bay → Bay) : (s.modBay b f).pendingList = s.pendingList := rfl
@[simp] theorem State.modBay_clock (s : State) (b : BayId) (f : Bay → Bay) : (s.modBay b f).clock = s.clock := rfl
@[simp] theorem State.modBay_minuteDue (s : State) (b : BayId) (f : Bay → Bay) : (s.modBay b f).minuteDue = s.minuteDue := rfl
@[simp] theorem State.modBay_planMark (s : State) (b : BayId) (f : Bay → Bay) : (s.modBay b f).planMark = s.planMark := rfl
@[simp] theorem State.modBay_entries (s : State) (b : BayId) (f : Bay → Bay) : (s.modBay b f).entries = s.entries := rfl
@[simp] theorem State.modBay_readyQueues (s : State) (b : BayId) (f : Bay → Bay) : (s.modBay b f).readyQueues = s.readyQueues := rfl
@[simp] theorem State.modBay_recalls (s : State) (b : BayId) (f : Bay → Bay) : (s.modBay b f).recalls = s.recalls := rfl
@[simp] theorem State.modBay_draws (s : State) (b : BayId) (f : Bay → Bay) : (s.modBay b f).draws = s.draws := rfl
@[simp] theorem State.modBay_freeUses (s : State) (b : BayId) (f : Bay → Bay) : (s.modBay b f).freeUses = s.freeUses := rfl
@[simp] theorem State.modBay_port (s : State) (b : BayId) (f : Bay → Bay) (q : PortId) : (s.modBay b f).port q = s.port q := rfl
@[simp] theorem State.modBay_record (s : State) (b : BayId) (f : Bay → Bay) (j : SlotId) : (s.modBay b f).record j = s.record j := rfl
@[simp] theorem State.modBay_check (s : State) (b : BayId) (f : Bay → Bay) (j : SlotId) : (s.modBay b f).check j = s.check j := rfl
@[simp] theorem State.modBay_profile (s : State) (b : BayId) (f : Bay → Bay) (j : ProfileId) : (s.modBay b f).profile j = s.profile j := rfl
@[simp] theorem State.modBay_entry (s : State) (b : BayId) (f : Bay → Bay) (g : EntryId) : (s.modBay b f).entry g = s.entry g := rfl
@[simp] theorem State.modBay_queue (s : State) (b : BayId) (f : Bay → Bay) (j : ProfileId) : (s.modBay b f).queue j = s.queue j := rfl
@[simp] theorem State.modBay_recall (s : State) (b : BayId) (f : Bay → Bay) (d : ClusterId) : (s.modBay b f).recall d = s.recall d := rfl
@[simp] theorem State.modBay_drawOf (s : State) (b : BayId) (f : Bay → Bay) (v : SweeperId) : (s.modBay b f).drawOf v = s.drawOf v := rfl

/-! #### setProfile -/

@[simp] theorem State.setProfile_pending (s : State) (k : ProfileId) (x : Profile) : (s.setProfile k x).pending = s.pending := rfl
@[simp] theorem State.setProfile_phase (s : State) (k : ProfileId) (x : Profile) : (s.setProfile k x).phase = s.phase := rfl
@[simp] theorem State.setProfile_ports (s : State) (k : ProfileId) (x : Profile) : (s.setProfile k x).ports = s.ports := rfl
@[simp] theorem State.setProfile_records (s : State) (k : ProfileId) (x : Profile) : (s.setProfile k x).records = s.records := rfl
@[simp] theorem State.setProfile_checks (s : State) (k : ProfileId) (x : Profile) : (s.setProfile k x).checks = s.checks := rfl
@[simp] theorem State.setProfile_seenCounter (s : State) (k : ProfileId) (x : Profile) : (s.setProfile k x).seenCounter = s.seenCounter := rfl
@[simp] theorem State.setProfile_corrected (s : State) (k : ProfileId) (x : Profile) : (s.setProfile k x).corrected = s.corrected := rfl
@[simp] theorem State.setProfile_scrub (s : State) (k : ProfileId) (x : Profile) : (s.setProfile k x).scrub = s.scrub := rfl
@[simp] theorem State.setProfile_scrubDue (s : State) (k : ProfileId) (x : Profile) : (s.setProfile k x).scrubDue = s.scrubDue := rfl
@[simp] theorem State.setProfile_profiles (s : State) (k : ProfileId) (x : Profile) : (s.setProfile k x).profiles = s.profiles.set k x := rfl
@[simp] theorem State.setProfile_bays (s : State) (k : ProfileId) (x : Profile) : (s.setProfile k x).bays = s.bays := rfl
@[simp] theorem State.setProfile_latchNumber (s : State) (k : ProfileId) (x : Profile) : (s.setProfile k x).latchNumber = s.latchNumber := rfl
@[simp] theorem State.setProfile_site (s : State) (k : ProfileId) (x : Profile) : (s.setProfile k x).site = s.site := rfl
@[simp] theorem State.setProfile_supply (s : State) (k : ProfileId) (x : Profile) : (s.setProfile k x).supply = s.supply := rfl
@[simp] theorem State.setProfile_periodTimer (s : State) (k : ProfileId) (x : Profile) : (s.setProfile k x).periodTimer = s.periodTimer := rfl
@[simp] theorem State.setProfile_passMark (s : State) (k : ProfileId) (x : Profile) : (s.setProfile k x).passMark = s.passMark := rfl
@[simp] theorem State.setProfile_pendingList (s : State) (k : ProfileId) (x : Profile) : (s.setProfile k x).pendingList = s.pendingList := rfl
@[simp] theorem State.setProfile_clock (s : State) (k : ProfileId) (x : Profile) : (s.setProfile k x).clock = s.clock := rfl
@[simp] theorem State.setProfile_minuteDue (s : State) (k : ProfileId) (x : Profile) : (s.setProfile k x).minuteDue = s.minuteDue := rfl
@[simp] theorem State.setProfile_planMark (s : State) (k : ProfileId) (x : Profile) : (s.setProfile k x).planMark = s.planMark := rfl
@[simp] theorem State.setProfile_entries (s : State) (k : ProfileId) (x : Profile) : (s.setProfile k x).entries = s.entries := rfl
@[simp] theorem State.setProfile_readyQueues (s : State) (k : ProfileId) (x : Profile) : (s.setProfile k x).readyQueues = s.readyQueues := rfl
@[simp] theorem State.setProfile_recalls (s : State) (k : ProfileId) (x : Profile) : (s.setProfile k x).recalls = s.recalls := rfl
@[simp] theorem State.setProfile_draws (s : State) (k : ProfileId) (x : Profile) : (s.setProfile k x).draws = s.draws := rfl
@[simp] theorem State.setProfile_freeUses (s : State) (k : ProfileId) (x : Profile) : (s.setProfile k x).freeUses = s.freeUses := rfl
@[simp] theorem State.setProfile_port (s : State) (k : ProfileId) (x : Profile) (q : PortId) : (s.setProfile k x).port q = s.port q := rfl
@[simp] theorem State.setProfile_record (s : State) (k : ProfileId) (x : Profile) (j : SlotId) : (s.setProfile k x).record j = s.record j := rfl
@[simp] theorem State.setProfile_check (s : State) (k : ProfileId) (x : Profile) (j : SlotId) : (s.setProfile k x).check j = s.check j := rfl
@[simp] theorem State.setProfile_bay (s : State) (k : ProfileId) (x : Profile) (d : BayId) : (s.setProfile k x).bay d = s.bay d := rfl
@[simp] theorem State.setProfile_entry (s : State) (k : ProfileId) (x : Profile) (g : EntryId) : (s.setProfile k x).entry g = s.entry g := rfl
@[simp] theorem State.setProfile_queue (s : State) (k : ProfileId) (x : Profile) (j : ProfileId) : (s.setProfile k x).queue j = s.queue j := rfl
@[simp] theorem State.setProfile_recall (s : State) (k : ProfileId) (x : Profile) (d : ClusterId) : (s.setProfile k x).recall d = s.recall d := rfl
@[simp] theorem State.setProfile_drawOf (s : State) (k : ProfileId) (x : Profile) (v : SweeperId) : (s.setProfile k x).drawOf v = s.drawOf v := rfl

/-! #### setEntry -/

@[simp] theorem State.setEntry_pending (s : State) (e : EntryId) (x : Entry) : (s.setEntry e x).pending = s.pending := rfl
@[simp] theorem State.setEntry_phase (s : State) (e : EntryId) (x : Entry) : (s.setEntry e x).phase = s.phase := rfl
@[simp] theorem State.setEntry_ports (s : State) (e : EntryId) (x : Entry) : (s.setEntry e x).ports = s.ports := rfl
@[simp] theorem State.setEntry_records (s : State) (e : EntryId) (x : Entry) : (s.setEntry e x).records = s.records := rfl
@[simp] theorem State.setEntry_checks (s : State) (e : EntryId) (x : Entry) : (s.setEntry e x).checks = s.checks := rfl
@[simp] theorem State.setEntry_seenCounter (s : State) (e : EntryId) (x : Entry) : (s.setEntry e x).seenCounter = s.seenCounter := rfl
@[simp] theorem State.setEntry_corrected (s : State) (e : EntryId) (x : Entry) : (s.setEntry e x).corrected = s.corrected := rfl
@[simp] theorem State.setEntry_scrub (s : State) (e : EntryId) (x : Entry) : (s.setEntry e x).scrub = s.scrub := rfl
@[simp] theorem State.setEntry_scrubDue (s : State) (e : EntryId) (x : Entry) : (s.setEntry e x).scrubDue = s.scrubDue := rfl
@[simp] theorem State.setEntry_profiles (s : State) (e : EntryId) (x : Entry) : (s.setEntry e x).profiles = s.profiles := rfl
@[simp] theorem State.setEntry_bays (s : State) (e : EntryId) (x : Entry) : (s.setEntry e x).bays = s.bays := rfl
@[simp] theorem State.setEntry_latchNumber (s : State) (e : EntryId) (x : Entry) : (s.setEntry e x).latchNumber = s.latchNumber := rfl
@[simp] theorem State.setEntry_site (s : State) (e : EntryId) (x : Entry) : (s.setEntry e x).site = s.site := rfl
@[simp] theorem State.setEntry_supply (s : State) (e : EntryId) (x : Entry) : (s.setEntry e x).supply = s.supply := rfl
@[simp] theorem State.setEntry_periodTimer (s : State) (e : EntryId) (x : Entry) : (s.setEntry e x).periodTimer = s.periodTimer := rfl
@[simp] theorem State.setEntry_passMark (s : State) (e : EntryId) (x : Entry) : (s.setEntry e x).passMark = s.passMark := rfl
@[simp] theorem State.setEntry_pendingList (s : State) (e : EntryId) (x : Entry) : (s.setEntry e x).pendingList = s.pendingList := rfl
@[simp] theorem State.setEntry_clock (s : State) (e : EntryId) (x : Entry) : (s.setEntry e x).clock = s.clock := rfl
@[simp] theorem State.setEntry_minuteDue (s : State) (e : EntryId) (x : Entry) : (s.setEntry e x).minuteDue = s.minuteDue := rfl
@[simp] theorem State.setEntry_planMark (s : State) (e : EntryId) (x : Entry) : (s.setEntry e x).planMark = s.planMark := rfl
@[simp] theorem State.setEntry_entries (s : State) (e : EntryId) (x : Entry) : (s.setEntry e x).entries = s.entries.set e x := rfl
@[simp] theorem State.setEntry_readyQueues (s : State) (e : EntryId) (x : Entry) : (s.setEntry e x).readyQueues = s.readyQueues := rfl
@[simp] theorem State.setEntry_recalls (s : State) (e : EntryId) (x : Entry) : (s.setEntry e x).recalls = s.recalls := rfl
@[simp] theorem State.setEntry_draws (s : State) (e : EntryId) (x : Entry) : (s.setEntry e x).draws = s.draws := rfl
@[simp] theorem State.setEntry_freeUses (s : State) (e : EntryId) (x : Entry) : (s.setEntry e x).freeUses = s.freeUses := rfl
@[simp] theorem State.setEntry_port (s : State) (e : EntryId) (x : Entry) (q : PortId) : (s.setEntry e x).port q = s.port q := rfl
@[simp] theorem State.setEntry_record (s : State) (e : EntryId) (x : Entry) (j : SlotId) : (s.setEntry e x).record j = s.record j := rfl
@[simp] theorem State.setEntry_check (s : State) (e : EntryId) (x : Entry) (j : SlotId) : (s.setEntry e x).check j = s.check j := rfl
@[simp] theorem State.setEntry_profile (s : State) (e : EntryId) (x : Entry) (j : ProfileId) : (s.setEntry e x).profile j = s.profile j := rfl
@[simp] theorem State.setEntry_bay (s : State) (e : EntryId) (x : Entry) (d : BayId) : (s.setEntry e x).bay d = s.bay d := rfl
@[simp] theorem State.setEntry_queue (s : State) (e : EntryId) (x : Entry) (j : ProfileId) : (s.setEntry e x).queue j = s.queue j := rfl
@[simp] theorem State.setEntry_recall (s : State) (e : EntryId) (x : Entry) (d : ClusterId) : (s.setEntry e x).recall d = s.recall d := rfl
@[simp] theorem State.setEntry_drawOf (s : State) (e : EntryId) (x : Entry) (v : SweeperId) : (s.setEntry e x).drawOf v = s.drawOf v := rfl

/-! #### setDraw -/

@[simp] theorem State.setDraw_pending (s : State) (w : SweeperId) (x : Option Draw) : (s.setDraw w x).pending = s.pending := rfl
@[simp] theorem State.setDraw_phase (s : State) (w : SweeperId) (x : Option Draw) : (s.setDraw w x).phase = s.phase := rfl
@[simp] theorem State.setDraw_ports (s : State) (w : SweeperId) (x : Option Draw) : (s.setDraw w x).ports = s.ports := rfl
@[simp] theorem State.setDraw_records (s : State) (w : SweeperId) (x : Option Draw) : (s.setDraw w x).records = s.records := rfl
@[simp] theorem State.setDraw_checks (s : State) (w : SweeperId) (x : Option Draw) : (s.setDraw w x).checks = s.checks := rfl
@[simp] theorem State.setDraw_seenCounter (s : State) (w : SweeperId) (x : Option Draw) : (s.setDraw w x).seenCounter = s.seenCounter := rfl
@[simp] theorem State.setDraw_corrected (s : State) (w : SweeperId) (x : Option Draw) : (s.setDraw w x).corrected = s.corrected := rfl
@[simp] theorem State.setDraw_scrub (s : State) (w : SweeperId) (x : Option Draw) : (s.setDraw w x).scrub = s.scrub := rfl
@[simp] theorem State.setDraw_scrubDue (s : State) (w : SweeperId) (x : Option Draw) : (s.setDraw w x).scrubDue = s.scrubDue := rfl
@[simp] theorem State.setDraw_profiles (s : State) (w : SweeperId) (x : Option Draw) : (s.setDraw w x).profiles = s.profiles := rfl
@[simp] theorem State.setDraw_bays (s : State) (w : SweeperId) (x : Option Draw) : (s.setDraw w x).bays = s.bays := rfl
@[simp] theorem State.setDraw_latchNumber (s : State) (w : SweeperId) (x : Option Draw) : (s.setDraw w x).latchNumber = s.latchNumber := rfl
@[simp] theorem State.setDraw_site (s : State) (w : SweeperId) (x : Option Draw) : (s.setDraw w x).site = s.site := rfl
@[simp] theorem State.setDraw_supply (s : State) (w : SweeperId) (x : Option Draw) : (s.setDraw w x).supply = s.supply := rfl
@[simp] theorem State.setDraw_periodTimer (s : State) (w : SweeperId) (x : Option Draw) : (s.setDraw w x).periodTimer = s.periodTimer := rfl
@[simp] theorem State.setDraw_passMark (s : State) (w : SweeperId) (x : Option Draw) : (s.setDraw w x).passMark = s.passMark := rfl
@[simp] theorem State.setDraw_pendingList (s : State) (w : SweeperId) (x : Option Draw) : (s.setDraw w x).pendingList = s.pendingList := rfl
@[simp] theorem State.setDraw_clock (s : State) (w : SweeperId) (x : Option Draw) : (s.setDraw w x).clock = s.clock := rfl
@[simp] theorem State.setDraw_minuteDue (s : State) (w : SweeperId) (x : Option Draw) : (s.setDraw w x).minuteDue = s.minuteDue := rfl
@[simp] theorem State.setDraw_planMark (s : State) (w : SweeperId) (x : Option Draw) : (s.setDraw w x).planMark = s.planMark := rfl
@[simp] theorem State.setDraw_entries (s : State) (w : SweeperId) (x : Option Draw) : (s.setDraw w x).entries = s.entries := rfl
@[simp] theorem State.setDraw_readyQueues (s : State) (w : SweeperId) (x : Option Draw) : (s.setDraw w x).readyQueues = s.readyQueues := rfl
@[simp] theorem State.setDraw_recalls (s : State) (w : SweeperId) (x : Option Draw) : (s.setDraw w x).recalls = s.recalls := rfl
@[simp] theorem State.setDraw_draws (s : State) (w : SweeperId) (x : Option Draw) : (s.setDraw w x).draws = s.draws.set w x := rfl
@[simp] theorem State.setDraw_freeUses (s : State) (w : SweeperId) (x : Option Draw) : (s.setDraw w x).freeUses = s.freeUses := rfl
@[simp] theorem State.setDraw_port (s : State) (w : SweeperId) (x : Option Draw) (q : PortId) : (s.setDraw w x).port q = s.port q := rfl
@[simp] theorem State.setDraw_record (s : State) (w : SweeperId) (x : Option Draw) (j : SlotId) : (s.setDraw w x).record j = s.record j := rfl
@[simp] theorem State.setDraw_check (s : State) (w : SweeperId) (x : Option Draw) (j : SlotId) : (s.setDraw w x).check j = s.check j := rfl
@[simp] theorem State.setDraw_profile (s : State) (w : SweeperId) (x : Option Draw) (j : ProfileId) : (s.setDraw w x).profile j = s.profile j := rfl
@[simp] theorem State.setDraw_bay (s : State) (w : SweeperId) (x : Option Draw) (d : BayId) : (s.setDraw w x).bay d = s.bay d := rfl
@[simp] theorem State.setDraw_entry (s : State) (w : SweeperId) (x : Option Draw) (g : EntryId) : (s.setDraw w x).entry g = s.entry g := rfl
@[simp] theorem State.setDraw_queue (s : State) (w : SweeperId) (x : Option Draw) (j : ProfileId) : (s.setDraw w x).queue j = s.queue j := rfl
@[simp] theorem State.setDraw_recall (s : State) (w : SweeperId) (x : Option Draw) (d : ClusterId) : (s.setDraw w x).recall d = s.recall d := rfl

/-! #### storeRecord -/

@[simp] theorem State.storeRecord_pending (s : State) (i : SlotId) (r : PackRecord) : (s.storeRecord i r).pending = s.pending := rfl
@[simp] theorem State.storeRecord_phase (s : State) (i : SlotId) (r : PackRecord) : (s.storeRecord i r).phase = s.phase := rfl
@[simp] theorem State.storeRecord_ports (s : State) (i : SlotId) (r : PackRecord) : (s.storeRecord i r).ports = s.ports := rfl
@[simp] theorem State.storeRecord_records (s : State) (i : SlotId) (r : PackRecord) : (s.storeRecord i r).records = s.records.set i r := rfl
@[simp] theorem State.storeRecord_checks (s : State) (i : SlotId) (r : PackRecord) : (s.storeRecord i r).checks = s.checks.set i .clean := rfl
@[simp] theorem State.storeRecord_seenCounter (s : State) (i : SlotId) (r : PackRecord) : (s.storeRecord i r).seenCounter = s.seenCounter := rfl
@[simp] theorem State.storeRecord_corrected (s : State) (i : SlotId) (r : PackRecord) : (s.storeRecord i r).corrected = s.corrected := rfl
@[simp] theorem State.storeRecord_scrub (s : State) (i : SlotId) (r : PackRecord) : (s.storeRecord i r).scrub = s.scrub := rfl
@[simp] theorem State.storeRecord_scrubDue (s : State) (i : SlotId) (r : PackRecord) : (s.storeRecord i r).scrubDue = s.scrubDue := rfl
@[simp] theorem State.storeRecord_profiles (s : State) (i : SlotId) (r : PackRecord) : (s.storeRecord i r).profiles = s.profiles := rfl
@[simp] theorem State.storeRecord_bays (s : State) (i : SlotId) (r : PackRecord) : (s.storeRecord i r).bays = s.bays := rfl
@[simp] theorem State.storeRecord_latchNumber (s : State) (i : SlotId) (r : PackRecord) : (s.storeRecord i r).latchNumber = s.latchNumber := rfl
@[simp] theorem State.storeRecord_site (s : State) (i : SlotId) (r : PackRecord) : (s.storeRecord i r).site = s.site := rfl
@[simp] theorem State.storeRecord_supply (s : State) (i : SlotId) (r : PackRecord) : (s.storeRecord i r).supply = s.supply := rfl
@[simp] theorem State.storeRecord_periodTimer (s : State) (i : SlotId) (r : PackRecord) : (s.storeRecord i r).periodTimer = s.periodTimer := rfl
@[simp] theorem State.storeRecord_passMark (s : State) (i : SlotId) (r : PackRecord) : (s.storeRecord i r).passMark = s.passMark := rfl
@[simp] theorem State.storeRecord_pendingList (s : State) (i : SlotId) (r : PackRecord) : (s.storeRecord i r).pendingList = s.pendingList := rfl
@[simp] theorem State.storeRecord_clock (s : State) (i : SlotId) (r : PackRecord) : (s.storeRecord i r).clock = s.clock := rfl
@[simp] theorem State.storeRecord_minuteDue (s : State) (i : SlotId) (r : PackRecord) : (s.storeRecord i r).minuteDue = s.minuteDue := rfl
@[simp] theorem State.storeRecord_planMark (s : State) (i : SlotId) (r : PackRecord) : (s.storeRecord i r).planMark = s.planMark := rfl
@[simp] theorem State.storeRecord_entries (s : State) (i : SlotId) (r : PackRecord) : (s.storeRecord i r).entries = s.entries := rfl
@[simp] theorem State.storeRecord_readyQueues (s : State) (i : SlotId) (r : PackRecord) : (s.storeRecord i r).readyQueues = s.readyQueues := rfl
@[simp] theorem State.storeRecord_recalls (s : State) (i : SlotId) (r : PackRecord) : (s.storeRecord i r).recalls = s.recalls := rfl
@[simp] theorem State.storeRecord_draws (s : State) (i : SlotId) (r : PackRecord) : (s.storeRecord i r).draws = s.draws := rfl
@[simp] theorem State.storeRecord_freeUses (s : State) (i : SlotId) (r : PackRecord) : (s.storeRecord i r).freeUses = s.freeUses := rfl
@[simp] theorem State.storeRecord_port (s : State) (i : SlotId) (r : PackRecord) (q : PortId) : (s.storeRecord i r).port q = s.port q := rfl
@[simp] theorem State.storeRecord_profile (s : State) (i : SlotId) (r : PackRecord) (j : ProfileId) : (s.storeRecord i r).profile j = s.profile j := rfl
@[simp] theorem State.storeRecord_bay (s : State) (i : SlotId) (r : PackRecord) (d : BayId) : (s.storeRecord i r).bay d = s.bay d := rfl
@[simp] theorem State.storeRecord_entry (s : State) (i : SlotId) (r : PackRecord) (g : EntryId) : (s.storeRecord i r).entry g = s.entry g := rfl
@[simp] theorem State.storeRecord_queue (s : State) (i : SlotId) (r : PackRecord) (j : ProfileId) : (s.storeRecord i r).queue j = s.queue j := rfl
@[simp] theorem State.storeRecord_recall (s : State) (i : SlotId) (r : PackRecord) (d : ClusterId) : (s.storeRecord i r).recall d = s.recall d := rfl
@[simp] theorem State.storeRecord_drawOf (s : State) (i : SlotId) (r : PackRecord) (v : SweeperId) : (s.storeRecord i r).drawOf v = s.drawOf v := rfl

/-! #### setSupply -/

@[simp] theorem State.setSupply_pending (s : State) (x : Supply) : (s.setSupply x).pending = s.pending := rfl
@[simp] theorem State.setSupply_phase (s : State) (x : Supply) : (s.setSupply x).phase = s.phase := rfl
@[simp] theorem State.setSupply_ports (s : State) (x : Supply) : (s.setSupply x).ports = s.ports := rfl
@[simp] theorem State.setSupply_records (s : State) (x : Supply) : (s.setSupply x).records = s.records := rfl
@[simp] theorem State.setSupply_checks (s : State) (x : Supply) : (s.setSupply x).checks = s.checks := rfl
@[simp] theorem State.setSupply_seenCounter (s : State) (x : Supply) : (s.setSupply x).seenCounter = s.seenCounter := rfl
@[simp] theorem State.setSupply_corrected (s : State) (x : Supply) : (s.setSupply x).corrected = s.corrected := rfl
@[simp] theorem State.setSupply_scrub (s : State) (x : Supply) : (s.setSupply x).scrub = s.scrub := rfl
@[simp] theorem State.setSupply_scrubDue (s : State) (x : Supply) : (s.setSupply x).scrubDue = s.scrubDue := rfl
@[simp] theorem State.setSupply_profiles (s : State) (x : Supply) : (s.setSupply x).profiles = s.profiles := rfl
@[simp] theorem State.setSupply_bays (s : State) (x : Supply) : (s.setSupply x).bays = s.bays := rfl
@[simp] theorem State.setSupply_latchNumber (s : State) (x : Supply) : (s.setSupply x).latchNumber = s.latchNumber := rfl
@[simp] theorem State.setSupply_site (s : State) (x : Supply) : (s.setSupply x).site = s.site := rfl
@[simp] theorem State.setSupply_supply (s : State) (x : Supply) : (s.setSupply x).supply = x := rfl
@[simp] theorem State.setSupply_periodTimer (s : State) (x : Supply) : (s.setSupply x).periodTimer = s.periodTimer := rfl
@[simp] theorem State.setSupply_passMark (s : State) (x : Supply) : (s.setSupply x).passMark = s.passMark := rfl
@[simp] theorem State.setSupply_pendingList (s : State) (x : Supply) : (s.setSupply x).pendingList = s.pendingList := rfl
@[simp] theorem State.setSupply_clock (s : State) (x : Supply) : (s.setSupply x).clock = s.clock := rfl
@[simp] theorem State.setSupply_minuteDue (s : State) (x : Supply) : (s.setSupply x).minuteDue = s.minuteDue := rfl
@[simp] theorem State.setSupply_planMark (s : State) (x : Supply) : (s.setSupply x).planMark = s.planMark := rfl
@[simp] theorem State.setSupply_entries (s : State) (x : Supply) : (s.setSupply x).entries = s.entries := rfl
@[simp] theorem State.setSupply_readyQueues (s : State) (x : Supply) : (s.setSupply x).readyQueues = s.readyQueues := rfl
@[simp] theorem State.setSupply_recalls (s : State) (x : Supply) : (s.setSupply x).recalls = s.recalls := rfl
@[simp] theorem State.setSupply_draws (s : State) (x : Supply) : (s.setSupply x).draws = s.draws := rfl
@[simp] theorem State.setSupply_freeUses (s : State) (x : Supply) : (s.setSupply x).freeUses = s.freeUses := rfl
@[simp] theorem State.setSupply_port (s : State) (x : Supply) (q : PortId) : (s.setSupply x).port q = s.port q := rfl
@[simp] theorem State.setSupply_record (s : State) (x : Supply) (j : SlotId) : (s.setSupply x).record j = s.record j := rfl
@[simp] theorem State.setSupply_check (s : State) (x : Supply) (j : SlotId) : (s.setSupply x).check j = s.check j := rfl
@[simp] theorem State.setSupply_profile (s : State) (x : Supply) (j : ProfileId) : (s.setSupply x).profile j = s.profile j := rfl
@[simp] theorem State.setSupply_bay (s : State) (x : Supply) (d : BayId) : (s.setSupply x).bay d = s.bay d := rfl
@[simp] theorem State.setSupply_entry (s : State) (x : Supply) (g : EntryId) : (s.setSupply x).entry g = s.entry g := rfl
@[simp] theorem State.setSupply_queue (s : State) (x : Supply) (j : ProfileId) : (s.setSupply x).queue j = s.queue j := rfl
@[simp] theorem State.setSupply_recall (s : State) (x : Supply) (d : ClusterId) : (s.setSupply x).recall d = s.recall d := rfl
@[simp] theorem State.setSupply_drawOf (s : State) (x : Supply) (v : SweeperId) : (s.setSupply x).drawOf v = s.drawOf v := rfl

/-! #### notify -/

@[simp] theorem State.notify_pending (s : State) (k : NoticeKind) (w : Scope) : (s.notify k w).pending = s.pending := rfl
@[simp] theorem State.notify_phase (s : State) (k : NoticeKind) (w : Scope) : (s.notify k w).phase = s.phase := rfl
@[simp] theorem State.notify_ports (s : State) (k : NoticeKind) (w : Scope) : (s.notify k w).ports = updateAll s.ports fun _ y => y.deliver k w := rfl
@[simp] theorem State.notify_records (s : State) (k : NoticeKind) (w : Scope) : (s.notify k w).records = s.records := rfl
@[simp] theorem State.notify_checks (s : State) (k : NoticeKind) (w : Scope) : (s.notify k w).checks = s.checks := rfl
@[simp] theorem State.notify_seenCounter (s : State) (k : NoticeKind) (w : Scope) : (s.notify k w).seenCounter = s.seenCounter := rfl
@[simp] theorem State.notify_corrected (s : State) (k : NoticeKind) (w : Scope) : (s.notify k w).corrected = s.corrected := rfl
@[simp] theorem State.notify_scrub (s : State) (k : NoticeKind) (w : Scope) : (s.notify k w).scrub = s.scrub := rfl
@[simp] theorem State.notify_scrubDue (s : State) (k : NoticeKind) (w : Scope) : (s.notify k w).scrubDue = s.scrubDue := rfl
@[simp] theorem State.notify_profiles (s : State) (k : NoticeKind) (w : Scope) : (s.notify k w).profiles = s.profiles := rfl
@[simp] theorem State.notify_bays (s : State) (k : NoticeKind) (w : Scope) : (s.notify k w).bays = s.bays := rfl
@[simp] theorem State.notify_latchNumber (s : State) (k : NoticeKind) (w : Scope) : (s.notify k w).latchNumber = s.latchNumber := rfl
@[simp] theorem State.notify_site (s : State) (k : NoticeKind) (w : Scope) : (s.notify k w).site = s.site := rfl
@[simp] theorem State.notify_supply (s : State) (k : NoticeKind) (w : Scope) : (s.notify k w).supply = s.supply := rfl
@[simp] theorem State.notify_periodTimer (s : State) (k : NoticeKind) (w : Scope) : (s.notify k w).periodTimer = s.periodTimer := rfl
@[simp] theorem State.notify_passMark (s : State) (k : NoticeKind) (w : Scope) : (s.notify k w).passMark = s.passMark := rfl
@[simp] theorem State.notify_pendingList (s : State) (k : NoticeKind) (w : Scope) : (s.notify k w).pendingList = s.pendingList := rfl
@[simp] theorem State.notify_clock (s : State) (k : NoticeKind) (w : Scope) : (s.notify k w).clock = s.clock := rfl
@[simp] theorem State.notify_minuteDue (s : State) (k : NoticeKind) (w : Scope) : (s.notify k w).minuteDue = s.minuteDue := rfl
@[simp] theorem State.notify_planMark (s : State) (k : NoticeKind) (w : Scope) : (s.notify k w).planMark = s.planMark := rfl
@[simp] theorem State.notify_entries (s : State) (k : NoticeKind) (w : Scope) : (s.notify k w).entries = s.entries := rfl
@[simp] theorem State.notify_readyQueues (s : State) (k : NoticeKind) (w : Scope) : (s.notify k w).readyQueues = s.readyQueues := rfl
@[simp] theorem State.notify_recalls (s : State) (k : NoticeKind) (w : Scope) : (s.notify k w).recalls = s.recalls := rfl
@[simp] theorem State.notify_draws (s : State) (k : NoticeKind) (w : Scope) : (s.notify k w).draws = s.draws := rfl
@[simp] theorem State.notify_freeUses (s : State) (k : NoticeKind) (w : Scope) : (s.notify k w).freeUses = s.freeUses := rfl
@[simp] theorem State.notify_record (s : State) (k : NoticeKind) (w : Scope) (j : SlotId) : (s.notify k w).record j = s.record j := rfl
@[simp] theorem State.notify_check (s : State) (k : NoticeKind) (w : Scope) (j : SlotId) : (s.notify k w).check j = s.check j := rfl
@[simp] theorem State.notify_profile (s : State) (k : NoticeKind) (w : Scope) (j : ProfileId) : (s.notify k w).profile j = s.profile j := rfl
@[simp] theorem State.notify_bay (s : State) (k : NoticeKind) (w : Scope) (d : BayId) : (s.notify k w).bay d = s.bay d := rfl
@[simp] theorem State.notify_entry (s : State) (k : NoticeKind) (w : Scope) (g : EntryId) : (s.notify k w).entry g = s.entry g := rfl
@[simp] theorem State.notify_queue (s : State) (k : NoticeKind) (w : Scope) (j : ProfileId) : (s.notify k w).queue j = s.queue j := rfl
@[simp] theorem State.notify_recall (s : State) (k : NoticeKind) (w : Scope) (d : ClusterId) : (s.notify k w).recall d = s.recall d := rfl
@[simp] theorem State.notify_drawOf (s : State) (k : NoticeKind) (w : Scope) (v : SweeperId) : (s.notify k w).drawOf v = s.drawOf v := rfl

/-! #### notifyFaultClear -/

@[simp] theorem State.notifyFaultClear_pending (s : State) (b : BayId) : (s.notifyFaultClear b).pending = s.pending := rfl
@[simp] theorem State.notifyFaultClear_phase (s : State) (b : BayId) : (s.notifyFaultClear b).phase = s.phase := rfl
@[simp] theorem State.notifyFaultClear_records (s : State) (b : BayId) : (s.notifyFaultClear b).records = s.records := rfl
@[simp] theorem State.notifyFaultClear_checks (s : State) (b : BayId) : (s.notifyFaultClear b).checks = s.checks := rfl
@[simp] theorem State.notifyFaultClear_seenCounter (s : State) (b : BayId) : (s.notifyFaultClear b).seenCounter = s.seenCounter := rfl
@[simp] theorem State.notifyFaultClear_corrected (s : State) (b : BayId) : (s.notifyFaultClear b).corrected = s.corrected := rfl
@[simp] theorem State.notifyFaultClear_scrub (s : State) (b : BayId) : (s.notifyFaultClear b).scrub = s.scrub := rfl
@[simp] theorem State.notifyFaultClear_scrubDue (s : State) (b : BayId) : (s.notifyFaultClear b).scrubDue = s.scrubDue := rfl
@[simp] theorem State.notifyFaultClear_profiles (s : State) (b : BayId) : (s.notifyFaultClear b).profiles = s.profiles := rfl
@[simp] theorem State.notifyFaultClear_bays (s : State) (b : BayId) : (s.notifyFaultClear b).bays = s.bays := rfl
@[simp] theorem State.notifyFaultClear_latchNumber (s : State) (b : BayId) : (s.notifyFaultClear b).latchNumber = s.latchNumber := rfl
@[simp] theorem State.notifyFaultClear_site (s : State) (b : BayId) : (s.notifyFaultClear b).site = s.site := rfl
@[simp] theorem State.notifyFaultClear_supply (s : State) (b : BayId) : (s.notifyFaultClear b).supply = s.supply := rfl
@[simp] theorem State.notifyFaultClear_periodTimer (s : State) (b : BayId) : (s.notifyFaultClear b).periodTimer = s.periodTimer := rfl
@[simp] theorem State.notifyFaultClear_passMark (s : State) (b : BayId) : (s.notifyFaultClear b).passMark = s.passMark := rfl
@[simp] theorem State.notifyFaultClear_pendingList (s : State) (b : BayId) : (s.notifyFaultClear b).pendingList = s.pendingList := rfl
@[simp] theorem State.notifyFaultClear_clock (s : State) (b : BayId) : (s.notifyFaultClear b).clock = s.clock := rfl
@[simp] theorem State.notifyFaultClear_minuteDue (s : State) (b : BayId) : (s.notifyFaultClear b).minuteDue = s.minuteDue := rfl
@[simp] theorem State.notifyFaultClear_planMark (s : State) (b : BayId) : (s.notifyFaultClear b).planMark = s.planMark := rfl
@[simp] theorem State.notifyFaultClear_entries (s : State) (b : BayId) : (s.notifyFaultClear b).entries = s.entries := rfl
@[simp] theorem State.notifyFaultClear_readyQueues (s : State) (b : BayId) : (s.notifyFaultClear b).readyQueues = s.readyQueues := rfl
@[simp] theorem State.notifyFaultClear_recalls (s : State) (b : BayId) : (s.notifyFaultClear b).recalls = s.recalls := rfl
@[simp] theorem State.notifyFaultClear_draws (s : State) (b : BayId) : (s.notifyFaultClear b).draws = s.draws := rfl
@[simp] theorem State.notifyFaultClear_freeUses (s : State) (b : BayId) : (s.notifyFaultClear b).freeUses = s.freeUses := rfl
@[simp] theorem State.notifyFaultClear_record (s : State) (b : BayId) (j : SlotId) : (s.notifyFaultClear b).record j = s.record j := rfl
@[simp] theorem State.notifyFaultClear_check (s : State) (b : BayId) (j : SlotId) : (s.notifyFaultClear b).check j = s.check j := rfl
@[simp] theorem State.notifyFaultClear_profile (s : State) (b : BayId) (j : ProfileId) : (s.notifyFaultClear b).profile j = s.profile j := rfl
@[simp] theorem State.notifyFaultClear_bay (s : State) (b : BayId) (d : BayId) : (s.notifyFaultClear b).bay d = s.bay d := rfl
@[simp] theorem State.notifyFaultClear_entry (s : State) (b : BayId) (g : EntryId) : (s.notifyFaultClear b).entry g = s.entry g := rfl
@[simp] theorem State.notifyFaultClear_queue (s : State) (b : BayId) (j : ProfileId) : (s.notifyFaultClear b).queue j = s.queue j := rfl
@[simp] theorem State.notifyFaultClear_recall (s : State) (b : BayId) (d : ClusterId) : (s.notifyFaultClear b).recall d = s.recall d := rfl
@[simp] theorem State.notifyFaultClear_drawOf (s : State) (b : BayId) (v : SweeperId) : (s.notifyFaultClear b).drawOf v = s.drawOf v := rfl

/-! #### markGroup -/

@[simp] theorem State.markGroup_pending (s : State) (g' : GroupId) : (s.markGroup g').pending = s.pending := rfl
@[simp] theorem State.markGroup_phase (s : State) (g' : GroupId) : (s.markGroup g').phase = s.phase := rfl
@[simp] theorem State.markGroup_records (s : State) (g' : GroupId) : (s.markGroup g').records = s.records := rfl
@[simp] theorem State.markGroup_checks (s : State) (g' : GroupId) : (s.markGroup g').checks = s.checks := rfl
@[simp] theorem State.markGroup_seenCounter (s : State) (g' : GroupId) : (s.markGroup g').seenCounter = s.seenCounter := rfl
@[simp] theorem State.markGroup_corrected (s : State) (g' : GroupId) : (s.markGroup g').corrected = s.corrected := rfl
@[simp] theorem State.markGroup_scrub (s : State) (g' : GroupId) : (s.markGroup g').scrub = s.scrub := rfl
@[simp] theorem State.markGroup_scrubDue (s : State) (g' : GroupId) : (s.markGroup g').scrubDue = s.scrubDue := rfl
@[simp] theorem State.markGroup_profiles (s : State) (g' : GroupId) : (s.markGroup g').profiles = s.profiles := rfl
@[simp] theorem State.markGroup_bays (s : State) (g' : GroupId) : (s.markGroup g').bays = s.bays := rfl
@[simp] theorem State.markGroup_latchNumber (s : State) (g' : GroupId) : (s.markGroup g').latchNumber = s.latchNumber := rfl
@[simp] theorem State.markGroup_site (s : State) (g' : GroupId) : (s.markGroup g').site = s.site := rfl
@[simp] theorem State.markGroup_supply (s : State) (g' : GroupId) : (s.markGroup g').supply = s.supply := rfl
@[simp] theorem State.markGroup_periodTimer (s : State) (g' : GroupId) : (s.markGroup g').periodTimer = s.periodTimer := rfl
@[simp] theorem State.markGroup_passMark (s : State) (g' : GroupId) : (s.markGroup g').passMark = s.passMark := rfl
@[simp] theorem State.markGroup_pendingList (s : State) (g' : GroupId) : (s.markGroup g').pendingList = s.pendingList := rfl
@[simp] theorem State.markGroup_clock (s : State) (g' : GroupId) : (s.markGroup g').clock = s.clock := rfl
@[simp] theorem State.markGroup_minuteDue (s : State) (g' : GroupId) : (s.markGroup g').minuteDue = s.minuteDue := rfl
@[simp] theorem State.markGroup_planMark (s : State) (g' : GroupId) : (s.markGroup g').planMark = s.planMark := rfl
@[simp] theorem State.markGroup_entries (s : State) (g' : GroupId) : (s.markGroup g').entries = s.entries := rfl
@[simp] theorem State.markGroup_readyQueues (s : State) (g' : GroupId) : (s.markGroup g').readyQueues = s.readyQueues := rfl
@[simp] theorem State.markGroup_recalls (s : State) (g' : GroupId) : (s.markGroup g').recalls = s.recalls := rfl
@[simp] theorem State.markGroup_draws (s : State) (g' : GroupId) : (s.markGroup g').draws = s.draws := rfl
@[simp] theorem State.markGroup_freeUses (s : State) (g' : GroupId) : (s.markGroup g').freeUses = s.freeUses := rfl
@[simp] theorem State.markGroup_record (s : State) (g' : GroupId) (j : SlotId) : (s.markGroup g').record j = s.record j := rfl
@[simp] theorem State.markGroup_check (s : State) (g' : GroupId) (j : SlotId) : (s.markGroup g').check j = s.check j := rfl
@[simp] theorem State.markGroup_profile (s : State) (g' : GroupId) (j : ProfileId) : (s.markGroup g').profile j = s.profile j := rfl
@[simp] theorem State.markGroup_bay (s : State) (g' : GroupId) (d : BayId) : (s.markGroup g').bay d = s.bay d := rfl
@[simp] theorem State.markGroup_entry (s : State) (g' : GroupId) (g : EntryId) : (s.markGroup g').entry g = s.entry g := rfl
@[simp] theorem State.markGroup_queue (s : State) (g' : GroupId) (j : ProfileId) : (s.markGroup g').queue j = s.queue j := rfl
@[simp] theorem State.markGroup_recall (s : State) (g' : GroupId) (d : ClusterId) : (s.markGroup g').recall d = s.recall d := rfl
@[simp] theorem State.markGroup_drawOf (s : State) (g' : GroupId) (v : SweeperId) : (s.markGroup g').drawOf v = s.drawOf v := rfl

/-! #### requestPass -/

@[simp] theorem State.requestPass_pending (s : State) : s.requestPass.pending = s.pending := rfl
@[simp] theorem State.requestPass_phase (s : State) : s.requestPass.phase = s.phase := rfl
@[simp] theorem State.requestPass_ports (s : State) : s.requestPass.ports = s.ports := rfl
@[simp] theorem State.requestPass_records (s : State) : s.requestPass.records = s.records := rfl
@[simp] theorem State.requestPass_checks (s : State) : s.requestPass.checks = s.checks := rfl
@[simp] theorem State.requestPass_seenCounter (s : State) : s.requestPass.seenCounter = s.seenCounter := rfl
@[simp] theorem State.requestPass_corrected (s : State) : s.requestPass.corrected = s.corrected := rfl
@[simp] theorem State.requestPass_scrub (s : State) : s.requestPass.scrub = s.scrub := rfl
@[simp] theorem State.requestPass_scrubDue (s : State) : s.requestPass.scrubDue = s.scrubDue := rfl
@[simp] theorem State.requestPass_profiles (s : State) : s.requestPass.profiles = s.profiles := rfl
@[simp] theorem State.requestPass_bays (s : State) : s.requestPass.bays = s.bays := rfl
@[simp] theorem State.requestPass_latchNumber (s : State) : s.requestPass.latchNumber = s.latchNumber := rfl
@[simp] theorem State.requestPass_site (s : State) : s.requestPass.site = s.site := rfl
@[simp] theorem State.requestPass_supply (s : State) : s.requestPass.supply = s.supply := rfl
@[simp] theorem State.requestPass_periodTimer (s : State) : s.requestPass.periodTimer = s.periodTimer := rfl
@[simp] theorem State.requestPass_passMark (s : State) : s.requestPass.passMark = true := rfl
@[simp] theorem State.requestPass_pendingList (s : State) : s.requestPass.pendingList = s.pendingList := rfl
@[simp] theorem State.requestPass_clock (s : State) : s.requestPass.clock = s.clock := rfl
@[simp] theorem State.requestPass_minuteDue (s : State) : s.requestPass.minuteDue = s.minuteDue := rfl
@[simp] theorem State.requestPass_planMark (s : State) : s.requestPass.planMark = s.planMark := rfl
@[simp] theorem State.requestPass_entries (s : State) : s.requestPass.entries = s.entries := rfl
@[simp] theorem State.requestPass_readyQueues (s : State) : s.requestPass.readyQueues = s.readyQueues := rfl
@[simp] theorem State.requestPass_recalls (s : State) : s.requestPass.recalls = s.recalls := rfl
@[simp] theorem State.requestPass_draws (s : State) : s.requestPass.draws = s.draws := rfl
@[simp] theorem State.requestPass_freeUses (s : State) : s.requestPass.freeUses = s.freeUses := rfl
@[simp] theorem State.requestPass_port (s : State) (q : PortId) : s.requestPass.port q = s.port q := rfl
@[simp] theorem State.requestPass_record (s : State) (j : SlotId) : s.requestPass.record j = s.record j := rfl
@[simp] theorem State.requestPass_check (s : State) (j : SlotId) : s.requestPass.check j = s.check j := rfl
@[simp] theorem State.requestPass_profile (s : State) (j : ProfileId) : s.requestPass.profile j = s.profile j := rfl
@[simp] theorem State.requestPass_bay (s : State) (d : BayId) : s.requestPass.bay d = s.bay d := rfl
@[simp] theorem State.requestPass_entry (s : State) (g : EntryId) : s.requestPass.entry g = s.entry g := rfl
@[simp] theorem State.requestPass_queue (s : State) (j : ProfileId) : s.requestPass.queue j = s.queue j := rfl
@[simp] theorem State.requestPass_recall (s : State) (d : ClusterId) : s.requestPass.recall d = s.recall d := rfl
@[simp] theorem State.requestPass_drawOf (s : State) (v : SweeperId) : s.requestPass.drawOf v = s.drawOf v := rfl

/-! #### requestPlan -/

@[simp] theorem State.requestPlan_pending (s : State) : s.requestPlan.pending = s.pending := rfl
@[simp] theorem State.requestPlan_phase (s : State) : s.requestPlan.phase = s.phase := rfl
@[simp] theorem State.requestPlan_ports (s : State) : s.requestPlan.ports = s.ports := rfl
@[simp] theorem State.requestPlan_records (s : State) : s.requestPlan.records = s.records := rfl
@[simp] theorem State.requestPlan_checks (s : State) : s.requestPlan.checks = s.checks := rfl
@[simp] theorem State.requestPlan_seenCounter (s : State) : s.requestPlan.seenCounter = s.seenCounter := rfl
@[simp] theorem State.requestPlan_corrected (s : State) : s.requestPlan.corrected = s.corrected := rfl
@[simp] theorem State.requestPlan_scrub (s : State) : s.requestPlan.scrub = s.scrub := rfl
@[simp] theorem State.requestPlan_scrubDue (s : State) : s.requestPlan.scrubDue = s.scrubDue := rfl
@[simp] theorem State.requestPlan_profiles (s : State) : s.requestPlan.profiles = s.profiles := rfl
@[simp] theorem State.requestPlan_bays (s : State) : s.requestPlan.bays = s.bays := rfl
@[simp] theorem State.requestPlan_latchNumber (s : State) : s.requestPlan.latchNumber = s.latchNumber := rfl
@[simp] theorem State.requestPlan_site (s : State) : s.requestPlan.site = s.site := rfl
@[simp] theorem State.requestPlan_supply (s : State) : s.requestPlan.supply = s.supply := rfl
@[simp] theorem State.requestPlan_periodTimer (s : State) : s.requestPlan.periodTimer = s.periodTimer := rfl
@[simp] theorem State.requestPlan_passMark (s : State) : s.requestPlan.passMark = s.passMark := rfl
@[simp] theorem State.requestPlan_pendingList (s : State) : s.requestPlan.pendingList = s.pendingList := rfl
@[simp] theorem State.requestPlan_clock (s : State) : s.requestPlan.clock = s.clock := rfl
@[simp] theorem State.requestPlan_minuteDue (s : State) : s.requestPlan.minuteDue = s.minuteDue := rfl
@[simp] theorem State.requestPlan_planMark (s : State) : s.requestPlan.planMark = true := rfl
@[simp] theorem State.requestPlan_entries (s : State) : s.requestPlan.entries = s.entries := rfl
@[simp] theorem State.requestPlan_readyQueues (s : State) : s.requestPlan.readyQueues = s.readyQueues := rfl
@[simp] theorem State.requestPlan_recalls (s : State) : s.requestPlan.recalls = s.recalls := rfl
@[simp] theorem State.requestPlan_draws (s : State) : s.requestPlan.draws = s.draws := rfl
@[simp] theorem State.requestPlan_freeUses (s : State) : s.requestPlan.freeUses = s.freeUses := rfl
@[simp] theorem State.requestPlan_port (s : State) (q : PortId) : s.requestPlan.port q = s.port q := rfl
@[simp] theorem State.requestPlan_record (s : State) (j : SlotId) : s.requestPlan.record j = s.record j := rfl
@[simp] theorem State.requestPlan_check (s : State) (j : SlotId) : s.requestPlan.check j = s.check j := rfl
@[simp] theorem State.requestPlan_profile (s : State) (j : ProfileId) : s.requestPlan.profile j = s.profile j := rfl
@[simp] theorem State.requestPlan_bay (s : State) (d : BayId) : s.requestPlan.bay d = s.bay d := rfl
@[simp] theorem State.requestPlan_entry (s : State) (g : EntryId) : s.requestPlan.entry g = s.entry g := rfl
@[simp] theorem State.requestPlan_queue (s : State) (j : ProfileId) : s.requestPlan.queue j = s.queue j := rfl
@[simp] theorem State.requestPlan_recall (s : State) (d : ClusterId) : s.requestPlan.recall d = s.recall d := rfl
@[simp] theorem State.requestPlan_drawOf (s : State) (v : SweeperId) : s.requestPlan.drawOf v = s.drawOf v := rfl

/-! #### dropIncrease -/

@[simp] theorem State.dropIncrease_pending (s : State) (b : BayId) : (s.dropIncrease b).pending = s.pending := rfl
@[simp] theorem State.dropIncrease_phase (s : State) (b : BayId) : (s.dropIncrease b).phase = s.phase := rfl
@[simp] theorem State.dropIncrease_ports (s : State) (b : BayId) : (s.dropIncrease b).ports = s.ports := rfl
@[simp] theorem State.dropIncrease_records (s : State) (b : BayId) : (s.dropIncrease b).records = s.records := rfl
@[simp] theorem State.dropIncrease_checks (s : State) (b : BayId) : (s.dropIncrease b).checks = s.checks := rfl
@[simp] theorem State.dropIncrease_seenCounter (s : State) (b : BayId) : (s.dropIncrease b).seenCounter = s.seenCounter := rfl
@[simp] theorem State.dropIncrease_corrected (s : State) (b : BayId) : (s.dropIncrease b).corrected = s.corrected := rfl
@[simp] theorem State.dropIncrease_scrub (s : State) (b : BayId) : (s.dropIncrease b).scrub = s.scrub := rfl
@[simp] theorem State.dropIncrease_scrubDue (s : State) (b : BayId) : (s.dropIncrease b).scrubDue = s.scrubDue := rfl
@[simp] theorem State.dropIncrease_profiles (s : State) (b : BayId) : (s.dropIncrease b).profiles = s.profiles := rfl
@[simp] theorem State.dropIncrease_bays (s : State) (b : BayId) : (s.dropIncrease b).bays = s.bays := rfl
@[simp] theorem State.dropIncrease_latchNumber (s : State) (b : BayId) : (s.dropIncrease b).latchNumber = s.latchNumber := rfl
@[simp] theorem State.dropIncrease_site (s : State) (b : BayId) : (s.dropIncrease b).site = s.site := rfl
@[simp] theorem State.dropIncrease_supply (s : State) (b : BayId) : (s.dropIncrease b).supply = s.supply := rfl
@[simp] theorem State.dropIncrease_periodTimer (s : State) (b : BayId) : (s.dropIncrease b).periodTimer = s.periodTimer := rfl
@[simp] theorem State.dropIncrease_passMark (s : State) (b : BayId) : (s.dropIncrease b).passMark = s.passMark := rfl
@[simp] theorem State.dropIncrease_pendingList (s : State) (b : BayId) : (s.dropIncrease b).pendingList = s.pendingList.filter fun y => y.bay != b := rfl
@[simp] theorem State.dropIncrease_clock (s : State) (b : BayId) : (s.dropIncrease b).clock = s.clock := rfl
@[simp] theorem State.dropIncrease_minuteDue (s : State) (b : BayId) : (s.dropIncrease b).minuteDue = s.minuteDue := rfl
@[simp] theorem State.dropIncrease_planMark (s : State) (b : BayId) : (s.dropIncrease b).planMark = s.planMark := rfl
@[simp] theorem State.dropIncrease_entries (s : State) (b : BayId) : (s.dropIncrease b).entries = s.entries := rfl
@[simp] theorem State.dropIncrease_readyQueues (s : State) (b : BayId) : (s.dropIncrease b).readyQueues = s.readyQueues := rfl
@[simp] theorem State.dropIncrease_recalls (s : State) (b : BayId) : (s.dropIncrease b).recalls = s.recalls := rfl
@[simp] theorem State.dropIncrease_draws (s : State) (b : BayId) : (s.dropIncrease b).draws = s.draws := rfl
@[simp] theorem State.dropIncrease_freeUses (s : State) (b : BayId) : (s.dropIncrease b).freeUses = s.freeUses := rfl
@[simp] theorem State.dropIncrease_port (s : State) (b : BayId) (q : PortId) : (s.dropIncrease b).port q = s.port q := rfl
@[simp] theorem State.dropIncrease_record (s : State) (b : BayId) (j : SlotId) : (s.dropIncrease b).record j = s.record j := rfl
@[simp] theorem State.dropIncrease_check (s : State) (b : BayId) (j : SlotId) : (s.dropIncrease b).check j = s.check j := rfl
@[simp] theorem State.dropIncrease_profile (s : State) (b : BayId) (j : ProfileId) : (s.dropIncrease b).profile j = s.profile j := rfl
@[simp] theorem State.dropIncrease_bay (s : State) (b : BayId) (d : BayId) : (s.dropIncrease b).bay d = s.bay d := rfl
@[simp] theorem State.dropIncrease_entry (s : State) (b : BayId) (g : EntryId) : (s.dropIncrease b).entry g = s.entry g := rfl
@[simp] theorem State.dropIncrease_queue (s : State) (b : BayId) (j : ProfileId) : (s.dropIncrease b).queue j = s.queue j := rfl
@[simp] theorem State.dropIncrease_recall (s : State) (b : BayId) (d : ClusterId) : (s.dropIncrease b).recall d = s.recall d := rfl
@[simp] theorem State.dropIncrease_drawOf (s : State) (b : BayId) (v : SweeperId) : (s.dropIncrease b).drawOf v = s.drawOf v := rfl

/-! #### joinReady -/

@[simp] theorem State.joinReady_pending (s : State) (k : ProfileId) (i : SlotId) : (s.joinReady k i).pending = s.pending := rfl
@[simp] theorem State.joinReady_phase (s : State) (k : ProfileId) (i : SlotId) : (s.joinReady k i).phase = s.phase := rfl
@[simp] theorem State.joinReady_ports (s : State) (k : ProfileId) (i : SlotId) : (s.joinReady k i).ports = s.ports := rfl
@[simp] theorem State.joinReady_records (s : State) (k : ProfileId) (i : SlotId) : (s.joinReady k i).records = s.records := rfl
@[simp] theorem State.joinReady_checks (s : State) (k : ProfileId) (i : SlotId) : (s.joinReady k i).checks = s.checks := rfl
@[simp] theorem State.joinReady_seenCounter (s : State) (k : ProfileId) (i : SlotId) : (s.joinReady k i).seenCounter = s.seenCounter := rfl
@[simp] theorem State.joinReady_corrected (s : State) (k : ProfileId) (i : SlotId) : (s.joinReady k i).corrected = s.corrected := rfl
@[simp] theorem State.joinReady_scrub (s : State) (k : ProfileId) (i : SlotId) : (s.joinReady k i).scrub = s.scrub := rfl
@[simp] theorem State.joinReady_scrubDue (s : State) (k : ProfileId) (i : SlotId) : (s.joinReady k i).scrubDue = s.scrubDue := rfl
@[simp] theorem State.joinReady_profiles (s : State) (k : ProfileId) (i : SlotId) : (s.joinReady k i).profiles = s.profiles := rfl
@[simp] theorem State.joinReady_bays (s : State) (k : ProfileId) (i : SlotId) : (s.joinReady k i).bays = s.bays := rfl
@[simp] theorem State.joinReady_latchNumber (s : State) (k : ProfileId) (i : SlotId) : (s.joinReady k i).latchNumber = s.latchNumber := rfl
@[simp] theorem State.joinReady_site (s : State) (k : ProfileId) (i : SlotId) : (s.joinReady k i).site = s.site := rfl
@[simp] theorem State.joinReady_supply (s : State) (k : ProfileId) (i : SlotId) : (s.joinReady k i).supply = s.supply := rfl
@[simp] theorem State.joinReady_periodTimer (s : State) (k : ProfileId) (i : SlotId) : (s.joinReady k i).periodTimer = s.periodTimer := rfl
@[simp] theorem State.joinReady_passMark (s : State) (k : ProfileId) (i : SlotId) : (s.joinReady k i).passMark = s.passMark := rfl
@[simp] theorem State.joinReady_pendingList (s : State) (k : ProfileId) (i : SlotId) : (s.joinReady k i).pendingList = s.pendingList := rfl
@[simp] theorem State.joinReady_clock (s : State) (k : ProfileId) (i : SlotId) : (s.joinReady k i).clock = s.clock := rfl
@[simp] theorem State.joinReady_minuteDue (s : State) (k : ProfileId) (i : SlotId) : (s.joinReady k i).minuteDue = s.minuteDue := rfl
@[simp] theorem State.joinReady_planMark (s : State) (k : ProfileId) (i : SlotId) : (s.joinReady k i).planMark = s.planMark := rfl
@[simp] theorem State.joinReady_entries (s : State) (k : ProfileId) (i : SlotId) : (s.joinReady k i).entries = s.entries := rfl
@[simp] theorem State.joinReady_recalls (s : State) (k : ProfileId) (i : SlotId) : (s.joinReady k i).recalls = s.recalls := rfl
@[simp] theorem State.joinReady_draws (s : State) (k : ProfileId) (i : SlotId) : (s.joinReady k i).draws = s.draws := rfl
@[simp] theorem State.joinReady_freeUses (s : State) (k : ProfileId) (i : SlotId) : (s.joinReady k i).freeUses = s.freeUses := rfl
@[simp] theorem State.joinReady_port (s : State) (k : ProfileId) (i : SlotId) (q : PortId) : (s.joinReady k i).port q = s.port q := rfl
@[simp] theorem State.joinReady_record (s : State) (k : ProfileId) (i : SlotId) (j : SlotId) : (s.joinReady k i).record j = s.record j := rfl
@[simp] theorem State.joinReady_check (s : State) (k : ProfileId) (i : SlotId) (j : SlotId) : (s.joinReady k i).check j = s.check j := rfl
@[simp] theorem State.joinReady_profile (s : State) (k : ProfileId) (i : SlotId) (j : ProfileId) : (s.joinReady k i).profile j = s.profile j := rfl
@[simp] theorem State.joinReady_bay (s : State) (k : ProfileId) (i : SlotId) (d : BayId) : (s.joinReady k i).bay d = s.bay d := rfl
@[simp] theorem State.joinReady_entry (s : State) (k : ProfileId) (i : SlotId) (g : EntryId) : (s.joinReady k i).entry g = s.entry g := rfl
@[simp] theorem State.joinReady_recall (s : State) (k : ProfileId) (i : SlotId) (d : ClusterId) : (s.joinReady k i).recall d = s.recall d := rfl
@[simp] theorem State.joinReady_drawOf (s : State) (k : ProfileId) (i : SlotId) (v : SweeperId) : (s.joinReady k i).drawOf v = s.drawOf v := rfl

/-! #### leaveReady -/

@[simp] theorem State.leaveReady_pending (s : State) (i : SlotId) : (s.leaveReady i).pending = s.pending := rfl
@[simp] theorem State.leaveReady_phase (s : State) (i : SlotId) : (s.leaveReady i).phase = s.phase := rfl
@[simp] theorem State.leaveReady_ports (s : State) (i : SlotId) : (s.leaveReady i).ports = s.ports := rfl
@[simp] theorem State.leaveReady_records (s : State) (i : SlotId) : (s.leaveReady i).records = s.records := rfl
@[simp] theorem State.leaveReady_checks (s : State) (i : SlotId) : (s.leaveReady i).checks = s.checks := rfl
@[simp] theorem State.leaveReady_seenCounter (s : State) (i : SlotId) : (s.leaveReady i).seenCounter = s.seenCounter := rfl
@[simp] theorem State.leaveReady_corrected (s : State) (i : SlotId) : (s.leaveReady i).corrected = s.corrected := rfl
@[simp] theorem State.leaveReady_scrub (s : State) (i : SlotId) : (s.leaveReady i).scrub = s.scrub := rfl
@[simp] theorem State.leaveReady_scrubDue (s : State) (i : SlotId) : (s.leaveReady i).scrubDue = s.scrubDue := rfl
@[simp] theorem State.leaveReady_profiles (s : State) (i : SlotId) : (s.leaveReady i).profiles = s.profiles := rfl
@[simp] theorem State.leaveReady_bays (s : State) (i : SlotId) : (s.leaveReady i).bays = s.bays := rfl
@[simp] theorem State.leaveReady_latchNumber (s : State) (i : SlotId) : (s.leaveReady i).latchNumber = s.latchNumber := rfl
@[simp] theorem State.leaveReady_site (s : State) (i : SlotId) : (s.leaveReady i).site = s.site := rfl
@[simp] theorem State.leaveReady_supply (s : State) (i : SlotId) : (s.leaveReady i).supply = s.supply := rfl
@[simp] theorem State.leaveReady_periodTimer (s : State) (i : SlotId) : (s.leaveReady i).periodTimer = s.periodTimer := rfl
@[simp] theorem State.leaveReady_passMark (s : State) (i : SlotId) : (s.leaveReady i).passMark = s.passMark := rfl
@[simp] theorem State.leaveReady_pendingList (s : State) (i : SlotId) : (s.leaveReady i).pendingList = s.pendingList := rfl
@[simp] theorem State.leaveReady_clock (s : State) (i : SlotId) : (s.leaveReady i).clock = s.clock := rfl
@[simp] theorem State.leaveReady_minuteDue (s : State) (i : SlotId) : (s.leaveReady i).minuteDue = s.minuteDue := rfl
@[simp] theorem State.leaveReady_planMark (s : State) (i : SlotId) : (s.leaveReady i).planMark = s.planMark := rfl
@[simp] theorem State.leaveReady_entries (s : State) (i : SlotId) : (s.leaveReady i).entries = s.entries := rfl
@[simp] theorem State.leaveReady_recalls (s : State) (i : SlotId) : (s.leaveReady i).recalls = s.recalls := rfl
@[simp] theorem State.leaveReady_draws (s : State) (i : SlotId) : (s.leaveReady i).draws = s.draws := rfl
@[simp] theorem State.leaveReady_freeUses (s : State) (i : SlotId) : (s.leaveReady i).freeUses = s.freeUses := rfl
@[simp] theorem State.leaveReady_port (s : State) (i : SlotId) (q : PortId) : (s.leaveReady i).port q = s.port q := rfl
@[simp] theorem State.leaveReady_record (s : State) (i : SlotId) (j : SlotId) : (s.leaveReady i).record j = s.record j := rfl
@[simp] theorem State.leaveReady_check (s : State) (i : SlotId) (j : SlotId) : (s.leaveReady i).check j = s.check j := rfl
@[simp] theorem State.leaveReady_profile (s : State) (i : SlotId) (j : ProfileId) : (s.leaveReady i).profile j = s.profile j := rfl
@[simp] theorem State.leaveReady_bay (s : State) (i : SlotId) (d : BayId) : (s.leaveReady i).bay d = s.bay d := rfl
@[simp] theorem State.leaveReady_entry (s : State) (i : SlotId) (g : EntryId) : (s.leaveReady i).entry g = s.entry g := rfl
@[simp] theorem State.leaveReady_recall (s : State) (i : SlotId) (d : ClusterId) : (s.leaveReady i).recall d = s.recall d := rfl
@[simp] theorem State.leaveReady_drawOf (s : State) (i : SlotId) (v : SweeperId) : (s.leaveReady i).drawOf v = s.drawOf v := rfl

/-! #### removeRecall -/

@[simp] theorem State.removeRecall_pending (s : State) (i : SlotId) : (s.removeRecall i).pending = s.pending := rfl
@[simp] theorem State.removeRecall_phase (s : State) (i : SlotId) : (s.removeRecall i).phase = s.phase := rfl
@[simp] theorem State.removeRecall_ports (s : State) (i : SlotId) : (s.removeRecall i).ports = s.ports := rfl
@[simp] theorem State.removeRecall_records (s : State) (i : SlotId) : (s.removeRecall i).records = s.records := rfl
@[simp] theorem State.removeRecall_checks (s : State) (i : SlotId) : (s.removeRecall i).checks = s.checks := rfl
@[simp] theorem State.removeRecall_seenCounter (s : State) (i : SlotId) : (s.removeRecall i).seenCounter = s.seenCounter := rfl
@[simp] theorem State.removeRecall_corrected (s : State) (i : SlotId) : (s.removeRecall i).corrected = s.corrected := rfl
@[simp] theorem State.removeRecall_scrub (s : State) (i : SlotId) : (s.removeRecall i).scrub = s.scrub := rfl
@[simp] theorem State.removeRecall_scrubDue (s : State) (i : SlotId) : (s.removeRecall i).scrubDue = s.scrubDue := rfl
@[simp] theorem State.removeRecall_profiles (s : State) (i : SlotId) : (s.removeRecall i).profiles = s.profiles := rfl
@[simp] theorem State.removeRecall_bays (s : State) (i : SlotId) : (s.removeRecall i).bays = s.bays := rfl
@[simp] theorem State.removeRecall_latchNumber (s : State) (i : SlotId) : (s.removeRecall i).latchNumber = s.latchNumber := rfl
@[simp] theorem State.removeRecall_site (s : State) (i : SlotId) : (s.removeRecall i).site = s.site := rfl
@[simp] theorem State.removeRecall_supply (s : State) (i : SlotId) : (s.removeRecall i).supply = s.supply := rfl
@[simp] theorem State.removeRecall_periodTimer (s : State) (i : SlotId) : (s.removeRecall i).periodTimer = s.periodTimer := rfl
@[simp] theorem State.removeRecall_passMark (s : State) (i : SlotId) : (s.removeRecall i).passMark = s.passMark := rfl
@[simp] theorem State.removeRecall_pendingList (s : State) (i : SlotId) : (s.removeRecall i).pendingList = s.pendingList := rfl
@[simp] theorem State.removeRecall_clock (s : State) (i : SlotId) : (s.removeRecall i).clock = s.clock := rfl
@[simp] theorem State.removeRecall_minuteDue (s : State) (i : SlotId) : (s.removeRecall i).minuteDue = s.minuteDue := rfl
@[simp] theorem State.removeRecall_planMark (s : State) (i : SlotId) : (s.removeRecall i).planMark = s.planMark := rfl
@[simp] theorem State.removeRecall_entries (s : State) (i : SlotId) : (s.removeRecall i).entries = s.entries := rfl
@[simp] theorem State.removeRecall_readyQueues (s : State) (i : SlotId) : (s.removeRecall i).readyQueues = s.readyQueues := rfl
@[simp] theorem State.removeRecall_draws (s : State) (i : SlotId) : (s.removeRecall i).draws = s.draws := rfl
@[simp] theorem State.removeRecall_freeUses (s : State) (i : SlotId) : (s.removeRecall i).freeUses = s.freeUses := rfl
@[simp] theorem State.removeRecall_port (s : State) (i : SlotId) (q : PortId) : (s.removeRecall i).port q = s.port q := rfl
@[simp] theorem State.removeRecall_record (s : State) (i : SlotId) (j : SlotId) : (s.removeRecall i).record j = s.record j := rfl
@[simp] theorem State.removeRecall_check (s : State) (i : SlotId) (j : SlotId) : (s.removeRecall i).check j = s.check j := rfl
@[simp] theorem State.removeRecall_profile (s : State) (i : SlotId) (j : ProfileId) : (s.removeRecall i).profile j = s.profile j := rfl
@[simp] theorem State.removeRecall_bay (s : State) (i : SlotId) (d : BayId) : (s.removeRecall i).bay d = s.bay d := rfl
@[simp] theorem State.removeRecall_entry (s : State) (i : SlotId) (g : EntryId) : (s.removeRecall i).entry g = s.entry g := rfl
@[simp] theorem State.removeRecall_queue (s : State) (i : SlotId) (j : ProfileId) : (s.removeRecall i).queue j = s.queue j := rfl
@[simp] theorem State.removeRecall_drawOf (s : State) (i : SlotId) (v : SweeperId) : (s.removeRecall i).drawOf v = s.drawOf v := rfl

/-! #### appendRecall -/

@[simp] theorem State.appendRecall_pending (s : State) (c : ClusterId) (r : Recall) : (s.appendRecall c r).pending = s.pending := rfl
@[simp] theorem State.appendRecall_phase (s : State) (c : ClusterId) (r : Recall) : (s.appendRecall c r).phase = s.phase := rfl
@[simp] theorem State.appendRecall_ports (s : State) (c : ClusterId) (r : Recall) : (s.appendRecall c r).ports = s.ports := rfl
@[simp] theorem State.appendRecall_records (s : State) (c : ClusterId) (r : Recall) : (s.appendRecall c r).records = s.records := rfl
@[simp] theorem State.appendRecall_checks (s : State) (c : ClusterId) (r : Recall) : (s.appendRecall c r).checks = s.checks := rfl
@[simp] theorem State.appendRecall_seenCounter (s : State) (c : ClusterId) (r : Recall) : (s.appendRecall c r).seenCounter = s.seenCounter := rfl
@[simp] theorem State.appendRecall_corrected (s : State) (c : ClusterId) (r : Recall) : (s.appendRecall c r).corrected = s.corrected := rfl
@[simp] theorem State.appendRecall_scrub (s : State) (c : ClusterId) (r : Recall) : (s.appendRecall c r).scrub = s.scrub := rfl
@[simp] theorem State.appendRecall_scrubDue (s : State) (c : ClusterId) (r : Recall) : (s.appendRecall c r).scrubDue = s.scrubDue := rfl
@[simp] theorem State.appendRecall_profiles (s : State) (c : ClusterId) (r : Recall) : (s.appendRecall c r).profiles = s.profiles := rfl
@[simp] theorem State.appendRecall_bays (s : State) (c : ClusterId) (r : Recall) : (s.appendRecall c r).bays = s.bays := rfl
@[simp] theorem State.appendRecall_latchNumber (s : State) (c : ClusterId) (r : Recall) : (s.appendRecall c r).latchNumber = s.latchNumber := rfl
@[simp] theorem State.appendRecall_site (s : State) (c : ClusterId) (r : Recall) : (s.appendRecall c r).site = s.site := rfl
@[simp] theorem State.appendRecall_supply (s : State) (c : ClusterId) (r : Recall) : (s.appendRecall c r).supply = s.supply := rfl
@[simp] theorem State.appendRecall_periodTimer (s : State) (c : ClusterId) (r : Recall) : (s.appendRecall c r).periodTimer = s.periodTimer := rfl
@[simp] theorem State.appendRecall_passMark (s : State) (c : ClusterId) (r : Recall) : (s.appendRecall c r).passMark = s.passMark := rfl
@[simp] theorem State.appendRecall_pendingList (s : State) (c : ClusterId) (r : Recall) : (s.appendRecall c r).pendingList = s.pendingList := rfl
@[simp] theorem State.appendRecall_clock (s : State) (c : ClusterId) (r : Recall) : (s.appendRecall c r).clock = s.clock := rfl
@[simp] theorem State.appendRecall_minuteDue (s : State) (c : ClusterId) (r : Recall) : (s.appendRecall c r).minuteDue = s.minuteDue := rfl
@[simp] theorem State.appendRecall_planMark (s : State) (c : ClusterId) (r : Recall) : (s.appendRecall c r).planMark = s.planMark := rfl
@[simp] theorem State.appendRecall_entries (s : State) (c : ClusterId) (r : Recall) : (s.appendRecall c r).entries = s.entries := rfl
@[simp] theorem State.appendRecall_readyQueues (s : State) (c : ClusterId) (r : Recall) : (s.appendRecall c r).readyQueues = s.readyQueues := rfl
@[simp] theorem State.appendRecall_draws (s : State) (c : ClusterId) (r : Recall) : (s.appendRecall c r).draws = s.draws := rfl
@[simp] theorem State.appendRecall_freeUses (s : State) (c : ClusterId) (r : Recall) : (s.appendRecall c r).freeUses = s.freeUses := rfl
@[simp] theorem State.appendRecall_port (s : State) (c : ClusterId) (r : Recall) (q : PortId) : (s.appendRecall c r).port q = s.port q := rfl
@[simp] theorem State.appendRecall_record (s : State) (c : ClusterId) (r : Recall) (j : SlotId) : (s.appendRecall c r).record j = s.record j := rfl
@[simp] theorem State.appendRecall_check (s : State) (c : ClusterId) (r : Recall) (j : SlotId) : (s.appendRecall c r).check j = s.check j := rfl
@[simp] theorem State.appendRecall_profile (s : State) (c : ClusterId) (r : Recall) (j : ProfileId) : (s.appendRecall c r).profile j = s.profile j := rfl
@[simp] theorem State.appendRecall_bay (s : State) (c : ClusterId) (r : Recall) (d : BayId) : (s.appendRecall c r).bay d = s.bay d := rfl
@[simp] theorem State.appendRecall_entry (s : State) (c : ClusterId) (r : Recall) (g : EntryId) : (s.appendRecall c r).entry g = s.entry g := rfl
@[simp] theorem State.appendRecall_queue (s : State) (c : ClusterId) (r : Recall) (j : ProfileId) : (s.appendRecall c r).queue j = s.queue j := rfl
@[simp] theorem State.appendRecall_drawOf (s : State) (c : ClusterId) (r : Recall) (v : SweeperId) : (s.appendRecall c r).drawOf v = s.drawOf v := rfl

/-! #### countSeen -/

@[simp] theorem State.countSeen_pending (s : State) : s.countSeen.pending = s.pending := rfl
@[simp] theorem State.countSeen_phase (s : State) : s.countSeen.phase = s.phase := rfl
@[simp] theorem State.countSeen_ports (s : State) : s.countSeen.ports = s.ports := rfl
@[simp] theorem State.countSeen_records (s : State) : s.countSeen.records = s.records := rfl
@[simp] theorem State.countSeen_checks (s : State) : s.countSeen.checks = s.checks := rfl
@[simp] theorem State.countSeen_seenCounter (s : State) : s.countSeen.seenCounter = countTo 4294967295 s.seenCounter := rfl
@[simp] theorem State.countSeen_corrected (s : State) : s.countSeen.corrected = s.corrected := rfl
@[simp] theorem State.countSeen_scrub (s : State) : s.countSeen.scrub = s.scrub := rfl
@[simp] theorem State.countSeen_scrubDue (s : State) : s.countSeen.scrubDue = s.scrubDue := rfl
@[simp] theorem State.countSeen_profiles (s : State) : s.countSeen.profiles = s.profiles := rfl
@[simp] theorem State.countSeen_bays (s : State) : s.countSeen.bays = s.bays := rfl
@[simp] theorem State.countSeen_latchNumber (s : State) : s.countSeen.latchNumber = s.latchNumber := rfl
@[simp] theorem State.countSeen_site (s : State) : s.countSeen.site = s.site := rfl
@[simp] theorem State.countSeen_supply (s : State) : s.countSeen.supply = s.supply := rfl
@[simp] theorem State.countSeen_periodTimer (s : State) : s.countSeen.periodTimer = s.periodTimer := rfl
@[simp] theorem State.countSeen_passMark (s : State) : s.countSeen.passMark = s.passMark := rfl
@[simp] theorem State.countSeen_pendingList (s : State) : s.countSeen.pendingList = s.pendingList := rfl
@[simp] theorem State.countSeen_clock (s : State) : s.countSeen.clock = s.clock := rfl
@[simp] theorem State.countSeen_minuteDue (s : State) : s.countSeen.minuteDue = s.minuteDue := rfl
@[simp] theorem State.countSeen_planMark (s : State) : s.countSeen.planMark = s.planMark := rfl
@[simp] theorem State.countSeen_entries (s : State) : s.countSeen.entries = s.entries := rfl
@[simp] theorem State.countSeen_readyQueues (s : State) : s.countSeen.readyQueues = s.readyQueues := rfl
@[simp] theorem State.countSeen_recalls (s : State) : s.countSeen.recalls = s.recalls := rfl
@[simp] theorem State.countSeen_draws (s : State) : s.countSeen.draws = s.draws := rfl
@[simp] theorem State.countSeen_freeUses (s : State) : s.countSeen.freeUses = s.freeUses := rfl
@[simp] theorem State.countSeen_port (s : State) (q : PortId) : s.countSeen.port q = s.port q := rfl
@[simp] theorem State.countSeen_record (s : State) (j : SlotId) : s.countSeen.record j = s.record j := rfl
@[simp] theorem State.countSeen_check (s : State) (j : SlotId) : s.countSeen.check j = s.check j := rfl
@[simp] theorem State.countSeen_profile (s : State) (j : ProfileId) : s.countSeen.profile j = s.profile j := rfl
@[simp] theorem State.countSeen_bay (s : State) (d : BayId) : s.countSeen.bay d = s.bay d := rfl
@[simp] theorem State.countSeen_entry (s : State) (g : EntryId) : s.countSeen.entry g = s.entry g := rfl
@[simp] theorem State.countSeen_queue (s : State) (j : ProfileId) : s.countSeen.queue j = s.queue j := rfl
@[simp] theorem State.countSeen_recall (s : State) (d : ClusterId) : s.countSeen.recall d = s.recall d := rfl
@[simp] theorem State.countSeen_drawOf (s : State) (v : SweeperId) : s.countSeen.drawOf v = s.drawOf v := rfl

/-! #### fixResult -/

@[simp] theorem State.fixResult_pending (s : State) (p : PortId) (r : ResultCode) (o : List Byte) : (s.fixResult p r o).pending = s.pending := rfl
@[simp] theorem State.fixResult_phase (s : State) (p : PortId) (r : ResultCode) (o : List Byte) : (s.fixResult p r o).phase = s.phase := rfl
@[simp] theorem State.fixResult_records (s : State) (p : PortId) (r : ResultCode) (o : List Byte) : (s.fixResult p r o).records = s.records := rfl
@[simp] theorem State.fixResult_checks (s : State) (p : PortId) (r : ResultCode) (o : List Byte) : (s.fixResult p r o).checks = s.checks := rfl
@[simp] theorem State.fixResult_seenCounter (s : State) (p : PortId) (r : ResultCode) (o : List Byte) : (s.fixResult p r o).seenCounter = s.seenCounter := rfl
@[simp] theorem State.fixResult_corrected (s : State) (p : PortId) (r : ResultCode) (o : List Byte) : (s.fixResult p r o).corrected = s.corrected := rfl
@[simp] theorem State.fixResult_scrub (s : State) (p : PortId) (r : ResultCode) (o : List Byte) : (s.fixResult p r o).scrub = s.scrub := rfl
@[simp] theorem State.fixResult_scrubDue (s : State) (p : PortId) (r : ResultCode) (o : List Byte) : (s.fixResult p r o).scrubDue = s.scrubDue := rfl
@[simp] theorem State.fixResult_profiles (s : State) (p : PortId) (r : ResultCode) (o : List Byte) : (s.fixResult p r o).profiles = s.profiles := rfl
@[simp] theorem State.fixResult_bays (s : State) (p : PortId) (r : ResultCode) (o : List Byte) : (s.fixResult p r o).bays = s.bays := rfl
@[simp] theorem State.fixResult_latchNumber (s : State) (p : PortId) (r : ResultCode) (o : List Byte) : (s.fixResult p r o).latchNumber = s.latchNumber := rfl
@[simp] theorem State.fixResult_site (s : State) (p : PortId) (r : ResultCode) (o : List Byte) : (s.fixResult p r o).site = s.site := rfl
@[simp] theorem State.fixResult_supply (s : State) (p : PortId) (r : ResultCode) (o : List Byte) : (s.fixResult p r o).supply = s.supply := rfl
@[simp] theorem State.fixResult_periodTimer (s : State) (p : PortId) (r : ResultCode) (o : List Byte) : (s.fixResult p r o).periodTimer = s.periodTimer := rfl
@[simp] theorem State.fixResult_passMark (s : State) (p : PortId) (r : ResultCode) (o : List Byte) : (s.fixResult p r o).passMark = s.passMark := rfl
@[simp] theorem State.fixResult_pendingList (s : State) (p : PortId) (r : ResultCode) (o : List Byte) : (s.fixResult p r o).pendingList = s.pendingList := rfl
@[simp] theorem State.fixResult_clock (s : State) (p : PortId) (r : ResultCode) (o : List Byte) : (s.fixResult p r o).clock = s.clock := rfl
@[simp] theorem State.fixResult_minuteDue (s : State) (p : PortId) (r : ResultCode) (o : List Byte) : (s.fixResult p r o).minuteDue = s.minuteDue := rfl
@[simp] theorem State.fixResult_planMark (s : State) (p : PortId) (r : ResultCode) (o : List Byte) : (s.fixResult p r o).planMark = s.planMark := rfl
@[simp] theorem State.fixResult_entries (s : State) (p : PortId) (r : ResultCode) (o : List Byte) : (s.fixResult p r o).entries = s.entries := rfl
@[simp] theorem State.fixResult_readyQueues (s : State) (p : PortId) (r : ResultCode) (o : List Byte) : (s.fixResult p r o).readyQueues = s.readyQueues := rfl
@[simp] theorem State.fixResult_recalls (s : State) (p : PortId) (r : ResultCode) (o : List Byte) : (s.fixResult p r o).recalls = s.recalls := rfl
@[simp] theorem State.fixResult_draws (s : State) (p : PortId) (r : ResultCode) (o : List Byte) : (s.fixResult p r o).draws = s.draws := rfl
@[simp] theorem State.fixResult_freeUses (s : State) (p : PortId) (r : ResultCode) (o : List Byte) : (s.fixResult p r o).freeUses = s.freeUses := rfl
@[simp] theorem State.fixResult_record (s : State) (p : PortId) (r : ResultCode) (o : List Byte) (j : SlotId) : (s.fixResult p r o).record j = s.record j := rfl
@[simp] theorem State.fixResult_check (s : State) (p : PortId) (r : ResultCode) (o : List Byte) (j : SlotId) : (s.fixResult p r o).check j = s.check j := rfl
@[simp] theorem State.fixResult_profile (s : State) (p : PortId) (r : ResultCode) (o : List Byte) (j : ProfileId) : (s.fixResult p r o).profile j = s.profile j := rfl
@[simp] theorem State.fixResult_bay (s : State) (p : PortId) (r : ResultCode) (o : List Byte) (d : BayId) : (s.fixResult p r o).bay d = s.bay d := rfl
@[simp] theorem State.fixResult_entry (s : State) (p : PortId) (r : ResultCode) (o : List Byte) (g : EntryId) : (s.fixResult p r o).entry g = s.entry g := rfl
@[simp] theorem State.fixResult_queue (s : State) (p : PortId) (r : ResultCode) (o : List Byte) (j : ProfileId) : (s.fixResult p r o).queue j = s.queue j := rfl
@[simp] theorem State.fixResult_recall (s : State) (p : PortId) (r : ResultCode) (o : List Byte) (d : ClusterId) : (s.fixResult p r o).recall d = s.recall d := rfl
@[simp] theorem State.fixResult_drawOf (s : State) (p : PortId) (r : ResultCode) (o : List Byte) (v : SweeperId) : (s.fixResult p r o).drawOf v = s.drawOf v := rfl

/-! #### setStream -/

@[simp] theorem State.setStream_pending (s : State) (p : PortId) (x : Option Stream) : (s.setStream p x).pending = s.pending := rfl
@[simp] theorem State.setStream_phase (s : State) (p : PortId) (x : Option Stream) : (s.setStream p x).phase = s.phase := rfl
@[simp] theorem State.setStream_records (s : State) (p : PortId) (x : Option Stream) : (s.setStream p x).records = s.records := rfl
@[simp] theorem State.setStream_checks (s : State) (p : PortId) (x : Option Stream) : (s.setStream p x).checks = s.checks := rfl
@[simp] theorem State.setStream_seenCounter (s : State) (p : PortId) (x : Option Stream) : (s.setStream p x).seenCounter = s.seenCounter := rfl
@[simp] theorem State.setStream_corrected (s : State) (p : PortId) (x : Option Stream) : (s.setStream p x).corrected = s.corrected := rfl
@[simp] theorem State.setStream_scrub (s : State) (p : PortId) (x : Option Stream) : (s.setStream p x).scrub = s.scrub := rfl
@[simp] theorem State.setStream_scrubDue (s : State) (p : PortId) (x : Option Stream) : (s.setStream p x).scrubDue = s.scrubDue := rfl
@[simp] theorem State.setStream_profiles (s : State) (p : PortId) (x : Option Stream) : (s.setStream p x).profiles = s.profiles := rfl
@[simp] theorem State.setStream_bays (s : State) (p : PortId) (x : Option Stream) : (s.setStream p x).bays = s.bays := rfl
@[simp] theorem State.setStream_latchNumber (s : State) (p : PortId) (x : Option Stream) : (s.setStream p x).latchNumber = s.latchNumber := rfl
@[simp] theorem State.setStream_site (s : State) (p : PortId) (x : Option Stream) : (s.setStream p x).site = s.site := rfl
@[simp] theorem State.setStream_supply (s : State) (p : PortId) (x : Option Stream) : (s.setStream p x).supply = s.supply := rfl
@[simp] theorem State.setStream_periodTimer (s : State) (p : PortId) (x : Option Stream) : (s.setStream p x).periodTimer = s.periodTimer := rfl
@[simp] theorem State.setStream_passMark (s : State) (p : PortId) (x : Option Stream) : (s.setStream p x).passMark = s.passMark := rfl
@[simp] theorem State.setStream_pendingList (s : State) (p : PortId) (x : Option Stream) : (s.setStream p x).pendingList = s.pendingList := rfl
@[simp] theorem State.setStream_clock (s : State) (p : PortId) (x : Option Stream) : (s.setStream p x).clock = s.clock := rfl
@[simp] theorem State.setStream_minuteDue (s : State) (p : PortId) (x : Option Stream) : (s.setStream p x).minuteDue = s.minuteDue := rfl
@[simp] theorem State.setStream_planMark (s : State) (p : PortId) (x : Option Stream) : (s.setStream p x).planMark = s.planMark := rfl
@[simp] theorem State.setStream_entries (s : State) (p : PortId) (x : Option Stream) : (s.setStream p x).entries = s.entries := rfl
@[simp] theorem State.setStream_readyQueues (s : State) (p : PortId) (x : Option Stream) : (s.setStream p x).readyQueues = s.readyQueues := rfl
@[simp] theorem State.setStream_recalls (s : State) (p : PortId) (x : Option Stream) : (s.setStream p x).recalls = s.recalls := rfl
@[simp] theorem State.setStream_draws (s : State) (p : PortId) (x : Option Stream) : (s.setStream p x).draws = s.draws := rfl
@[simp] theorem State.setStream_freeUses (s : State) (p : PortId) (x : Option Stream) : (s.setStream p x).freeUses = s.freeUses := rfl
@[simp] theorem State.setStream_record (s : State) (p : PortId) (x : Option Stream) (j : SlotId) : (s.setStream p x).record j = s.record j := rfl
@[simp] theorem State.setStream_check (s : State) (p : PortId) (x : Option Stream) (j : SlotId) : (s.setStream p x).check j = s.check j := rfl
@[simp] theorem State.setStream_profile (s : State) (p : PortId) (x : Option Stream) (j : ProfileId) : (s.setStream p x).profile j = s.profile j := rfl
@[simp] theorem State.setStream_bay (s : State) (p : PortId) (x : Option Stream) (d : BayId) : (s.setStream p x).bay d = s.bay d := rfl
@[simp] theorem State.setStream_entry (s : State) (p : PortId) (x : Option Stream) (g : EntryId) : (s.setStream p x).entry g = s.entry g := rfl
@[simp] theorem State.setStream_queue (s : State) (p : PortId) (x : Option Stream) (j : ProfileId) : (s.setStream p x).queue j = s.queue j := rfl
@[simp] theorem State.setStream_recall (s : State) (p : PortId) (x : Option Stream) (d : ClusterId) : (s.setStream p x).recall d = s.recall d := rfl
@[simp] theorem State.setStream_drawOf (s : State) (p : PortId) (x : Option Stream) (v : SweeperId) : (s.setStream p x).drawOf v = s.drawOf v := rfl

/-! #### setReading -/

@[simp] theorem State.setReading_pending (s : State) (p : PortId) (x : Option Stream) : (s.setReading p x).pending = s.pending := rfl
@[simp] theorem State.setReading_phase (s : State) (p : PortId) (x : Option Stream) : (s.setReading p x).phase = s.phase := rfl
@[simp] theorem State.setReading_records (s : State) (p : PortId) (x : Option Stream) : (s.setReading p x).records = s.records := rfl
@[simp] theorem State.setReading_checks (s : State) (p : PortId) (x : Option Stream) : (s.setReading p x).checks = s.checks := rfl
@[simp] theorem State.setReading_seenCounter (s : State) (p : PortId) (x : Option Stream) : (s.setReading p x).seenCounter = s.seenCounter := rfl
@[simp] theorem State.setReading_corrected (s : State) (p : PortId) (x : Option Stream) : (s.setReading p x).corrected = s.corrected := rfl
@[simp] theorem State.setReading_scrub (s : State) (p : PortId) (x : Option Stream) : (s.setReading p x).scrub = s.scrub := rfl
@[simp] theorem State.setReading_scrubDue (s : State) (p : PortId) (x : Option Stream) : (s.setReading p x).scrubDue = s.scrubDue := rfl
@[simp] theorem State.setReading_profiles (s : State) (p : PortId) (x : Option Stream) : (s.setReading p x).profiles = s.profiles := rfl
@[simp] theorem State.setReading_bays (s : State) (p : PortId) (x : Option Stream) : (s.setReading p x).bays = s.bays := rfl
@[simp] theorem State.setReading_latchNumber (s : State) (p : PortId) (x : Option Stream) : (s.setReading p x).latchNumber = s.latchNumber := rfl
@[simp] theorem State.setReading_site (s : State) (p : PortId) (x : Option Stream) : (s.setReading p x).site = s.site := rfl
@[simp] theorem State.setReading_supply (s : State) (p : PortId) (x : Option Stream) : (s.setReading p x).supply = s.supply := rfl
@[simp] theorem State.setReading_periodTimer (s : State) (p : PortId) (x : Option Stream) : (s.setReading p x).periodTimer = s.periodTimer := rfl
@[simp] theorem State.setReading_passMark (s : State) (p : PortId) (x : Option Stream) : (s.setReading p x).passMark = s.passMark := rfl
@[simp] theorem State.setReading_pendingList (s : State) (p : PortId) (x : Option Stream) : (s.setReading p x).pendingList = s.pendingList := rfl
@[simp] theorem State.setReading_clock (s : State) (p : PortId) (x : Option Stream) : (s.setReading p x).clock = s.clock := rfl
@[simp] theorem State.setReading_minuteDue (s : State) (p : PortId) (x : Option Stream) : (s.setReading p x).minuteDue = s.minuteDue := rfl
@[simp] theorem State.setReading_planMark (s : State) (p : PortId) (x : Option Stream) : (s.setReading p x).planMark = s.planMark := rfl
@[simp] theorem State.setReading_entries (s : State) (p : PortId) (x : Option Stream) : (s.setReading p x).entries = s.entries := rfl
@[simp] theorem State.setReading_readyQueues (s : State) (p : PortId) (x : Option Stream) : (s.setReading p x).readyQueues = s.readyQueues := rfl
@[simp] theorem State.setReading_recalls (s : State) (p : PortId) (x : Option Stream) : (s.setReading p x).recalls = s.recalls := rfl
@[simp] theorem State.setReading_draws (s : State) (p : PortId) (x : Option Stream) : (s.setReading p x).draws = s.draws := rfl
@[simp] theorem State.setReading_freeUses (s : State) (p : PortId) (x : Option Stream) : (s.setReading p x).freeUses = s.freeUses := rfl
@[simp] theorem State.setReading_record (s : State) (p : PortId) (x : Option Stream) (j : SlotId) : (s.setReading p x).record j = s.record j := rfl
@[simp] theorem State.setReading_check (s : State) (p : PortId) (x : Option Stream) (j : SlotId) : (s.setReading p x).check j = s.check j := rfl
@[simp] theorem State.setReading_profile (s : State) (p : PortId) (x : Option Stream) (j : ProfileId) : (s.setReading p x).profile j = s.profile j := rfl
@[simp] theorem State.setReading_bay (s : State) (p : PortId) (x : Option Stream) (d : BayId) : (s.setReading p x).bay d = s.bay d := rfl
@[simp] theorem State.setReading_entry (s : State) (p : PortId) (x : Option Stream) (g : EntryId) : (s.setReading p x).entry g = s.entry g := rfl
@[simp] theorem State.setReading_queue (s : State) (p : PortId) (x : Option Stream) (j : ProfileId) : (s.setReading p x).queue j = s.queue j := rfl
@[simp] theorem State.setReading_recall (s : State) (p : PortId) (x : Option Stream) (d : ClusterId) : (s.setReading p x).recall d = s.recall d := rfl
@[simp] theorem State.setReading_drawOf (s : State) (p : PortId) (x : Option Stream) (v : SweeperId) : (s.setReading p x).drawOf v = s.drawOf v := rfl

/-! #### holdByte -/

@[simp] theorem State.holdByte_pending (s : State) (p : PortId) (x : Byte) : (s.holdByte p x).pending = s.pending := rfl
@[simp] theorem State.holdByte_phase (s : State) (p : PortId) (x : Byte) : (s.holdByte p x).phase = s.phase := rfl
@[simp] theorem State.holdByte_records (s : State) (p : PortId) (x : Byte) : (s.holdByte p x).records = s.records := rfl
@[simp] theorem State.holdByte_checks (s : State) (p : PortId) (x : Byte) : (s.holdByte p x).checks = s.checks := rfl
@[simp] theorem State.holdByte_seenCounter (s : State) (p : PortId) (x : Byte) : (s.holdByte p x).seenCounter = s.seenCounter := rfl
@[simp] theorem State.holdByte_corrected (s : State) (p : PortId) (x : Byte) : (s.holdByte p x).corrected = s.corrected := rfl
@[simp] theorem State.holdByte_scrub (s : State) (p : PortId) (x : Byte) : (s.holdByte p x).scrub = s.scrub := rfl
@[simp] theorem State.holdByte_scrubDue (s : State) (p : PortId) (x : Byte) : (s.holdByte p x).scrubDue = s.scrubDue := rfl
@[simp] theorem State.holdByte_profiles (s : State) (p : PortId) (x : Byte) : (s.holdByte p x).profiles = s.profiles := rfl
@[simp] theorem State.holdByte_bays (s : State) (p : PortId) (x : Byte) : (s.holdByte p x).bays = s.bays := rfl
@[simp] theorem State.holdByte_latchNumber (s : State) (p : PortId) (x : Byte) : (s.holdByte p x).latchNumber = s.latchNumber := rfl
@[simp] theorem State.holdByte_site (s : State) (p : PortId) (x : Byte) : (s.holdByte p x).site = s.site := rfl
@[simp] theorem State.holdByte_supply (s : State) (p : PortId) (x : Byte) : (s.holdByte p x).supply = s.supply := rfl
@[simp] theorem State.holdByte_periodTimer (s : State) (p : PortId) (x : Byte) : (s.holdByte p x).periodTimer = s.periodTimer := rfl
@[simp] theorem State.holdByte_passMark (s : State) (p : PortId) (x : Byte) : (s.holdByte p x).passMark = s.passMark := rfl
@[simp] theorem State.holdByte_pendingList (s : State) (p : PortId) (x : Byte) : (s.holdByte p x).pendingList = s.pendingList := rfl
@[simp] theorem State.holdByte_clock (s : State) (p : PortId) (x : Byte) : (s.holdByte p x).clock = s.clock := rfl
@[simp] theorem State.holdByte_minuteDue (s : State) (p : PortId) (x : Byte) : (s.holdByte p x).minuteDue = s.minuteDue := rfl
@[simp] theorem State.holdByte_planMark (s : State) (p : PortId) (x : Byte) : (s.holdByte p x).planMark = s.planMark := rfl
@[simp] theorem State.holdByte_entries (s : State) (p : PortId) (x : Byte) : (s.holdByte p x).entries = s.entries := rfl
@[simp] theorem State.holdByte_readyQueues (s : State) (p : PortId) (x : Byte) : (s.holdByte p x).readyQueues = s.readyQueues := rfl
@[simp] theorem State.holdByte_recalls (s : State) (p : PortId) (x : Byte) : (s.holdByte p x).recalls = s.recalls := rfl
@[simp] theorem State.holdByte_draws (s : State) (p : PortId) (x : Byte) : (s.holdByte p x).draws = s.draws := rfl
@[simp] theorem State.holdByte_freeUses (s : State) (p : PortId) (x : Byte) : (s.holdByte p x).freeUses = s.freeUses := rfl
@[simp] theorem State.holdByte_record (s : State) (p : PortId) (x : Byte) (j : SlotId) : (s.holdByte p x).record j = s.record j := rfl
@[simp] theorem State.holdByte_check (s : State) (p : PortId) (x : Byte) (j : SlotId) : (s.holdByte p x).check j = s.check j := rfl
@[simp] theorem State.holdByte_profile (s : State) (p : PortId) (x : Byte) (j : ProfileId) : (s.holdByte p x).profile j = s.profile j := rfl
@[simp] theorem State.holdByte_bay (s : State) (p : PortId) (x : Byte) (d : BayId) : (s.holdByte p x).bay d = s.bay d := rfl
@[simp] theorem State.holdByte_entry (s : State) (p : PortId) (x : Byte) (g : EntryId) : (s.holdByte p x).entry g = s.entry g := rfl
@[simp] theorem State.holdByte_queue (s : State) (p : PortId) (x : Byte) (j : ProfileId) : (s.holdByte p x).queue j = s.queue j := rfl
@[simp] theorem State.holdByte_recall (s : State) (p : PortId) (x : Byte) (d : ClusterId) : (s.holdByte p x).recall d = s.recall d := rfl
@[simp] theorem State.holdByte_drawOf (s : State) (p : PortId) (x : Byte) (v : SweeperId) : (s.holdByte p x).drawOf v = s.drawOf v := rfl

/-! #### setWindow -/

@[simp] theorem State.setWindow_pending (s : State) (p : PortId) (x : Option Window) : (s.setWindow p x).pending = s.pending := rfl
@[simp] theorem State.setWindow_phase (s : State) (p : PortId) (x : Option Window) : (s.setWindow p x).phase = s.phase := rfl
@[simp] theorem State.setWindow_records (s : State) (p : PortId) (x : Option Window) : (s.setWindow p x).records = s.records := rfl
@[simp] theorem State.setWindow_checks (s : State) (p : PortId) (x : Option Window) : (s.setWindow p x).checks = s.checks := rfl
@[simp] theorem State.setWindow_seenCounter (s : State) (p : PortId) (x : Option Window) : (s.setWindow p x).seenCounter = s.seenCounter := rfl
@[simp] theorem State.setWindow_corrected (s : State) (p : PortId) (x : Option Window) : (s.setWindow p x).corrected = s.corrected := rfl
@[simp] theorem State.setWindow_scrub (s : State) (p : PortId) (x : Option Window) : (s.setWindow p x).scrub = s.scrub := rfl
@[simp] theorem State.setWindow_scrubDue (s : State) (p : PortId) (x : Option Window) : (s.setWindow p x).scrubDue = s.scrubDue := rfl
@[simp] theorem State.setWindow_profiles (s : State) (p : PortId) (x : Option Window) : (s.setWindow p x).profiles = s.profiles := rfl
@[simp] theorem State.setWindow_bays (s : State) (p : PortId) (x : Option Window) : (s.setWindow p x).bays = s.bays := rfl
@[simp] theorem State.setWindow_latchNumber (s : State) (p : PortId) (x : Option Window) : (s.setWindow p x).latchNumber = s.latchNumber := rfl
@[simp] theorem State.setWindow_site (s : State) (p : PortId) (x : Option Window) : (s.setWindow p x).site = s.site := rfl
@[simp] theorem State.setWindow_supply (s : State) (p : PortId) (x : Option Window) : (s.setWindow p x).supply = s.supply := rfl
@[simp] theorem State.setWindow_periodTimer (s : State) (p : PortId) (x : Option Window) : (s.setWindow p x).periodTimer = s.periodTimer := rfl
@[simp] theorem State.setWindow_passMark (s : State) (p : PortId) (x : Option Window) : (s.setWindow p x).passMark = s.passMark := rfl
@[simp] theorem State.setWindow_pendingList (s : State) (p : PortId) (x : Option Window) : (s.setWindow p x).pendingList = s.pendingList := rfl
@[simp] theorem State.setWindow_clock (s : State) (p : PortId) (x : Option Window) : (s.setWindow p x).clock = s.clock := rfl
@[simp] theorem State.setWindow_minuteDue (s : State) (p : PortId) (x : Option Window) : (s.setWindow p x).minuteDue = s.minuteDue := rfl
@[simp] theorem State.setWindow_planMark (s : State) (p : PortId) (x : Option Window) : (s.setWindow p x).planMark = s.planMark := rfl
@[simp] theorem State.setWindow_entries (s : State) (p : PortId) (x : Option Window) : (s.setWindow p x).entries = s.entries := rfl
@[simp] theorem State.setWindow_readyQueues (s : State) (p : PortId) (x : Option Window) : (s.setWindow p x).readyQueues = s.readyQueues := rfl
@[simp] theorem State.setWindow_recalls (s : State) (p : PortId) (x : Option Window) : (s.setWindow p x).recalls = s.recalls := rfl
@[simp] theorem State.setWindow_draws (s : State) (p : PortId) (x : Option Window) : (s.setWindow p x).draws = s.draws := rfl
@[simp] theorem State.setWindow_freeUses (s : State) (p : PortId) (x : Option Window) : (s.setWindow p x).freeUses = s.freeUses := rfl
@[simp] theorem State.setWindow_record (s : State) (p : PortId) (x : Option Window) (j : SlotId) : (s.setWindow p x).record j = s.record j := rfl
@[simp] theorem State.setWindow_check (s : State) (p : PortId) (x : Option Window) (j : SlotId) : (s.setWindow p x).check j = s.check j := rfl
@[simp] theorem State.setWindow_profile (s : State) (p : PortId) (x : Option Window) (j : ProfileId) : (s.setWindow p x).profile j = s.profile j := rfl
@[simp] theorem State.setWindow_bay (s : State) (p : PortId) (x : Option Window) (d : BayId) : (s.setWindow p x).bay d = s.bay d := rfl
@[simp] theorem State.setWindow_entry (s : State) (p : PortId) (x : Option Window) (g : EntryId) : (s.setWindow p x).entry g = s.entry g := rfl
@[simp] theorem State.setWindow_queue (s : State) (p : PortId) (x : Option Window) (j : ProfileId) : (s.setWindow p x).queue j = s.queue j := rfl
@[simp] theorem State.setWindow_recall (s : State) (p : PortId) (x : Option Window) (d : ClusterId) : (s.setWindow p x).recall d = s.recall d := rfl
@[simp] theorem State.setWindow_drawOf (s : State) (p : PortId) (x : Option Window) (v : SweeperId) : (s.setWindow p x).drawOf v = s.drawOf v := rfl

/-! #### shiftOut -/

@[simp] theorem State.shiftOut_pending (s : State) (p : PortId) (o : List Byte) : (s.shiftOut p o).pending = s.pending := rfl
@[simp] theorem State.shiftOut_phase (s : State) (p : PortId) (o : List Byte) : (s.shiftOut p o).phase = s.phase := rfl
@[simp] theorem State.shiftOut_records (s : State) (p : PortId) (o : List Byte) : (s.shiftOut p o).records = s.records := rfl
@[simp] theorem State.shiftOut_checks (s : State) (p : PortId) (o : List Byte) : (s.shiftOut p o).checks = s.checks := rfl
@[simp] theorem State.shiftOut_seenCounter (s : State) (p : PortId) (o : List Byte) : (s.shiftOut p o).seenCounter = s.seenCounter := rfl
@[simp] theorem State.shiftOut_corrected (s : State) (p : PortId) (o : List Byte) : (s.shiftOut p o).corrected = s.corrected := rfl
@[simp] theorem State.shiftOut_scrub (s : State) (p : PortId) (o : List Byte) : (s.shiftOut p o).scrub = s.scrub := rfl
@[simp] theorem State.shiftOut_scrubDue (s : State) (p : PortId) (o : List Byte) : (s.shiftOut p o).scrubDue = s.scrubDue := rfl
@[simp] theorem State.shiftOut_profiles (s : State) (p : PortId) (o : List Byte) : (s.shiftOut p o).profiles = s.profiles := rfl
@[simp] theorem State.shiftOut_bays (s : State) (p : PortId) (o : List Byte) : (s.shiftOut p o).bays = s.bays := rfl
@[simp] theorem State.shiftOut_latchNumber (s : State) (p : PortId) (o : List Byte) : (s.shiftOut p o).latchNumber = s.latchNumber := rfl
@[simp] theorem State.shiftOut_site (s : State) (p : PortId) (o : List Byte) : (s.shiftOut p o).site = s.site := rfl
@[simp] theorem State.shiftOut_supply (s : State) (p : PortId) (o : List Byte) : (s.shiftOut p o).supply = s.supply := rfl
@[simp] theorem State.shiftOut_periodTimer (s : State) (p : PortId) (o : List Byte) : (s.shiftOut p o).periodTimer = s.periodTimer := rfl
@[simp] theorem State.shiftOut_passMark (s : State) (p : PortId) (o : List Byte) : (s.shiftOut p o).passMark = s.passMark := rfl
@[simp] theorem State.shiftOut_pendingList (s : State) (p : PortId) (o : List Byte) : (s.shiftOut p o).pendingList = s.pendingList := rfl
@[simp] theorem State.shiftOut_clock (s : State) (p : PortId) (o : List Byte) : (s.shiftOut p o).clock = s.clock := rfl
@[simp] theorem State.shiftOut_minuteDue (s : State) (p : PortId) (o : List Byte) : (s.shiftOut p o).minuteDue = s.minuteDue := rfl
@[simp] theorem State.shiftOut_planMark (s : State) (p : PortId) (o : List Byte) : (s.shiftOut p o).planMark = s.planMark := rfl
@[simp] theorem State.shiftOut_entries (s : State) (p : PortId) (o : List Byte) : (s.shiftOut p o).entries = s.entries := rfl
@[simp] theorem State.shiftOut_readyQueues (s : State) (p : PortId) (o : List Byte) : (s.shiftOut p o).readyQueues = s.readyQueues := rfl
@[simp] theorem State.shiftOut_recalls (s : State) (p : PortId) (o : List Byte) : (s.shiftOut p o).recalls = s.recalls := rfl
@[simp] theorem State.shiftOut_draws (s : State) (p : PortId) (o : List Byte) : (s.shiftOut p o).draws = s.draws := rfl
@[simp] theorem State.shiftOut_freeUses (s : State) (p : PortId) (o : List Byte) : (s.shiftOut p o).freeUses = s.freeUses := rfl
@[simp] theorem State.shiftOut_record (s : State) (p : PortId) (o : List Byte) (j : SlotId) : (s.shiftOut p o).record j = s.record j := rfl
@[simp] theorem State.shiftOut_check (s : State) (p : PortId) (o : List Byte) (j : SlotId) : (s.shiftOut p o).check j = s.check j := rfl
@[simp] theorem State.shiftOut_profile (s : State) (p : PortId) (o : List Byte) (j : ProfileId) : (s.shiftOut p o).profile j = s.profile j := rfl
@[simp] theorem State.shiftOut_bay (s : State) (p : PortId) (o : List Byte) (d : BayId) : (s.shiftOut p o).bay d = s.bay d := rfl
@[simp] theorem State.shiftOut_entry (s : State) (p : PortId) (o : List Byte) (g : EntryId) : (s.shiftOut p o).entry g = s.entry g := rfl
@[simp] theorem State.shiftOut_queue (s : State) (p : PortId) (o : List Byte) (j : ProfileId) : (s.shiftOut p o).queue j = s.queue j := rfl
@[simp] theorem State.shiftOut_recall (s : State) (p : PortId) (o : List Byte) (d : ClusterId) : (s.shiftOut p o).recall d = s.recall d := rfl
@[simp] theorem State.shiftOut_drawOf (s : State) (p : PortId) (o : List Byte) (v : SweeperId) : (s.shiftOut p o).drawOf v = s.drawOf v := rfl

end Sys2Proof.Machine
end

