-- ==== Sys2Proof/Laws/Tables.lean ====
section
/-!
SUPPORT. Reading a table after a write: the written place holds what was written and every other place is as before; flags after
a flag is added or dropped.
-/

namespace Sys2Proof.Machine

variable {α : Type} {n : Nat}

/-! ### Vectors -/

/-- A place of a table after one place was written. -/
theorem get_set (v : Vector α n) (i j : Fin n) (x : α) : (v.set i x)[j] = if j = i then x else v[j] := by
  simp [Vector.getElem_set, Fin.ext_iff, eq_comm]

/-- A place of a table after every place was changed by its own function. -/
theorem get_updateAll (v : Vector α n) (f : Fin n → α → α) (j : Fin n) : (updateAll v f)[j] = f j v[j] := by
  simp [updateAll]

/-- The same, by the number of the place. -/
@[simp] theorem getElem_updateAll (v : Vector α n) (f : Fin n → α → α) (j : Nat) (h : j < n) :
    (updateAll v f)[j] = f ⟨j, h⟩ v[j] := by
  simp [updateAll]

/-- Two tables that agree in every place are equal. -/
theorem vector_ext {v w : Vector α n} (h : ∀ j : Fin n, v[j] = w[j]) : v = w := by
  ext i hi
  exact h ⟨i, hi⟩

/-- Writing the value a place already holds changes nothing. -/
theorem set_self (v : Vector α n) (i : Fin n) : v.set i v[i] = v := by
  apply vector_ext
  intro j
  rw [get_set]
  split <;> simp_all

/-- A place of a table filled with one value. -/
@[simp] theorem get_replicate (x : α) (j : Fin n) : (Vector.replicate n x)[j] = x := by simp

/-! ### Flags -/

/-- No flag stands in the empty set. -/
@[simp] theorem hasFlag_zero (i : Fin n) : hasFlag (0 : FlagSet n) i = false := by simp [hasFlag]

/-- A set with one more flag. -/
@[simp] theorem hasFlag_addFlag (f : FlagSet n) (i j : Fin n) : hasFlag (addFlag f i) j = (hasFlag f j || j == i) := by
  have h : (j == i) = decide (j.val = i.val) := by simp [beq_eq_decide, Fin.ext_iff]
  simp [hasFlag, addFlag, h]

/-- A set with one flag less. -/
@[simp] theorem hasFlag_dropFlag (f : FlagSet n) (i j : Fin n) : hasFlag (dropFlag f i) j = (hasFlag f j && j != i) := by
  have h : (j != i) = !decide (j.val = i.val) := by simp [bne, beq_eq_decide, Fin.ext_iff]
  simp [hasFlag, dropFlag, h]

/-- Two sets with the same flags are equal. -/
theorem flags_ext {f g : FlagSet n} (h : ∀ i : Fin n, hasFlag f i = hasFlag g i) : f = g := by
  apply BitVec.eq_of_getLsbD_eq
  intro i hi
  exact h ⟨i, hi⟩

/-! ### The tables of the part -/

theorem State.setPort_port (s : State) (p q : PortId) (x : Port) : (s.setPort p x).port q = if q = p then x else s.port q :=
  get_set _ _ _ _

theorem State.setBay_bay (s : State) (b d : BayId) (x : Bay) : (s.setBay b x).bay d = if d = b then x else s.bay d :=
  get_set _ _ _ _

theorem State.modBay_bay (s : State) (b d : BayId) (f : Bay → Bay) :
    (s.modBay b f).bay d = if d = b then f (s.bay b) else s.bay d := get_set _ _ _ _

theorem State.setProfile_profile (s : State) (k j : ProfileId) (x : Profile) :
    (s.setProfile k x).profile j = if j = k then x else s.profile j := get_set _ _ _ _

theorem State.setEntry_entry (s : State) (e g : EntryId) (x : Entry) :
    (s.setEntry e x).entry g = if g = e then x else s.entry g := get_set _ _ _ _

theorem State.setDraw_drawOf (s : State) (w v : SweeperId) (x : Option Draw) :
    (s.setDraw w x).drawOf v = if v = w then x else s.drawOf v := get_set _ _ _ _

theorem State.storeRecord_record (s : State) (i j : SlotId) (r : PackRecord) :
    (s.storeRecord i r).record j = if j = i then r else s.record j := get_set _ _ _ _

theorem State.storeRecord_check (s : State) (i j : SlotId) (r : PackRecord) :
    (s.storeRecord i r).check j = if j = i then .clean else s.check j := get_set _ _ _ _

@[simp] theorem State.notify_port (s : State) (k : NoticeKind) (w : Scope) (q : PortId) :
    (s.notify k w).port q = (s.port q).deliver k w :=
  get_updateAll _ _ _

@[simp] theorem State.notifyFaultClear_port (s : State) (b : BayId) (q : PortId) :
    (s.notifyFaultClear b).port q = if (s.port q).edge == .both then (s.port q).deliver .fault (.bay b) else s.port q := by
  simp only [State.port, State.notifyFaultClear, get_updateAll]
  rfl

@[simp] theorem State.markGroup_port (s : State) (g : GroupId) (q : PortId) :
    (s.markGroup g).port q = { s.port q with marks := addFlag (s.port q).marks g } :=
  get_updateAll _ _ _

theorem State.joinReady_queue (s : State) (k j : ProfileId) (i : SlotId) :
    (s.joinReady k i).queue j = if j = k then addFlag (s.queue k) i else s.queue j := by
  simp only [State.joinReady, State.queue, get_set]

@[simp] theorem State.leaveReady_queue (s : State) (i : SlotId) (j : ProfileId) :
    (s.leaveReady i).queue j = dropFlag (s.queue j) i := by
  simp only [State.leaveReady, State.queue, get_updateAll]

@[simp] theorem State.removeRecall_recall (s : State) (i : SlotId) (c : ClusterId) :
    (s.removeRecall i).recall c = (s.recall c).filter fun r => r.slot != i :=
  get_updateAll _ _ _

theorem State.appendRecall_recall (s : State) (c d : ClusterId) (r : Recall) :
    (s.appendRecall c r).recall d = if d = c then s.recall c ++ [r] else s.recall d := get_set _ _ _ _

theorem State.fixResult_port (s : State) (p q : PortId) (r : ResultCode) (o : List Byte) :
    (s.fixResult p r o).port q =
      if q = p then { s.port p with lastResult := r, stream := none, held := [], reading := none, out := o } else s.port q :=
  get_set _ _ _ _

/-! ### Records written (R7, R17) -/

/-- What putRecord leaves in a record. -/
theorem State.putRecord_record (s : State) (i j : SlotId) (r : PackRecord) :
    (s.putRecord i r).record j = if j = i then r else s.record j := by
  unfold State.putRecord
  split <;> simp [State.storeRecord_record]

/-- What putRecord leaves in a check code. -/
theorem State.putRecord_check (s : State) (i j : SlotId) (r : PackRecord) :
    (s.putRecord i r).check j = if j = i then .clean else s.check j := by
  unfold State.putRecord
  split <;> simp [State.storeRecord_check]

/-- What putRecord leaves of a port: its marks, with the group's mark where a marked field changes (R7). -/
theorem State.putRecord_port (s : State) (i : SlotId) (r : PackRecord) (q : PortId) :
    (s.putRecord i r).port q =
      if (s.record i).sameMarked r then s.port q else { s.port q with marks := addFlag (s.port q).marks (groupOf i) } := by
  unfold State.putRecord
  split <;> simp

end Sys2Proof.Machine
end

