-- ==== Sys2Proof/Laws/Evolve.lean ====
section
/-!
SUPPORT. Said once, what the operations inside an event can do (00_scope.md 0.3): the fields they never touch, the ways in which
a port, a bay's grant side and a record's charge can change. Each operation has one lemma, 'evolves', that cites the lemmas of
the operations it is made of.
-/

namespace Sys2Proof.Machine

/-! ### Ports -/

theorem PortMoves.refl (x : Port) : PortMoves x x := ⟨rfl, fun _ h => h, fun _ h => h, fun _ h => h, fun _ => ⟨rfl, rfl⟩⟩

theorem PortMoves.role {x y : Port} (h : PortMoves x y) : y.role = x.role := by rw [h.same]

theorem PortMoves.trans {x y z : Port} (h : PortMoves x y) (g : PortMoves y z) : PortMoves x z := by
  refine ⟨?_, fun k e => g.raised k (h.raised k e), fun b e => g.summary b (h.summary b e),
    fun k e => g.marks k (h.marks k e), fun e => ?_⟩
  · rw [g.same, h.same]
  · have a := h.off e
    have b := g.off (h.role.trans e)
    exact ⟨b.1.trans a.1, b.2.trans a.2⟩

theorem PortMoves.deliver (x : Port) (k : NoticeKind) (w : Scope) : PortMoves x (x.deliver k w) := by
  unfold Port.deliver
  split
  · rename_i h
    refine ⟨rfl, fun j e => by simp [e], fun b e => ?_, fun _ e => e, fun e => ?_⟩
    · cases w <;> simp [Scope.joinSummary, e]
    · simp [e, Role.takes] at h
  · exact PortMoves.refl x

theorem PortMoves.marked (x : Port) (g : GroupId) : PortMoves x { x with marks := addFlag x.marks g } :=
  ⟨rfl, fun _ e => e, fun _ e => e, fun j e => by simp [e], fun _ => ⟨rfl, rfl⟩⟩

/-! ### Bays -/

/-- The ways in which an event inside the part can change a bay's grant side and its counters (R80, R119, R121, R123, R126,
R129, R130). -/
inductive BayMoves : Bay → Bay → Prop where
  | other {x y : Bay} (grant : y.grant = x.grant) (allowance : y.allowance = x.allowance) (power : y.power = x.power)
      (mark : y.reduction = x.reduction) (timer : y.confirmTimer = x.confirmTimer) (counters : y.counters = x.counters)
      (images : y.images = x.images) : BayMoves x y
  | lowered (x : Bay) (v t : Nat) (h : v < x.grant) : BayMoves x (x.reduced v t)
  | allowed (x : Bay) (a p : Nat) (h : x.grant ≤ a ∨ x.allowance ≤ a) : BayMoves x { x with allowance := a, power := p }
  | resolved (x : Bay) : BayMoves x { x with reduction := false, confirmTimer := none }
  | zeroed (x : Bay) : BayMoves x { x with grant := 0 }
  | released (x : Bay) (v p : Nat) : BayMoves x { x with grant := v, allowance := max v x.allowance, power := p }
  | counted (x : Bay) (k : EventCounter) :
      BayMoves x { x with counters := x.counters.set k.place (x.counters[k.place]).counted }
  | trans {x y z : Bay} : BayMoves x y → BayMoves y z → BayMoves x z

theorem BayMoves.refl (x : Bay) : BayMoves x x := .other rfl rfl rfl rfl rfl rfl rfl

/-! ### The part -/

/-- The fields that no operation inside an event touches: only a command's own write does. -/
structure Frame (s t : State) : Prop where
  pending : t.pending = s.pending
  phase : t.phase = s.phase
  seenCounter : t.seenCounter = s.seenCounter
  scrub : t.scrub = s.scrub
  scrubDue : t.scrubDue = s.scrubDue
  profiles : t.profiles = s.profiles
  latchNumber : t.latchNumber = s.latchNumber
  site : t.site = s.site
  supply : t.supply = s.supply
  periodTimer : t.periodTimer = s.periodTimer
  clock : t.clock = s.clock
  minuteDue : t.minuteDue = s.minuteDue

theorem Frame.refl (s : State) : Frame s s := ⟨rfl, rfl, rfl, rfl, rfl, rfl, rfl, rfl, rfl, rfl, rfl, rfl⟩

theorem Frame.trans {s t u : State} (h : Frame s t) (g : Frame t u) : Frame s u :=
  ⟨g.pending.trans h.pending, g.phase.trans h.phase, g.seenCounter.trans h.seenCounter, g.scrub.trans h.scrub, g.scrubDue.trans h.scrubDue,
    g.profiles.trans h.profiles, g.latchNumber.trans h.latchNumber, g.site.trans h.site, g.supply.trans h.supply,
    g.periodTimer.trans h.periodTimer, g.clock.trans h.clock, g.minuteDue.trans h.minuteDue⟩

/-- Every grant and every pending increase is a multiple of 5 (R38, R119). -/
def State.fives (s : State) : Prop :=
  (∀ b, (s.bay b).grant % 5 = 0) ∧ ∀ x ∈ s.pendingList, x.grant % 5 = 0

/-- What an operation inside an event can do to the part. -/
structure Evolves (s t : State) : Prop where
  frame : Frame s t
  ports : ∀ q, PortMoves (s.port q) (t.port q)
  bays : ∀ b, BayMoves (s.bay b) (t.bay b)
  law : s.profilesSane → s.recordsLawful → t.recordsLawful
  fives : s.fives → t.fives
  corrected : s.corrected ≤ 65535 → t.corrected ≤ 65535

theorem Evolves.refl (s : State) : Evolves s s :=
  ⟨Frame.refl s, fun _ => PortMoves.refl _, fun _ => BayMoves.refl _, fun _ h => h, fun h => h, fun h => h⟩

theorem Frame.sane {s t : State} (h : Frame s t) (g : s.profilesSane) : t.profilesSane := by
  intro k
  have e : t.profile k = s.profile k := by simp only [State.profile, h.profiles]
  rw [e]
  exact g k

theorem Evolves.trans {s t u : State} (h : Evolves s t) (g : Evolves t u) : Evolves s u :=
  ⟨h.frame.trans g.frame, fun q => (h.ports q).trans (g.ports q), fun b => (h.bays b).trans (g.bays b),
    fun a b => g.law (h.frame.sane a) (h.law a b), fun a => g.fives (h.fives a), fun a => g.corrected (h.corrected a)⟩

/-- A walk over a list, each step of which evolves. -/
theorem Evolves.foldl {α : Type} (f : State → α → State) (h : ∀ s a, Evolves s (f s a)) (l : List α) (s : State) :
    Evolves s (l.foldl f s) := by
  induction l generalizing s with
  | nil => exact .refl s
  | cons a l ih => exact (h s a).trans (ih _)

/-! ### Single writes -/

/-- A state that differs from another only in its ports, each having moved. -/
theorem Evolves.ofPorts {s t : State} (e : t = { s with ports := t.ports }) (h : ∀ q, PortMoves (s.port q) (t.port q)) :
    Evolves s t := by
  rw [e] at h ⊢
  exact ⟨⟨rfl, rfl, rfl, rfl, rfl, rfl, rfl, rfl, rfl, rfl, rfl, rfl⟩, h, fun _ => BayMoves.refl _, fun _ a => a, fun a => a,
    fun a => a⟩

theorem State.notify_evolves (s : State) (k : NoticeKind) (w : Scope) : Evolves s (s.notify k w) :=
  .ofPorts rfl fun q => by rw [State.notify_port]; exact PortMoves.deliver _ _ _

theorem State.notifyFaultClear_evolves (s : State) (b : BayId) : Evolves s (s.notifyFaultClear b) :=
  .ofPorts rfl fun q => by
    rw [State.notifyFaultClear_port]
    split
    · exact PortMoves.deliver _ _ _
    · exact PortMoves.refl _

theorem State.markGroup_evolves (s : State) (g : GroupId) : Evolves s (s.markGroup g) :=
  .ofPorts rfl fun q => by rw [State.markGroup_port]; exact PortMoves.marked _ _

/-- A write that leaves the ports, the bays, the records, the pending list and the framed fields alone. -/
theorem Evolves.ofQuiet {s t : State} (f : Frame s t) (p : t.ports = s.ports) (b : t.bays = s.bays)
    (r : t.records = s.records) (l : t.pendingList = s.pendingList) (c : s.corrected ≤ 65535 → t.corrected ≤ 65535) :
    Evolves s t := by
  have eb : ∀ d, t.bay d = s.bay d := fun d => by simp only [State.bay, b]
  refine ⟨f, fun q => ?_, fun d => ?_, fun _ h i => ?_, fun h => ?_, c⟩
  · simp only [State.port, p]
    exact PortMoves.refl _
  · rw [eb]
    exact BayMoves.refl _
  · simpa only [State.record, r] using h i
  · exact ⟨fun d => by rw [eb]; exact h.1 d, by rw [l]; exact h.2⟩

theorem State.requestPass_evolves (s : State) : Evolves s s.requestPass :=
  .ofQuiet ⟨rfl, rfl, rfl, rfl, rfl, rfl, rfl, rfl, rfl, rfl, rfl, rfl⟩ rfl rfl rfl rfl fun h => h

theorem State.requestPlan_evolves (s : State) : Evolves s s.requestPlan :=
  .ofQuiet ⟨rfl, rfl, rfl, rfl, rfl, rfl, rfl, rfl, rfl, rfl, rfl, rfl⟩ rfl rfl rfl rfl fun h => h

theorem State.setEntry_evolves (s : State) (e : EntryId) (x : Entry) : Evolves s (s.setEntry e x) :=
  .ofQuiet ⟨rfl, rfl, rfl, rfl, rfl, rfl, rfl, rfl, rfl, rfl, rfl, rfl⟩ rfl rfl rfl rfl fun h => h

theorem State.setDraw_evolves (s : State) (w : SweeperId) (x : Option Draw) : Evolves s (s.setDraw w x) :=
  .ofQuiet ⟨rfl, rfl, rfl, rfl, rfl, rfl, rfl, rfl, rfl, rfl, rfl, rfl⟩ rfl rfl rfl rfl fun h => h

theorem State.joinReady_evolves (s : State) (k : ProfileId) (i : SlotId) : Evolves s (s.joinReady k i) :=
  .ofQuiet ⟨rfl, rfl, rfl, rfl, rfl, rfl, rfl, rfl, rfl, rfl, rfl, rfl⟩ rfl rfl rfl rfl fun h => h

theorem State.leaveReady_evolves (s : State) (i : SlotId) : Evolves s (s.leaveReady i) :=
  .ofQuiet ⟨rfl, rfl, rfl, rfl, rfl, rfl, rfl, rfl, rfl, rfl, rfl, rfl⟩ rfl rfl rfl rfl fun h => h

theorem State.removeRecall_evolves (s : State) (i : SlotId) : Evolves s (s.removeRecall i) :=
  .ofQuiet ⟨rfl, rfl, rfl, rfl, rfl, rfl, rfl, rfl, rfl, rfl, rfl, rfl⟩ rfl rfl rfl rfl fun h => h

theorem State.appendRecall_evolves (s : State) (c : ClusterId) (r : Recall) : Evolves s (s.appendRecall c r) :=
  .ofQuiet ⟨rfl, rfl, rfl, rfl, rfl, rfl, rfl, rfl, rfl, rfl, rfl, rfl⟩ rfl rfl rfl rfl fun h => h

theorem State.dropIncrease_evolves (s : State) (b : BayId) : Evolves s (s.dropIncrease b) :=
  ⟨⟨rfl, rfl, rfl, rfl, rfl, rfl, rfl, rfl, rfl, rfl, rfl, rfl⟩, fun _ => PortMoves.refl _, fun _ => BayMoves.refl _,
    fun _ h => h, fun h => ⟨h.1, fun x hx => h.2 x (List.mem_filter.mp hx).1⟩, fun h => h⟩

/-- A bay changed by a move that keeps its grant a multiple of 5. -/
theorem State.modBay_evolves (s : State) (b : BayId) (f : Bay → Bay) (h : BayMoves (s.bay b) (f (s.bay b)))
    (g : (s.bay b).grant % 5 = 0 → (f (s.bay b)).grant % 5 = 0) : Evolves s (s.modBay b f) := by
  refine ⟨⟨rfl, rfl, rfl, rfl, rfl, rfl, rfl, rfl, rfl, rfl, rfl, rfl⟩, fun _ => PortMoves.refl _, fun d => ?_,
    fun _ a => a, fun a => ⟨fun d => ?_, a.2⟩, fun a => a⟩
  · rw [State.modBay_bay]
    split
    · rename_i e
      rw [e]
      exact h
    · exact BayMoves.refl _
  · rw [State.modBay_bay]
    split
    · exact g (a.1 b)
    · exact a.1 d

/-- A bay changed in fields other than its grant side and its counters. -/
theorem State.modBay_evolves_other (s : State) (b : BayId) (f : Bay → Bay) (grant : (f (s.bay b)).grant = (s.bay b).grant)
    (allowance : (f (s.bay b)).allowance = (s.bay b).allowance) (power : (f (s.bay b)).power = (s.bay b).power)
    (mark : (f (s.bay b)).reduction = (s.bay b).reduction) (timer : (f (s.bay b)).confirmTimer = (s.bay b).confirmTimer)
    (counters : (f (s.bay b)).counters = (s.bay b).counters) (images : (f (s.bay b)).images = (s.bay b).images) :
    Evolves s (s.modBay b f) :=
  s.modBay_evolves b f (.other grant allowance power mark timer counters images) fun h => by rw [grant]; exact h

/-- A record stored that keeps the law of charge. -/
theorem State.storeRecord_evolves (s : State) (i : SlotId) (r : PackRecord)
    (h : s.profilesSane → s.recordsLawful → r.lawful) : Evolves s (s.storeRecord i r) := by
  refine ⟨⟨rfl, rfl, rfl, rfl, rfl, rfl, rfl, rfl, rfl, rfl, rfl, rfl⟩, fun _ => PortMoves.refl _, fun _ => BayMoves.refl _,
    fun a b j => ?_, fun a => a, fun a => a⟩
  rw [State.storeRecord_record]
  split
  · exact h a b
  · exact b j

theorem State.putRecord_evolves (s : State) (i : SlotId) (r : PackRecord)
    (h : s.profilesSane → s.recordsLawful → r.lawful) : Evolves s (s.putRecord i r) := by
  unfold State.putRecord
  split
  · exact s.storeRecord_evolves i r h
  · exact (s.storeRecord_evolves i r h).trans (State.markGroup_evolves _ _)

/-- A record that keeps its charge and its capacity keeps the law. -/
theorem PackRecord.lawful_of_charge {r t : PackRecord} (h : r.lawful) (e : t.estimate = r.estimate)
    (d : t.residue = r.residue) (c : t.capacity = r.capacity) : t.lawful := by
  unfold PackRecord.lawful
  rw [e, d, c]
  exact h

/-- A record that changes in fields other than its charge and its capacity. -/
theorem State.putRecord_evolves_other (s : State) (i : SlotId) (r : PackRecord) (e : r.estimate = (s.record i).estimate)
    (d : r.residue = (s.record i).residue) (c : r.capacity = (s.record i).capacity) : Evolves s (s.putRecord i r) :=
  s.putRecord_evolves i r fun _ h => PackRecord.lawful_of_charge (h i) e d c

end Sys2Proof.Machine
end

