-- ==== Sys2Proof/Laws/EvolveOps.lean ====
section
/-!
SUPPORT. The shared operations of Ops.lean, Roster.lean, Grants.lean and Bays.lean evolve the part (Evolve.lean): one lemma each.
-/

namespace Sys2Proof.Machine

/-! ### Ops -/

theorem State.checkBudget_evolves (s : State) : Evolves s s.checkBudget := by
  unfold State.checkBudget
  split
  · exact s.requestPass_evolves
  · exact .refl s

theorem State.afterEligibility_evolves (s : State) (b : BayId) (was : Bool) : Evolves s (s.afterEligibility b was) := by
  unfold State.afterEligibility
  split
  · exact .refl s
  · split
    · exact s.requestPass_evolves.trans (State.dropIncrease_evolves _ _)
    · exact s.requestPass_evolves

theorem State.changeBay_evolves (s : State) (b : BayId) (f : Bay → Bay) (h : BayMoves (s.bay b) (f (s.bay b)))
    (g : (s.bay b).grant % 5 = 0 → (f (s.bay b)).grant % 5 = 0) : Evolves s (s.changeBay b f) :=
  (s.modBay_evolves b f h g).trans (State.afterEligibility_evolves _ _ _)

theorem State.lower_evolves (s : State) (b : BayId) (v : Nat) (h : v % 5 = 0) : Evolves s (s.lower b v) := by
  unfold State.lower
  split
  · rename_i e
    exact (s.modBay_evolves b _ (.lowered _ v _ e) fun _ => h).trans (State.notify_evolves _ _ _)
  · exact .refl s

theorem State.addInhibit_evolves (s : State) (b : BayId) (r : Inhibit) : Evolves s (s.addInhibit b r) :=
  (s.changeBay_evolves b _ (.other rfl rfl rfl rfl rfl rfl rfl) id).trans (State.lower_evolves _ _ 0 rfl)

theorem State.removeInhibit_evolves (s : State) (b : BayId) (r : Inhibit) : Evolves s (s.removeInhibit b r) :=
  s.changeBay_evolves b _ (.other rfl rfl rfl rfl rfl rfl rfl) id

theorem State.addFault_evolves (s : State) (b : BayId) : Evolves s (s.addFault b) :=
  (s.addInhibit_evolves b .fault).trans (State.notify_evolves _ _ _)

theorem State.enterStage_evolves (s : State) (b : BayId) (st : Stage) : Evolves s (s.enterStage b st) := by
  have h := s.changeBay_evolves b (fun x => { x with stage := st }) (.other rfl rfl rfl rfl rfl rfl rfl) id
  unfold State.enterStage
  dsimp only
  split
  · exact h.trans (State.notify_evolves _ _ _)
  · exact (h.trans (State.lower_evolves _ _ 0 rfl)).trans (State.notify_evolves _ _ _)

theorem State.count_evolves (s : State) (b : BayId) (k : EventCounter) : Evolves s (s.count b k) := by
  have h := s.modBay_evolves b (fun x => { x with counters := x.counters.set k.place (s.bay b).counters[k.place].counted })
    (.counted _ k) id
  unfold State.count
  dsimp only
  split
  · exact h.trans (State.notify_evolves _ _ _)
  · exact h

/-! ### Roster -/

theorem State.dropReservation_evolves (s : State) (e : EntryId) (i : SlotId) : Evolves s (s.dropReservation e i) := by
  unfold State.dropReservation
  refine Evolves.trans ?_ (State.requestPass_evolves _)
  refine Evolves.trans ?_ (State.requestPlan_evolves _)
  refine (s.setEntry_evolves e { s.entry e with reserved := none }).trans ?_
  apply State.putRecord_evolves_other <;> simp only [State.setEntry_record]

theorem State.clearReservation_evolves (s : State) (i : SlotId) : Evolves s (s.clearReservation i) := by
  unfold State.clearReservation
  split
  · exact s.dropReservation_evolves _ _
  · exact .refl s

theorem State.settleDrawnEntry_evolves (s : State) (e : Option EntryId) (o : EntryStatus) :
    Evolves s (s.settleDrawnEntry e o) := by
  unfold State.settleDrawnEntry
  split
  · split
    · exact s.setEntry_evolves _ _
    · exact .refl s
  · exact .refl s

theorem State.endDraw_evolves (s : State) (i : SlotId) (o : EntryStatus) : Evolves s (s.endDraw i o) := by
  unfold State.endDraw
  split
  · exact (((s.setDraw_evolves _ _).trans (State.removeRecall_evolves _ _)).trans
      (State.settleDrawnEntry_evolves _ _ _)).trans (State.notify_evolves _ _ _)
  · exact (s.removeRecall_evolves i).trans (State.notify_evolves _ _ _)

theorem State.voidDraw_evolves (s : State) (i : SlotId) : Evolves s (s.voidDraw i) := by
  unfold State.voidDraw
  split
  · exact (s.endDraw_evolves i _).trans (State.notify_evolves _ _ _)
  · exact s.endDraw_evolves i _

theorem State.withdraw_evolves (s : State) (i : SlotId) (l : Lifecycle) : Evolves s (s.withdraw i l) := by
  unfold State.withdraw
  split
  · exact s.clearReservation_evolves i
  · exact (s.clearReservation_evolves i).trans (State.leaveReady_evolves _ _)
  · exact s.voidDraw_evolves i
  · exact .refl s

theorem State.quarantineBay_evolves (s : State) (b : Option BayId) : Evolves s (s.quarantineBay b) := by
  unfold State.quarantineBay
  split
  · dsimp only
    split
    · exact (s.addInhibit_evolves _ _).trans (State.removeInhibit_evolves _ _ _)
    · exact s.addInhibit_evolves _ _
  · exact .refl s

theorem State.enterQuarantine_evolves (s : State) (i : SlotId) (why : Reason) : Evolves s (s.enterQuarantine i why) := by
  unfold State.enterQuarantine
  dsimp only
  refine Evolves.trans ?_ (State.requestPlan_evolves _)
  refine Evolves.trans ?_ (State.notify_evolves _ _ _)
  refine Evolves.trans ?_ (State.quarantineBay_evolves _ _)
  refine (s.withdraw_evolves i (s.record i).lifecycle).trans ?_
  apply State.putRecord_evolves_other <;> rfl

theorem countTo_le (m n : Nat) (h : n ≤ m) : countTo m n ≤ m := by
  unfold countTo
  split <;> omega

theorem State.countCorrection_evolves (s : State) : Evolves s s.countCorrection := by
  have h : Evolves s { s with corrected := countTo 65535 s.corrected } :=
    .ofQuiet ⟨rfl, rfl, rfl, rfl, rfl, rfl, rfl, rfl, rfl, rfl, rfl, rfl⟩ rfl rfl rfl rfl fun h => countTo_le _ _ h
  unfold State.countCorrection
  dsimp only
  split
  · exact h.trans (State.notify_evolves _ _ _)
  · exact h

theorem State.leaveDamaged_evolves (s : State) (i : SlotId) : Evolves s (s.leaveDamaged i) := by
  have h : Evolves s (match s.entryReserving i with
    | some e => s.dropReservation e i
    | none => s) := by
    split
    · exact s.dropReservation_evolves _ _
    · exact .refl s
  unfold State.leaveDamaged
  dsimp only
  split
  · exact h.trans (State.voidDraw_evolves _ _)
  · exact h.trans (State.leaveReady_evolves _ _)
  · exact h

theorem State.rebuild_evolves (s : State) (i : SlotId) : Evolves s (s.rebuild i) := by
  have h := ((s.leaveDamaged_evolves i).trans (State.storeRecord_evolves _ i (s.damagedRecord i) fun _ _ =>
    ⟨Nat.zero_le _, Nat.zero_le _⟩)).trans (State.markGroup_evolves _ (groupOf i))
  have g : ∀ t : State, Evolves t { t with freeUses := s.freeUses + 1 } := fun t =>
    .ofQuiet ⟨rfl, rfl, rfl, rfl, rfl, rfl, rfl, rfl, rfl, rfl, rfl, rfl⟩ rfl rfl rfl rfl fun h => h
  exact (((h.trans (g _)).trans (State.quarantineBay_evolves _ _)).trans (State.notify_evolves _ _ _)).trans
    (State.requestPlan_evolves _)

theorem State.access_evolves (s : State) (i : SlotId) : Evolves s (s.access i) := by
  have g : Evolves s { s with checks := s.checks.set i .clean } :=
    .ofQuiet ⟨rfl, rfl, rfl, rfl, rfl, rfl, rfl, rfl, rfl, rfl, rfl, rfl⟩ rfl rfl rfl rfl fun h => h
  unfold State.access
  split
  · exact .refl s
  · exact g.trans (State.countCorrection_evolves _)
  · exact s.rebuild_evolves i

theorem State.accessAll_evolves (s : State) (l : List SlotId) : Evolves s (s.accessAll l) :=
  .foldl _ State.access_evolves l s

theorem State.accessDocked_evolves (s : State) (b : BayId) : Evolves s (s.accessDocked b) := by
  unfold State.accessDocked
  split
  · exact s.access_evolves _
  · exact .refl s

theorem State.relist_evolves (s : State) (i : SlotId) : Evolves s (s.relist i) := by
  unfold State.relist
  split
  · exact .refl s
  · rename_i b _
    have h := (s.putRecord_evolves i { s.listedRecord (s.bay b).tag (s.bay b).profile b with seen := s.seenCounter }
      fun _ _ => ⟨Nat.zero_le _, Nat.zero_le _⟩).trans
      (State.modBay_evolves_other _ b (fun x => { x with slot := some i }) rfl rfl rfl rfl rfl rfl rfl)
    dsimp only
    split
    · exact ((h.trans (State.removeInhibit_evolves _ _ _)).trans (State.notify_evolves _ _ _)).trans
        (State.requestPlan_evolves _)
    · exact (((h.trans (State.enterStage_evolves _ _ _)).trans (State.removeInhibit_evolves _ _ _)).trans
        (State.notify_evolves _ _ _)).trans (State.requestPlan_evolves _)

/-! ### Grants -/

/-- What setAllowance leaves in a bay. -/
theorem State.setAllowance_bay (s : State) (b d : BayId) (a : Nat) :
    (s.setAllowance b a).bay d = if d = b then { s.bay b with allowance := a, power := s.powerOf b a } else s.bay d :=
  State.modBay_bay _ _ _ _

theorem State.setAllowance_evolves (s : State) (b : BayId) (a : Nat) (h : (s.bay b).grant ≤ a ∨ (s.bay b).allowance ≤ a) :
    Evolves s (s.setAllowance b a) := s.modBay_evolves b _ (.allowed _ a _ h) id

/-- A largest step is a multiple of 5 that passes the test, and no greater than the most it was sought up to. -/
theorem largestStep_spec (ok : Nat → Bool) (k v : Nat) (h : largestStep ok k = some v) :
    v % 5 = 0 ∧ ok v = true ∧ 5 ≤ v ∧ v ≤ 5 * k := by
  induction k with
  | zero => cases h
  | succ k ih =>
    unfold largestStep at h
    split at h
    · rename_i e
      cases h
      exact ⟨by omega, e, by omega, le_refl _⟩
    · obtain ⟨a, b, c, d⟩ := ih h
      exact ⟨a, b, c, by omega⟩

/-- A largest step is the largest: every greater multiple of 5 in range fails the test. -/
theorem largestStep_most (ok : Nat → Bool) (k v w : Nat) (h : largestStep ok k = some v) (a : w % 5 = 0) (b : v < w)
    (c : w ≤ 5 * k) : ok w = false := by
  induction k with
  | zero => cases h
  | succ k ih =>
    unfold largestStep at h
    split at h
    · cases h
      omega
    · rename_i e
      by_cases d : w ≤ 5 * k
      · exact ih h d
      · have : w = 5 * (k + 1) := by omega
        rw [this]
        simpa using e

/-- A release takes a multiple of 5 where the increase is one, and a value that fits (R129). -/
theorem State.releaseValue_spec (s : State) (x : Increase) (v : Nat) (h : s.releaseValue x = some v) :
    (x.grant % 5 = 0 → v % 5 = 0) ∧ s.releaseFits x.bay v = true := by
  unfold State.releaseValue at h
  split at h
  · rename_i e
    cases h
    exact ⟨id, e⟩
  · obtain ⟨a, b, -, -⟩ := largestStep_spec _ _ _ h
    simp only [Bool.and_eq_true] at b
    exact ⟨fun _ => a, b.2⟩

/-- A release leaves the pending list as it is: the walk empties it at its end. -/
theorem State.releaseOne_pendingList (s : State) (x : Increase) : (s.releaseOne x).pendingList = s.pendingList := by
  unfold State.releaseOne
  split <;> rfl

/-- One increase of the pending list released. -/
theorem State.releaseOne_evolves (s : State) (x : Increase) (h : x ∈ s.pendingList) : Evolves s (s.releaseOne x) := by
  unfold State.releaseOne
  split
  · rename_i v e
    refine Evolves.trans ?_ (State.notify_evolves _ _ _)
    refine ⟨⟨rfl, rfl, rfl, rfl, rfl, rfl, rfl, rfl, rfl, rfl, rfl, rfl⟩, fun _ => PortMoves.refl _, fun d => ?_, fun _ a => a,
      fun a => ⟨fun d => ?_, a.2⟩, fun a => a⟩
    all_goals rw [State.setAllowance_bay]; simp only [State.modBay_bay]
    · by_cases c : d = x.bay
      · subst c
        simp only [if_true]
        exact .released _ v _
      · simp only [c, if_false]
        exact BayMoves.refl _
    · by_cases c : d = x.bay
      · simp only [c, if_true]
        exact (s.releaseValue_spec x v e).1 (a.2 x h)
      · simp only [c, if_false]
        exact a.1 d
  · exact .refl s

/-- A walk over increases of the pending list. -/
theorem State.releaseAll_evolves (l : List Increase) (s : State) (h : ∀ x ∈ l, x ∈ s.pendingList) :
    Evolves s (l.foldl State.releaseOne s) := by
  induction l generalizing s with
  | nil => exact .refl s
  | cons x l ih =>
    exact (s.releaseOne_evolves x (h x (by simp))).trans (ih _ fun y hy => by
      rw [State.releaseOne_pendingList]
      exact h y (by simp [hy]))

/-- The pending list emptied. -/
theorem State.emptyList_evolves (s : State) : Evolves s { s with pendingList := [] } :=
  ⟨⟨rfl, rfl, rfl, rfl, rfl, rfl, rfl, rfl, rfl, rfl, rfl, rfl⟩, fun _ => PortMoves.refl _, fun _ => BayMoves.refl _,
    fun _ h => h, fun h => ⟨h.1, by simp⟩, fun h => h⟩

theorem State.release_evolves (s : State) : Evolves s s.release :=
  (State.releaseAll_evolves s.pendingList s fun _ h => h).trans (State.emptyList_evolves _)

theorem State.releaseIfResolved_evolves (s : State) : Evolves s s.releaseIfResolved := by
  unfold State.releaseIfResolved
  split
  · exact s.release_evolves
  · exact .refl s

theorem State.resolve_evolves (s : State) (b : BayId) : Evolves s (s.resolve b) := by
  unfold State.resolve
  split
  · exact (s.modBay_evolves b _ (.resolved _) id).trans (State.releaseIfResolved_evolves _)
  · exact .refl s

theorem State.confirm_evolves (s : State) (b : BayId) : Evolves s (s.confirm b) := by
  unfold State.confirm
  split
  · exact (s.setAllowance_evolves b _ (.inl (le_refl _))).trans (State.resolve_evolves _ _)
  · exact .refl s

theorem State.setOverdrawStreak_evolves (s : State) (b : BayId) (n : Nat) : Evolves s (s.setOverdrawStreak b n) :=
  s.modBay_evolves_other b _ rfl rfl rfl rfl rfl rfl rfl

theorem State.raiseAllowance_evolves (s : State) (b : BayId) (c : Nat) : Evolves s (s.raiseAllowance b c) := by
  unfold State.raiseAllowance
  split
  · rename_i h
    exact (s.setAllowance_evolves b _ (.inr h.le)).trans (State.notify_evolves _ _ _)
  · exact .refl s

theorem State.overdrawn_evolves (s : State) (b : BayId) (c : Nat) : Evolves s (s.overdrawn b c) := by
  unfold State.overdrawn
  split
  · exact s.setOverdrawStreak_evolves b _
  · exact ((s.count_evolves b _).trans (State.raiseAllowance_evolves _ _ _)).trans (State.setOverdrawStreak_evolves _ _ _)

theorem State.compareCurrent_evolves (s : State) (b : BayId) (c : Nat) : Evolves s (s.compareCurrent b c) := by
  unfold State.compareCurrent
  split
  · exact (s.confirm_evolves b).trans (State.setOverdrawStreak_evolves _ _ _)
  · exact s.overdrawn_evolves b c

/-- A pending increase that is a multiple of 5 joins the list. -/
theorem State.appendIncrease_evolves (s : State) (x : Increase) (h : x.grant % 5 = 0) :
    Evolves s { s with pendingList := s.pendingList ++ [x] } :=
  ⟨⟨rfl, rfl, rfl, rfl, rfl, rfl, rfl, rfl, rfl, rfl, rfl, rfl⟩, fun _ => PortMoves.refl _, fun _ => BayMoves.refl _,
    fun _ a => a, fun a => ⟨a.1, fun y hy => by
      rcases List.mem_append.mp hy with hy | hy
      · exact a.2 y hy
      · rw [List.mem_singleton.mp hy]
        exact h⟩, fun a => a⟩

theorem State.applyTarget_evolves (s : State) (t : Target) (h : t.current % 5 = 0) : Evolves s (s.applyTarget t) := by
  unfold State.applyTarget
  split
  · split
    · exact s.appendIncrease_evolves ⟨t.bay, t.current⟩ h
    · exact s.lower_evolves _ _ h
  · exact .refl s

theorem State.applyTargets_evolves (l : List Target) (s : State) (h : ∀ t ∈ l, t.current % 5 = 0) :
    Evolves s (l.foldl State.applyTarget s) := by
  induction l generalizing s with
  | nil => exact .refl s
  | cons t l ih => exact (s.applyTarget_evolves t (h t (by simp))).trans (ih _ fun u hu => h u (by simp [hu]))

theorem State.handOver_evolves (s : State) (l : List Target) (h : ∀ t ∈ l, t.current % 5 = 0) :
    Evolves s (s.handOver l) :=
  (s.emptyList_evolves.trans (State.applyTargets_evolves l _ h)).trans (State.releaseIfResolved_evolves _)

end Sys2Proof.Machine
end

