-- ==== Sys2Proof/Laws/EvolveBays.lean ====
section
/-!
SUPPORT. The operations of Bays.lean and the folds over all bays of SupplyMonitor.lean evolve the part (Evolve.lean).
-/

namespace Sys2Proof.Machine

/-! ### Bands -/

theorem State.followFactor_evolves (s : State) (b : BayId) : Evolves s (s.followFactor b) := by
  unfold State.followFactor
  split
  · exact s.addInhibit_evolves b _
  · split
    · exact s.removeInhibit_evolves b _
    · exact .refl s

theorem State.heatLimit_evolves (s : State) (b : BayId) : Evolves s (s.heatLimit b) := by
  unfold State.heatLimit
  split
  · exact s.addFault_evolves b
  · rename_i i _
    dsimp only
    split
    · exact s.access_evolves i
    · exact (s.access_evolves i).trans (State.enterQuarantine_evolves _ _ _)

theorem State.heatEntry_evolves (s : State) (b : BayId) : Evolves s (s.heatEntry b) := by
  have h := (s.count_evolves b .overtemp).trans (State.modBay_evolves_other _ b
    (fun x => { x with heat := min 3 (x.heat + 1) }) rfl rfl rfl rfl rfl rfl rfl)
  unfold State.heatEntry
  dsimp only
  split
  · exact h
  · exact h.trans (State.heatLimit_evolves _ _)

theorem State.putBand_evolves (s : State) (b : BayId) (k : Fin 6) : Evolves s (s.putBand b k) :=
  s.modBay_evolves_other b _ rfl rfl rfl rfl rfl rfl rfl

theorem State.changeBand_evolves (s : State) (b : BayId) (k : Fin 6) : Evolves s (s.changeBand b k) := by
  have h := ((s.putBand_evolves b k).trans (State.followFactor_evolves _ b)).trans
    (State.notify_evolves _ .bay (.bay b))
  unfold State.changeBand
  dsimp only
  split
  · exact h.trans (State.heatEntry_evolves _ _)
  · exact h

theorem State.trackBand_evolves (s : State) (b : BayId) (t : Int) : Evolves s (s.trackBand b t) := by
  unfold State.trackBand
  dsimp only
  split
  · exact .refl s
  · split
    · exact s.modBay_evolves_other b _ rfl rfl rfl rfl rfl rfl rfl
    · split
      · exact s.modBay_evolves_other b _ rfl rfl rfl rfl rfl rfl rfl
      · exact s.changeBand_evolves b _

theorem State.retakeBand_evolves (s : State) (b : BayId) : Evolves s (s.retakeBand b) := by
  unfold State.retakeBand
  dsimp only
  split <;> split
  all_goals first
    | exact (s.putBand_evolves b _).trans (State.followFactor_evolves _ _)
    | exact s.changeBand_evolves b _

/-! ### Charge -/

/-- The bound of an estimate lies at or below 110 percent of the capacity (R2). -/
theorem estimateBound_le (c : Nat) : estimateBound c ≤ c * 110 / 100 := Nat.min_le_left _ _

/-- A credit keeps the law of charge (R52). -/
theorem PackRecord.credited_lawful (r : PackRecord) (c : Nat) : (r.credited c).lawful := by
  have hb := estimateBound_le r.capacity
  unfold PackRecord.credited
  dsimp only
  split
  · exact ⟨hb, Nat.zero_le _⟩
  · refine ⟨?_, ?_⟩ <;> dsimp only
    · omega
    · omega

theorem State.creditCharge_evolves (s : State) (b : BayId) (c n : Nat) : Evolves s (s.creditCharge b c n) := by
  unfold State.creditCharge
  split
  · exact .refl s
  · rename_i i _
    exact (s.putRecord_evolves i _ fun _ _ => (s.record i).credited_lawful _).trans
      (State.modBay_evolves_other _ b _ rfl rfl rfl rfl rfl rfl rfl)

/-! ### Stages -/

theorem State.makeReady_evolves (s : State) (i : SlotId) : Evolves s (s.makeReady i) := by
  unfold State.makeReady
  refine Evolves.trans ?_ (State.joinReady_evolves _ _ _)
  apply State.putRecord_evolves_other <;> rfl

theorem State.enterDone_evolves (s : State) (b : BayId) : Evolves s (s.enterDone b) := by
  have h := s.enterStage_evolves b .done
  unfold State.enterDone
  dsimp only
  split
  · split
    · exact ((h.trans (State.makeReady_evolves _ _)).trans (State.notify_evolves _ _ _)).trans (State.requestPlan_evolves _)
    · exact h
  · exact h

theorem State.enterRest_evolves (s : State) (b : BayId) (n : Nat) : Evolves s (s.enterRest b n) := by
  unfold State.enterRest
  split
  · exact s.enterDone_evolves b
  · exact (s.enterStage_evolves b _).trans (State.modBay_evolves_other _ b _ rfl rfl rfl rfl rfl rfl rfl)

theorem State.complete_evolves (s : State) (b : BayId) (i : SlotId) : Evolves s (s.complete b i) := by
  have h : Evolves s (s.putRecord i ((s.record i).completed (s.bayProfile b) (s.bay b).session)) :=
    s.putRecord_evolves i _ fun _ _ => by
      unfold PackRecord.completed PackRecord.lawful
      dsimp only
      constructor <;> omega
  unfold State.complete
  dsimp only
  split
  · exact (h.trans (State.enterStage_evolves _ _ _)).trans (State.modBay_evolves_other _ b _ rfl rfl rfl rfl rfl rfl rfl)
  · exact h.trans (State.enterRest_evolves _ _ _)

theorem State.moveStage_evolves (s : State) (b : BayId) (l : LastReport) (u : Bool) : Evolves s (s.moveStage b l u) := by
  unfold State.moveStage
  split
  · exact .refl s
  · rename_i i _
    split
    · exact .refl s
    · dsimp only
      have g : ∀ (t : State) (c o : Bool),
          Evolves t (if c then (if o then t.notify .bay (.bay b) else t).complete b i else t) := by
        intro t c o
        cases c
        · exact .refl t
        · cases o
          · exact t.complete_evolves b i
          · exact (t.notify_evolves _ _).trans (State.complete_evolves _ b i)
      split
      · exact (s.enterStage_evolves b .absorb).trans (g _ _ _)
      · exact g s _ _

/-! ### Supervision -/

theorem State.becomeSilent_evolves (s : State) (b : BayId) : Evolves s (s.becomeSilent b) :=
  ((s.count_evolves b .silence).trans (State.changeBay_evolves _ b _ (.other rfl rfl rfl rfl rfl rfl rfl) id)).trans
    (State.notify_evolves _ _ _)

theorem State.becomeLost_evolves (s : State) (b : BayId) : Evolves s (s.becomeLost b) := by
  have h : Evolves s (if (s.bay b).report == .normal then s.becomeSilent b else s) := by
    split
    · exact s.becomeSilent_evolves b
    · exact .refl s
  exact (h.trans (State.changeBay_evolves _ b _ (.other rfl rfl rfl rfl rfl rfl rfl) id)).trans
    (State.addFault_evolves _ _)

theorem State.returnToNormal_evolves (s : State) (b : BayId) : Evolves s (s.returnToNormal b) := by
  unfold State.returnToNormal
  split
  · exact .refl s
  · exact (s.changeBay_evolves b _ (.other rfl rfl rfl rfl rfl rfl rfl) id).trans (State.notify_evolves _ _ _)

theorem State.stallHold_evolves (s : State) (b : BayId) : Evolves s (s.stallHold b) :=
  (((s.count_evolves b .stall).trans (State.modBay_evolves_other _ b _ rfl rfl rfl rfl rfl rfl rfl)).trans
    (State.addInhibit_evolves _ b .stallHold)).trans (State.notify_evolves _ _ _)

theorem State.stallFault_evolves (s : State) (b : BayId) : Evolves s (s.stallFault b) :=
  ((s.count_evolves b .stall).trans (State.modBay_evolves_other _ b _ rfl rfl rfl rfl rfl rfl rfl)).trans
    (State.addFault_evolves _ b)

theorem State.declareStall_evolves (s : State) (b : BayId) : Evolves s (s.declareStall b) := by
  unfold State.declareStall
  split
  · exact s.stallHold_evolves b
  · exact s.stallFault_evolves b

theorem State.judgeStall_evolves (s : State) (b : BayId) (c : Nat) : Evolves s (s.judgeStall b c) := by
  unfold State.judgeStall
  split
  · split
    · exact s.modBay_evolves_other b _ rfl rfl rfl rfl rfl rfl rfl
    · exact s.declareStall_evolves b
  · exact s.modBay_evolves_other b _ rfl rfl rfl rfl rfl rfl rfl

theorem State.clearStall_evolves (s : State) (b : BayId) : Evolves s (s.clearStall b) :=
  ((s.modBay_evolves_other b _ rfl rfl rfl rfl rfl rfl rfl).trans (State.notifyFaultClear_evolves _ _)).trans
    (State.requestPass_evolves _)

theorem State.judgeProbation_evolves (s : State) (b : BayId) (c : Nat) : Evolves s (s.judgeProbation b c) := by
  unfold State.judgeProbation
  dsimp only
  split
  · split
    · exact s.modBay_evolves_other b _ rfl rfl rfl rfl rfl rfl rfl
    · split
      · exact s.modBay_evolves_other b _ rfl rfl rfl rfl rfl rfl rfl
      · exact s.clearStall_evolves b
  · exact .refl s

theorem State.supervise_evolves (s : State) (b : BayId) (l : LastReport) : Evolves s (s.supervise b l) := by
  have h : Evolves s (if l.chargerFault then s.addFault b else s) := by
    split
    · exact s.addFault_evolves b
    · exact .refl s
  exact (h.trans (State.judgeProbation_evolves _ _ _)).trans (State.judgeStall_evolves _ _ _)

/-! ### All bays -/

theorem State.holdBay_evolves (s : State) (b : BayId) : Evolves s (s.holdBay b) := by
  unfold State.holdBay
  split
  · exact .refl s
  · exact s.addInhibit_evolves b _

theorem State.clearInhibit_evolves (s : State) (r : Inhibit) : Evolves s (s.clearInhibit r) :=
  .foldl _ (fun t b => by
    split
    · exact t.removeInhibit_evolves b r
    · exact .refl t) allBays s

theorem State.rezoneBay_evolves (s : State) (b : BayId) : Evolves s (s.rezoneBay b) := by
  unfold State.rezoneBay
  split
  · exact .refl s
  · split
    · split
      · exact s.removeInhibit_evolves b _
      · exact .refl s
    · split
      · exact .refl s
      · exact s.addInhibit_evolves b _

theorem State.rezone_evolves (s : State) : Evolves s s.rezone :=
  ((Evolves.foldl _ State.rezoneBay_evolves allBays s).trans (State.notify_evolves _ _ _)).trans
    (State.requestPass_evolves _)

end Sys2Proof.Machine
end

