-- ==== Sys2Proof/Laws/EvolveTables.lean ====
section
/-!
SUPPORT. What taking a table entry, a planning pass, a draw, a dock, an undock, a report and the rotation commands do to the part,
by the lemmas of Evolve.lean: one lemma for each.
-/

namespace Sys2Proof.Machine

/-! ### Taking entries -/

/-- A record brought within a valid entry's bounds keeps the law of charge (R33). -/
theorem PackRecord.within_lawful (r : PackRecord) (pr : Profile) (h : r.lawful) : (r.within pr).lawful := by
  unfold PackRecord.within
  dsimp only
  split
  · exact ⟨le_refl _, Nat.zero_le _⟩
  · rename_i e
    exact ⟨not_lt.mp e, h.2⟩

theorem State.retakeRecord_evolves (k : ProfileId) (s : State) (i : SlotId) : Evolves s (State.retakeRecord k s i) := by
  unfold State.retakeRecord
  split
  · dsimp only
    split
    · exact (s.access_evolves i).trans (State.putRecord_evolves _ i _ fun _ h => PackRecord.within_lawful _ _ (h i))
    · exact s.access_evolves i
  · exact .refl s

theorem State.reevaluateBulk_evolves (s : State) (b : BayId) : Evolves s (s.reevaluateBulk b) := by
  unfold State.reevaluateBulk
  split
  · split
    · exact s.enterStage_evolves b _
    · exact .refl s
  · exact .refl s

theorem State.retakeBay_evolves (k : ProfileId) (s : State) (b : BayId) : Evolves s (State.retakeBay k s b) := by
  have h : Evolves s (if (s.bay b).carries .profile then s.removeInhibit b .profile else s) := by
    split
    · exact s.removeInhibit_evolves b _
    · exact .refl s
  unfold State.retakeBay
  split
  · exact (h.trans (State.retakeBand_evolves _ b)).trans (State.reevaluateBulk_evolves _ b)
  · exact .refl s

theorem State.barBay_evolves (k : ProfileId) (s : State) (b : BayId) : Evolves s (State.barBay k s b) := by
  unfold State.barBay
  split
  · exact s.addInhibit_evolves b _
  · exact .refl s

/-- What the take of a profile entry does once the entry stands in the table (R25). -/
theorem State.takeProfile_evolves (s : State) (k : ProfileId) (bytes : Vector Byte 32) :
    ∃ v, (v = true → (profileOfBytes bytes).passes = true) ∧
      Evolves (s.setProfile k { profileOfBytes bytes with valid := v }) (s.takeProfile k bytes) := by
  refine ⟨bytes[0] != 0 && (profileOfBytes bytes).passes, fun h => (Bool.and_eq_true _ _ ▸ h).2, ?_⟩
  unfold State.takeProfile
  dsimp only
  refine Evolves.trans ?_ (State.requestPlan_evolves _)
  refine Evolves.trans ?_ (State.requestPass_evolves _)
  split
  · exact (Evolves.foldl _ (State.retakeRecord_evolves k) _ _).trans (Evolves.foldl _ (State.retakeBay_evolves k) _ _)
  · refine Evolves.trans ?_ (Evolves.foldl _ (State.barBay_evolves k) _ _)
    split
    · exact State.notify_evolves _ _ _
    · exact .refl _

theorem State.unreserve_evolves (s : State) (e : EntryId) : Evolves s (s.unreserve e) := by
  unfold State.unreserve
  split
  · dsimp only
    split
    · exact (s.access_evolves _).trans (State.dropReservation_evolves _ _ _)
    · exact s.access_evolves _
  · exact .refl s

theorem State.orphanDraws_evolves (s : State) (e : EntryId) : Evolves s (s.orphanDraws e) := by
  have h : ∀ d, Evolves s { s with draws := d } := fun d =>
    .ofQuiet ⟨rfl, rfl, rfl, rfl, rfl, rfl, rfl, rfl, rfl, rfl, rfl, rfl⟩ rfl rfl rfl rfl fun h => h
  exact h _

theorem State.takeEntry_evolves (s : State) (e : EntryId) (bytes : Vector Byte 8) : Evolves s (s.takeEntry e bytes) := by
  unfold State.takeEntry
  dsimp only
  refine Evolves.trans ?_ (State.requestPlan_evolves _)
  have h : ∀ x, Evolves s (((s.unreserve e).setEntry e x).orphanDraws e) := fun x =>
    ((s.unreserve_evolves e).trans (State.setEntry_evolves _ e x)).trans (State.orphanDraws_evolves _ e)
  split
  · exact (h _).trans (State.notify_evolves _ _ _)
  · exact h _

theorem State.addDeparture_evolves (s : State) (e : EntryId) (x : Entry) : Evolves s (s.addDeparture e x) :=
  ((s.unreserve_evolves e).trans (State.setEntry_evolves _ e x)).trans (State.requestPlan_evolves _)

theorem State.cancelDeparture_evolves (s : State) (e : EntryId) : Evolves s (s.cancelDeparture e) :=
  ((s.unreserve_evolves e).trans (State.setEntry_evolves _ e _)).trans (State.requestPlan_evolves _)

/-! ### Planning -/

theorem State.settle_evolves (s : State) : Evolves s s.settle := by
  have h : Evolves s { s with entries := updateAll s.entries fun e _ => s.settledEntry e } :=
    .ofQuiet ⟨rfl, rfl, rfl, rfl, rfl, rfl, rfl, rfl, rfl, rfl, rfl, rfl⟩ rfl rfl rfl rfl fun h => h
  unfold State.settle
  dsimp only
  split
  · exact h.trans (State.notify_evolves _ _ _)
  · exact h

theorem State.planEntry_evolves (acc : State × List Choice) (e : EntryId) : Evolves acc.1 (State.planEntry acc e).1 := by
  obtain ⟨s, chosen⟩ := acc
  have h : Evolves s (State.planEntry (s, chosen) e).1 := by
    unfold State.planEntry
    dsimp only
    have g := s.setEntry_evolves e { s.entry e with status := (s.choose chosen e).2 }
    split <;> split
    all_goals first
      | exact g.trans (State.notify_evolves _ _ _)
      | exact g
  exact h

theorem State.planEntries_evolves (l : List EntryId) (acc : State × List Choice) :
    Evolves acc.1 (l.foldl State.planEntry acc).1 := by
  induction l generalizing acc with
  | nil => exact .refl _
  | cons e l ih => exact (State.planEntry_evolves acc e).trans (ih _)

theorem State.reserveSlot_evolves (chosen : List Choice) (s : State) (i : SlotId) :
    Evolves s (State.reserveSlot chosen s i) := by
  unfold State.reserveSlot
  split
  · exact .refl s
  · dsimp only
    split
    · refine (s.access_evolves i).trans ?_
      apply State.putRecord_evolves_other <;> rfl
    · refine (s.access_evolves i).trans ?_
      apply State.putRecord_evolves_other <;> rfl

theorem State.writeReservations_evolves (s : State) (chosen : List Choice) : Evolves s (s.writeReservations chosen) := by
  unfold State.writeReservations
  dsimp only
  have h := Evolves.foldl _ (State.reserveSlot_evolves chosen) allSlots s
  have g : ∀ t : State, ∀ f, Evolves t { t with entries := f } := fun t f =>
    .ofQuiet ⟨rfl, rfl, rfl, rfl, rfl, rfl, rfl, rfl, rfl, rfl, rfl, rfl⟩ rfl rfl rfl rfl fun h => h
  split
  · exact h.trans (g _ _)
  · exact (h.trans (g _ _)).trans (State.requestPass_evolves _)

theorem State.plan_evolves (s : State) : Evolves s s.plan := by
  have h : Evolves s { s with planMark := false } :=
    .ofQuiet ⟨rfl, rfl, rfl, rfl, rfl, rfl, rfl, rfl, rfl, rfl, rfl, rfl⟩ rfl rfl rfl rfl fun h => h
  unfold State.plan
  dsimp only
  exact ((h.trans (State.settle_evolves _)).trans (State.planEntries_evolves _ (_, []))).trans
    (State.writeReservations_evolves _ _)

/-! ### Rotation -/

theorem State.choosePack_evolves (s : State) (w : SweeperId) (k : ProfileId) (e : Option EntryId) :
    Evolves s (s.choosePack w k e).1 := by
  have h1 : Evolves s (s.choiceReserved e).1 := by
    unfold State.choiceReserved
    split
    · exact .refl s
    · split
      · exact .refl s
      · dsimp only
        split
        · exact s.access_evolves _
        · exact s.access_evolves _
  have h2 : ∀ t : State, Evolves t (t.choiceReady w k).1 := fun t => t.accessAll_evolves _
  have h3 : ∀ t : State, Evolves t (t.choicePartial w k).1 := fun t => by
    unfold State.choicePartial
    dsimp only
    split
    · split <;> exact t.accessAll_evolves _
    · exact t.accessAll_evolves _
  unfold State.choosePack
  split
  · rename_i t i e1
    rw [e1] at h1
    exact h1
  · rename_i t e1
    rw [e1] at h1
    split
    · rename_i u i e2
      have := h2 t
      rw [e2] at this
      exact h1.trans this
    · rename_i u e2
      have := h2 t
      rw [e2] at this
      exact (h1.trans this).trans (h3 u)

theorem State.recallBay_evolves (s : State) (w : SweeperId) (i : SlotId) (b : BayId) : Evolves s (s.recallBay w i b) :=
  ((s.addInhibit_evolves b .called).trans (State.appendRecall_evolves _ _ _)).trans (State.notify_evolves _ _ _)

theorem State.callEntry_evolves (s : State) (e : EntryId) : Evolves s (s.callEntry e) :=
  (s.unreserve_evolves e).trans (State.setEntry_evolves _ e _)

theorem State.serveDraw_evolves (s : State) (w : SweeperId) (i : SlotId) (e : Option EntryId) :
    Evolves s (s.serveDraw w i e) := by
  have h1 := (s.clearReservation_evolves i).trans (State.leaveReady_evolves _ i)
  have h2 : ∀ t : State, Evolves t (t.putRecord i { t.record i with
      lifecycle := .called, sweeper := some w, reservation := none, readySince := none }) := fun t =>
    t.putRecord_evolves_other i _ rfl rfl rfl
  unfold State.serveDraw
  dsimp only
  split <;> split
  · exact (((h1.trans (h2 _)).trans (State.recallBay_evolves _ w i _)).trans (State.setDraw_evolves _ w _)).trans
      (State.callEntry_evolves _ _)
  · exact ((h1.trans (h2 _)).trans (State.setDraw_evolves _ w _)).trans (State.callEntry_evolves _ _)
  · exact ((h1.trans (h2 _)).trans (State.recallBay_evolves _ w i _)).trans (State.setDraw_evolves _ w _)
  · exact (h1.trans (h2 _)).trans (State.setDraw_evolves _ w _)

theorem State.drawPack_evolves (s : State) (w : SweeperId) (k : ProfileId) : Evolves s (s.drawPack w k).state := by
  unfold State.drawPack
  dsimp only
  split
  · exact (s.choosePack_evolves w k _).trans (State.serveDraw_evolves _ w _ _)
  · exact s.choosePack_evolves w k _

theorem State.accessDrawn_evolves (s : State) (w : SweeperId) : Evolves s (s.accessDrawn w) := by
  unfold State.accessDrawn
  split
  · exact s.access_evolves _
  · exact .refl s

theorem State.uncall_evolves (s : State) (i : SlotId) (b : BayId) : Evolves s (s.uncall i b) := by
  have h := s.putRecord_evolves_other i { s.record i with lifecycle := .docked, sweeper := none } rfl rfl rfl
  unfold State.uncall
  dsimp only
  split
  · exact (h.trans (State.makeReady_evolves _ i)).trans (State.notify_evolves _ _ _)
  · exact h

theorem State.cancelDrawOf_evolves (s : State) (i : SlotId) : Evolves s (s.cancelDrawOf i) := by
  unfold State.cancelDrawOf
  dsimp only
  refine Evolves.trans ?_ (State.requestPlan_evolves _)
  refine Evolves.trans ?_ (State.voidDraw_evolves _ i)
  split
  · exact (s.uncall_evolves i _).trans (State.removeInhibit_evolves _ _ _)
  · exact .refl s

theorem State.releaseQuarantine_evolves (s : State) (i : SlotId) : Evolves s (s.releaseQuarantine i) := by
  have h : Evolves s (s.releaseRecord i) := by
    unfold State.releaseRecord
    split
    · dsimp only
      split
      · refine Evolves.trans ?_ (State.makeReady_evolves _ i)
        apply State.putRecord_evolves_other <;> rfl
      · apply State.putRecord_evolves_other <;> rfl
    · apply State.putRecord_evolves_other <;> rfl
  unfold State.releaseQuarantine
  dsimp only
  refine Evolves.trans ?_ (State.requestPlan_evolves _)
  refine Evolves.trans ?_ (State.notify_evolves _ _ _)
  split
  · exact h.trans (State.removeInhibit_evolves _ _ _)
  · exact h

theorem State.unlistBay_evolves (s : State) (b : BayId) : Evolves s (s.unlistBay b) :=
  ((s.modBay_evolves_other b _ rfl rfl rfl rfl rfl rfl rfl).trans (State.addInhibit_evolves _ b _)).trans
    (State.removeInhibit_evolves _ b _)

theorem State.forgetRecord_evolves (s : State) (i : SlotId) : Evolves s (s.forgetRecord i) := by
  unfold State.forgetRecord
  dsimp only
  refine Evolves.trans ?_ (State.relist_evolves _ i)
  refine Evolves.trans ?_ (State.putRecord_evolves _ i freeRecord fun _ _ => ⟨Nat.zero_le _, Nat.zero_le _⟩)
  split
  · exact s.unlistBay_evolves _
  · exact .refl s

/-! ### Dock -/

/-- A gauge of at most 100 percent. -/
def Docking.sane (d : Docking) : Prop := ∀ g, d.gauge = some g → g ≤ 100

theorem dockingOf_sane (params : List Byte) (d : Docking) (h : dockingOf params = some d) : d.sane := by
  unfold dockingOf at h
  split at h
  · cases h
  · split at h
    · cases h
    · split at h
      · rename_i e
        cases h
        intro g e'
        cases e'
        exact e
      · split at h
        · cases h
          intro g e'
          cases e'
        · cases h

/-- A return estimate of at most 100 percent (R26). -/
theorem Profile.sane_returnEstimate (pr : Profile) (h : pr.sane) (v : pr.valid = true) : pr.returnEstimate ≤ 100 := by
  have g := h v
  simp only [Profile.passes, Bool.and_eq_true, decide_eq_true_eq] at g
  exact g.1.1.1.2

theorem percent_le (c g : Nat) (h : g ≤ 100) : c * g / 100 ≤ c * 110 / 100 :=
  Nat.div_le_div_right (Nat.mul_le_mul_left c (by omega))

theorem PackRecord.gauged_lawful (r : PackRecord) (g : Option Nat) (w : Bool) (pr : Profile) (h : r.lawful)
    (a : ∀ x, g = some x → x ≤ 100) (b : pr.sane) : (r.gauged g w pr).lawful := by
  unfold PackRecord.gauged
  split
  · exact ⟨percent_le _ _ (a _ rfl), Nat.zero_le _⟩
  · split
    · rename_i e
      simp only [Bool.and_eq_true] at e
      exact ⟨percent_le _ _ (pr.sane_returnEstimate b e.2), Nat.zero_le _⟩
    · exact h

theorem PackRecord.redocked_lawful (r : PackRecord) (b : BayId) (h : r.lawful) : (r.redocked b).lawful := by
  unfold PackRecord.redocked
  split <;> exact h

theorem PackRecord.reprofiled_lawful (r : PackRecord) (k : ProfileId) (n : Nat) (h : r.lawful) :
    (r.reprofiled k n).lawful := by
  unfold PackRecord.reprofiled
  split
  · exact h
  · split
    · exact ⟨le_refl _, Nat.zero_le _⟩
    · rename_i e
      exact ⟨not_lt.mp e, h.2⟩

theorem State.dockRecord_lawful (s : State) (b : BayId) (d : Docking) (i : SlotId) (hd : d.sane) (hp : s.profilesSane)
    (hr : s.recordsLawful) : (s.dockRecord b d i).lawful := by
  unfold State.dockRecord
  split
  · exact PackRecord.gauged_lawful _ _ _ _ (PackRecord.reprofiled_lawful _ _ _ (PackRecord.redocked_lawful _ _ (hr i))) hd
      (hp _)
  · exact PackRecord.gauged_lawful _ _ _ _ ⟨Nat.zero_le _, Nat.zero_le _⟩ hd (hp _)

theorem State.dockRoster_evolves (s : State) (b : BayId) (d : Docking) (h : d.sane) :
    Evolves s.countSeen (s.dockRoster b d) := by
  have g : Evolves s.countSeen (if s.rosterFull d then s.countSeen.notify .roster .part else s.countSeen) := by
    split
    · exact State.notify_evolves _ _ _
    · exact .refl _
  unfold State.dockRoster
  dsimp only
  split
  · rename_i i _
    have law : ∀ x, s.profilesSane → s.recordsLawful → ({ s.dockRecord b d i with seen := x } : PackRecord).lawful :=
      fun x a c => PackRecord.lawful_of_charge (s.dockRecord_lawful b d i h a c) rfl rfl rfl
    split
    · exact (State.notify_evolves _ _ _).trans (State.putRecord_evolves _ i _ fun a c => law _ a c)
    · exact State.putRecord_evolves _ i _ fun a c => law _ a c
  · exact g

theorem State.dockBay_evolves (s : State) (b : BayId) (d : Docking) (i : Option SlotId) : Evolves s (s.dockBay b d i) := by
  unfold State.dockBay
  dsimp only
  refine Evolves.trans ?_ (State.requestPlan_evolves _)
  refine Evolves.trans ?_ (State.requestPass_evolves _)
  refine Evolves.trans ?_ (State.notify_evolves _ _ _)
  have other : ∀ (t : State) (f : Bay → Bay), (∀ x, (f x).grant = x.grant ∧ (f x).allowance = x.allowance ∧
      (f x).power = x.power ∧ (f x).reduction = x.reduction ∧ (f x).confirmTimer = x.confirmTimer ∧
      (f x).counters = x.counters ∧ (f x).images = x.images) → Evolves t (t.modBay b f) := fun t f h =>
    t.modBay_evolves_other b f (h _).1 (h _).2.1 (h _).2.2.1 (h _).2.2.2.1 (h _).2.2.2.2.1 (h _).2.2.2.2.2.1
      (h _).2.2.2.2.2.2
  have h1 := other s (fun x => x.occupied d i) fun _ => ⟨rfl, rfl, rfl, rfl, rfl, rfl, rfl⟩
  have h2 := h1.trans (other _ (fun x => { x with band := (s.modBay b fun x => x.occupied d i).dockBand b })
    fun _ => ⟨rfl, rfl, rfl, rfl, rfl, rfl, rfl⟩)
  have h3 := h2.trans (other _ (fun x => { x with inhibits := ((s.modBay b fun x => x.occupied d i).modBay b fun x =>
    { x with band := (s.modBay b fun x => x.occupied d i).dockBand b }).dockInhibits b })
    fun _ => ⟨rfl, rfl, rfl, rfl, rfl, rfl, rfl⟩)
  have h4 : ∀ st, Evolves s ((((s.modBay b fun x => x.occupied d i).modBay b fun x =>
      { x with band := (s.modBay b fun x => x.occupied d i).dockBand b }).modBay b fun x =>
      { x with inhibits := ((s.modBay b fun x => x.occupied d i).modBay b fun x =>
        { x with band := (s.modBay b fun x => x.occupied d i).dockBand b }).dockInhibits b }).modBay b fun x =>
      { x with stage := st }) := fun st => h3.trans (other _ _ fun _ => ⟨rfl, rfl, rfl, rfl, rfl, rfl, rfl⟩)
  split
  · exact (h4 _).trans (State.heatEntry_evolves _ _)
  · exact h4 _

/-! ### Undock -/

theorem State.unaccount_evolves (w : Option SweeperId) (s : State) (j : SlotId) : Evolves s (State.unaccount w s j) := by
  unfold State.unaccount
  split
  · dsimp only
    split
    · refine Evolves.trans ?_ (State.notify_evolves _ _ _)
      refine (s.access_evolves j).trans ?_
      apply State.putRecord_evolves_other <;> rfl
    · exact s.access_evolves j
  · exact .refl s

/-- The draw's end changes no record (R163). -/
theorem State.endDraw_record (s : State) (i j : SlotId) (o : EntryStatus) : (s.endDraw i o).record j = s.record j := by
  have h : ∀ (t : State) e, (t.settleDrawnEntry e o).records = t.records := fun t e => by
    unfold State.settleDrawnEntry
    split
    · split <;> rfl
    · rfl
  unfold State.endDraw State.record
  split
  · exact congrArg (fun v : Vector PackRecord 64 => v[j]) (h _ _)
  · rfl

theorem State.issue_evolves (s : State) (i : SlotId) : Evolves s (s.issue i) := by
  unfold State.issue
  dsimp only
  refine (Evolves.foldl _ (State.unaccount_evolves (s.record i).sweeper) (allSlots.filter (· != i)) s).trans ?_
  refine (State.endDraw_evolves _ i .served).trans ?_
  apply State.putRecord_evolves_other <;> simp only [State.endDraw_record]

theorem State.undockRecord_evolves (s : State) (i : SlotId) : Evolves s (s.undockRecord i) := by
  unfold State.undockRecord
  split
  · exact s.issue_evolves i
  · dsimp only
    refine ((s.clearReservation_evolves i).trans (State.leaveReady_evolves _ i)).trans ?_
    apply State.putRecord_evolves_other <;> rfl
  · dsimp only
    refine ((s.clearReservation_evolves i).trans (State.leaveReady_evolves _ i)).trans ?_
    apply State.putRecord_evolves_other <;> rfl
  · apply State.putRecord_evolves_other <;> rfl

theorem State.undockBay_evolves (s : State) (b : BayId) : Evolves s (s.undockBay b) := by
  unfold State.undockBay
  dsimp only
  refine Evolves.trans ?_ (State.requestPlan_evolves _)
  refine Evolves.trans ?_ (State.requestPass_evolves _)
  refine Evolves.trans ?_ (State.notify_evolves _ _ _)
  refine Evolves.trans ?_ (State.dropIncrease_evolves _ _)
  exact (s.lower_evolves b 0 rfl).trans (State.modBay_evolves_other _ b _ rfl rfl rfl rfl rfl rfl rfl)

/-- A taken undock, after the seen counter has advanced (R5, R48, R49). -/
theorem State.undock_evolves (s : State) (b : BayId) : Evolves s.countSeen (s.undock b) := by
  unfold State.undock
  dsimp only
  split
  · exact (State.undockRecord_evolves _ _).trans (State.undockBay_evolves _ b)
  · exact State.undockBay_evolves _ b

/-! ### Report -/

theorem State.recordReport_evolves (s : State) (b : BayId) (l : LastReport) (c : Bool) :
    Evolves s (s.recordReport b l c) := by
  have h := s.modBay_evolves_other b
    (fun x => { x with last := some l, sinceReport := 0, silence := 0, sensorLimit := c }) rfl rfl rfl rfl rfl rfl rfl
  unfold State.recordReport
  dsimp only
  split
  · exact h.trans (State.notify_evolves _ _ _)
  · exact h

theorem State.takeReport_evolves (s : State) (b : BayId) (l : LastReport) (c : Bool) : Evolves s (s.takeReport b l c) :=
  ((((((s.recordReport_evolves b l c).trans (State.returnToNormal_evolves _ b)).trans
    (State.compareCurrent_evolves _ b _)).trans (State.creditCharge_evolves _ b _ _)).trans
    (State.trackBand_evolves _ b _)).trans (State.moveStage_evolves _ b l _)).trans (State.supervise_evolves _ b l)

/-! ### Timers -/

theorem State.endStallHold_evolves (s : State) (b : BayId) : Evolves s (s.endStallHold b) :=
  ((s.modBay_evolves_other b _ rfl rfl rfl rfl rfl rfl rfl).trans (State.removeInhibit_evolves _ b _)).trans
    (State.notify_evolves _ _ _)

theorem State.endEqualise_evolves (s : State) (b : BayId) : Evolves s (s.endEqualise b) := by
  have h : ∀ t : State, Evolves t (t.clearSinceEqualise b) := fun t => by
    unfold State.clearSinceEqualise
    split
    · apply State.putRecord_evolves_other <;> rfl
    · exact .refl t
  unfold State.endEqualise
  dsimp only
  refine Evolves.trans ?_ (State.enterRest_evolves _ b _)
  exact ((s.accessDocked_evolves b).trans (h _)).trans (State.modBay_evolves_other _ b _ rfl rfl rfl rfl rfl rfl rfl)

theorem State.endRest_evolves (s : State) (b : BayId) : Evolves s (s.endRest b) :=
  ((s.accessDocked_evolves b).trans (State.modBay_evolves_other _ b _ rfl rfl rfl rfl rfl rfl rfl)).trans
    (State.enterDone_evolves _ b)

theorem State.faultUnconfirmed_evolves (s : State) (b : BayId) : Evolves s (s.faultUnconfirmed b) := by
  have h : Evolves s (s.changeBay b fun x => { x with inhibits := addFlag x.inhibits Inhibit.fault.bit, grant := 0 }) := by
    apply State.changeBay_evolves
    · exact .trans (.other (y := { s.bay b with inhibits := addFlag (s.bay b).inhibits Inhibit.fault.bit }) rfl rfl rfl rfl
        rfl rfl rfl) (.zeroed _)
    · exact fun _ => rfl
  unfold State.faultUnconfirmed
  dsimp only
  refine Evolves.trans ?_ (State.notify_evolves _ _ _)
  split
  · exact h.trans (State.notify_evolves _ _ _)
  · exact h

theorem State.timeOut_evolves (s : State) (b : BayId) : Evolves s (s.timeOut b) := by
  have h := (s.count_evolves b .confirmTimeout).trans (State.modBay_evolves _ b
    (fun x => { x with reduction := false, confirmTimer := none }) (.resolved _) id)
  unfold State.timeOut
  dsimp only
  refine Evolves.trans ?_ (State.releaseIfResolved_evolves _)
  split
  · exact h
  · exact h.trans (State.faultUnconfirmed_evolves _ b)

/-! ### Allocation -/

theorem State.firstTarget_five (s : State) (pool : Nat) (b : BayId) : s.firstTarget pool b % 5 = 0 := by
  unfold State.firstTarget
  dsimp only
  split
  · rfl
  · cases h : largestStep (fun v => s.powerOf b v ≤ pool) (s.wanted b / 5) with
    | none => rfl
    | some v => exact (largestStep_spec _ _ _ h).1

theorem State.firstFill_five (s : State) (l : List BayId) (pool : Nat) : ∀ t ∈ (s.firstFill pool l).2, t.current % 5 = 0 := by
  induction l generalizing pool with
  | nil => simp [State.firstFill]
  | cons b l ih =>
    intro t h
    simp only [State.firstFill, List.mem_cons] at h
    rcases h with h | h
    · rw [h]
      exact s.firstTarget_five pool b
    · exact ih _ t h

theorem State.secondTarget_five (s : State) (pool : Nat) (t : Target) (h : t.current % 5 = 0) :
    s.secondTarget pool t % 5 = 0 := by
  unfold State.secondTarget
  generalize e : largestStep _ _ = o
  cases o with
  | none => exact h
  | some v => exact (largestStep_spec _ _ _ e).1

theorem State.secondFill_five (s : State) (l : List Target) (pool : Nat) (h : ∀ t ∈ l, t.current % 5 = 0) :
    ∀ t ∈ s.secondFill pool l, t.current % 5 = 0 := by
  induction l generalizing pool with
  | nil => simp [State.secondFill]
  | cons t l ih =>
    intro u g
    simp only [State.secondFill, List.mem_cons] at g
    rcases g with g | g
    · rw [g]
      exact s.secondTarget_five pool t (h t (by simp))
    · exact ih _ (fun v hv => h v (by simp [hv])) u g

/-- Every target of a pass is a multiple of 5 (R114, R115, R116). -/
theorem State.targets_five (s : State) : ∀ t ∈ s.targets, t.current % 5 = 0 := by
  intro t h
  unfold State.targets at h
  rcases List.mem_append.mp h with h | h
  · exact s.secondFill_five _ _ (s.firstFill_five _ _) t h
  · obtain ⟨b, -, rfl⟩ := List.mem_map.mp h
    rfl

/-- What a pass does once its figure is taken and its mark cleared (R100, R122). -/
theorem State.allocate_evolves (s : State) :
    Evolves { s with supply := { s.supply with passFigure := s.budget }, passMark := false } s.allocate :=
  State.handOver_evolves _ _ s.targets_five

end Sys2Proof.Machine
end

