-- ==== Sys2Proof/Laws/Layouts.lean ====
section
/-!
SUPPORT. What the bytes of a whole number spell (R174, R184), one field at a time.
-/

namespace Sys2Proof.Machine

/-- A number in n bytes takes n bytes. -/
@[simp] theorem be_length (n v : Nat) : (be n v).length = n := by
  induction n with
  | zero => rfl
  | succ n ih => simp [be, ih]

/-- Bytes read on from a number a. -/
theorem foldl_be (n v a : Nat) :
    (be n v).foldl (fun n (b : Byte) => n * 256 + b.toNat) a = a * 256 ^ n + v % 256 ^ n := by
  induction n generalizing a with
  | zero => simp [be, Nat.mod_one]
  | succ n ih =>
    have low : v % 256 ^ (n + 1) = v % 256 ^ n + 256 ^ n * (v / 256 ^ n % 256) := by
      rw [Nat.pow_succ, Nat.mod_mul]
    rw [be, List.foldl_cons, ih, BitVec.toNat_ofNat, low]
    ring

/-- A number in n bytes spells itself, modulo 256^n. -/
@[simp] theorem spelled_be (n v : Nat) : spelled (be n v) = v % 256 ^ n := by
  rw [spelled, foldl_be, Nat.zero_mul, Nat.zero_add]

/-- No bytes are no fields. -/
@[simp] theorem spells_nil : spells [] [] = true := rfl

/-- A present field comes off the front of both lists. -/
@[simp] theorem spells_be (n v : Nat) (bytes : List Byte) (fields : List (Nat × Option Nat)) :
    spells (be n v ++ bytes) ((n, some v) :: fields) = spells bytes fields := by
  simp [spells, List.take_left' (be_length n v), List.drop_left' (be_length n v)]

/-- Bytes of all ones, read on from a number a. -/
theorem foldl_absentField (n a : Nat) :
    (absentField n).foldl (fun n (b : Byte) => n * 256 + b.toNat) a = a * 256 ^ n + (256 ^ n - 1) := by
  induction n generalizing a with
  | zero => simp [absentField]
  | succ n ih =>
    have pos : 0 < 256 ^ n := Nat.pow_pos (by decide)
    rw [absentField, List.replicate_succ, List.foldl_cons]
    refine (ih _).trans ?_
    rw [Nat.pow_succ, show (0xFF : Byte).toNat = 255 from rfl]
    have e : a * (256 ^ n * 256) = a * 256 * 256 ^ n := by ring
    rw [e, Nat.add_mul]
    omega

/-- An absent field comes off the front of both lists. -/
@[simp] theorem spells_absentField (n : Nat) (bytes : List Byte) (fields : List (Nat × Option Nat)) :
    spells (absentField n ++ bytes) ((n, none) :: fields) = spells bytes fields := by
  have len : (absentField n).length = n := List.length_replicate
  have pos : 0 < 256 ^ n := Nat.pow_pos (by decide)
  have ones : spelled (absentField n) = 256 ^ n - 1 := by rw [spelled, foldl_absentField, Nat.zero_mul, Nat.zero_add]
  rw [spells, List.take_left' len, List.drop_left' len, len, ones, Option.getD_none, Nat.mod_eq_of_lt (by omega)]
  simp

end Sys2Proof.Machine
end

