-- ==== Sys2Proof/Laws/Planning.lean ====
section
/-!
SUPPORT. The terms of Safety.lean on planning passes and releases, in forms that unfold no further.
-/

namespace Sys2Proof.Machine

/-- Whether a pack makes it for an entry is settled by its one projected time (R147). -/
theorem State.makes_iff (s t : State) (before : List EntryId) (e : EntryId) (i : SlotId) :
    s.makes t before e i ↔ (∀ d ∈ before, (t.entry d).reserved ≠ some i) ∧
      (s.projection e i).any (fun n => n = 0 || decide ((n : Int) ≤ s.departureIn e)) = true := by
  unfold State.makes State.offers
  cases s.projection e i with
  | none => simp
  | some m => simp [and_assoc]

/-- A slot's pack is offered at its one projected time (R147). -/
theorem State.offers_iff (s t : State) (before : List EntryId) (e : EntryId) (i : SlotId) (n : Nat) :
    s.offers t before e i n ↔ (∀ d ∈ before, (t.entry d).reserved ≠ some i) ∧ s.projection e i = some n := Iff.rfl

/-- The rotation key orders any two slots (R147). -/
theorem State.rotatesBefore_total (s : State) (i j : SlotId) : s.rotatesBefore i j ∨ s.rotatesBefore j i := by
  simp only [State.rotatesBefore, Fin.le_def]
  omega

/-- The rotation key puts no two slots level (R147). -/
theorem State.rotatesBefore_antisymm {s : State} {i j : SlotId} (h : s.rotatesBefore i j) (g : s.rotatesBefore j i) : i = j := by
  simp only [State.rotatesBefore, Fin.le_def] at h g
  exact Fin.ext (by omega)

/-- A walk over no increase leaves every bay (R129). -/
@[simp] theorem ReleaseWalk.nil (s t : State) : ReleaseWalk [] s t ↔ ∀ b, t.bay b = s.bay b := Iff.rfl

/-- A walk acts on its first increase, and walks on from there (R129). -/
theorem ReleaseWalk.cons (x : Increase) (rest : List Increase) (s t : State) :
    ReleaseWalk (x :: rest) s t ↔ ∃ y, s.releasesInto x y ∧ ReleaseWalk rest (s.setBay x.bay y) t := Iff.rfl

end Sys2Proof.Machine
end

