-- ==== Sys2Proof/Laws/Ports.lean ====
section
/-!
SUPPORT. Said once, everything a transaction can do (R174 to R177): which of the four port-level outcomes it has, and what each
leaves.
-/

namespace Sys2Proof.Machine

@[simp] theorem State.reply_state (s : State) (r : ResultCode) : (s.reply r).state = s := rfl
@[simp] theorem State.reply_result (s : State) (r : ResultCode) : (s.reply r).result = r := rfl
@[simp] theorem State.reply_body (s : State) (r : ResultCode) : (s.reply r).body = [] := rfl
@[simp] theorem State.answer_state (s : State) (b : List Byte) : (s.answer b).state = s := rfl
@[simp] theorem State.answer_result (s : State) (b : List Byte) : (s.answer b).result = .ok := rfl
@[simp] theorem State.answer_body (s : State) (b : List Byte) : (s.answer b).body = b := rfl

/-- What a port reads as once it was written. -/
@[simp] theorem State.setPort_port_self (s : State) (p : PortId) (x : Port) : (s.setPort p x).port p = x := by
  rw [State.setPort_port, if_pos rfl]

/-- The later of two writes of one port stands. -/
@[simp] theorem State.setPort_setPort (s : State) (p : PortId) (x y : Port) :
    (s.setPort p x).setPort p y = s.setPort p y := by
  simp only [State.setPort]
  congr 1
  simp

/-- A transaction's end, said by what it does to the port. -/
theorem State.fixResult_eq (s : State) (p : PortId) (after : List Byte) (r : ResultCode) :
    s.fixResult p r ((s.port p).lastResult.byte :: after) = s.setPort p ((s.port p).ended r after) := rfl

/-- A refusal at the command byte (R177). -/
theorem State.refuseCode_eq (s : State) (p : PortId) (r : ResultCode) :
    s.refuseCode p r = s.setPort p ((s.port p).ended r []) := rfl

/-- What acceptance says (R177, checks 1, 3 and 4). -/
theorem State.accepts_iff (s : State) (p : PortId) (row : CommandRow) (params : List Byte) :
    s.accepts p row params = true ↔
      s.phase = .running ∧ (s.port p).role.mayIssue row.cls = true ∧ row.parameters ≤ params.length := by
  simp [State.accepts, and_assoc]

/-- A command taken up: its own checks and effects come next. -/
theorem State.transact_accepted (s : State) (p : PortId) (row : CommandRow) (params : List Byte) (act : State → Reply)
    (h : s.accepts p row params = true) :
    s.transact p row params act =
      (act s).state.fixResult p (act s).result (shiftedOut (s.port p).lastResult row params (act s)) := by
  obtain ⟨a, b, c⟩ := (s.accepts_iff p row params).mp h
  unfold State.transact
  rw [if_neg (by simp [a]), if_neg (by simp [b]), if_neg (by omega)]

/-- The transaction is refused while the part is not running. -/
theorem State.transact_starting (s : State) (p : PortId) (row : CommandRow) (params : List Byte) (act : State → Reply)
    (h : s.phase ≠ .running) : s.transact p row params act = s.setPort p ((s.port p).ended .starting []) := by
  unfold State.transact
  rw [if_pos (by simp [h]), State.refuseCode_eq]

/-- The transaction is refused to a role that may not issue it. -/
theorem State.transact_role (s : State) (p : PortId) (row : CommandRow) (params : List Byte) (act : State → Reply)
    (a : s.phase = .running) (h : (s.port p).role.mayIssue row.cls = false) :
    s.transact p row params act = s.setPort p ((s.port p).ended .role []) := by
  unfold State.transact
  rw [if_neg (by simp [a]), if_pos (by simp [h]), State.refuseCode_eq]

/-- The transaction is cut short. -/
theorem State.transact_short (s : State) (p : PortId) (row : CommandRow) (params : List Byte) (act : State → Reply)
    (a : s.phase = .running) (b : (s.port p).role.mayIssue row.cls = true) (h : params.length < row.parameters) :
    s.transact p row params act = s.setPort p ((s.port p).wrote params .short) := by
  unfold State.transact
  rw [if_neg (by simp [a]), if_neg (by simp [b]), if_pos h]
  rfl

/-- Everything a transaction can do. -/
theorem State.transact_cases (s : State) (p : PortId) (row : CommandRow) (params : List Byte) (act : State → Reply) :
    (s.accepts p row params = true ∧ s.transact p row params act =
      (act s).state.fixResult p (act s).result (shiftedOut (s.port p).lastResult row params (act s))) ∨
    ∃ r after, s.transact p row params act = s.setPort p ((s.port p).ended r after) := by
  by_cases a : s.phase = .running
  · cases b : (s.port p).role.mayIssue row.cls
    · exact .inr ⟨_, _, s.transact_role p row params act a b⟩
    · by_cases c : row.parameters ≤ params.length
      · have h := (s.accepts_iff p row params).mpr ⟨a, b, c⟩
        exact .inl ⟨h, s.transact_accepted p row params act h⟩
      · exact .inr ⟨_, _, s.transact_short p row params act a b (by omega)⟩
  · exact .inr ⟨_, _, s.transact_starting p row params act a⟩

/-- The bytes of a command taken at select rise. -/
theorem shiftedOut_write (last : ResultCode) (row : CommandRow) (params : List Byte) (r : Reply) (h : row.take = .selectRise) :
    shiftedOut last row params r = last.byte :: List.replicate params.length 0xFF := by
  unfold shiftedOut
  rw [h]

/-- The bytes of a command taken before select rise. -/
theorem shiftedOut_read (last : ResultCode) (row : CommandRow) (params : List Byte) (r : Reply) (h : row.take ≠ .selectRise) :
    shiftedOut last row params r =
      last.byte :: (List.replicate row.parameters 0xFF ++ 0xA5 :: r.result.byte :: r.body) := by
  unfold shiftedOut
  split
  · contradiction
  · rfl

/-- A write-type command whose effect keeps its port's last result. -/
theorem State.transact_wrote (s : State) (p : PortId) (row : CommandRow) (params : List Byte) (act : State → Reply)
    (h : s.accepts p row params = true) (w : row.take = .selectRise)
    (k : ((act s).state.port p).lastResult = (s.port p).lastResult) :
    s.transact p row params act =
      (act s).state.setPort p (((act s).state.port p).wrote params (act s).result) := by
  rw [s.transact_accepted p row params act h, shiftedOut_write _ _ _ _ w, ← k]
  rfl

/-- A read-type command whose effect keeps its port's last result. -/
theorem State.transact_answered (s : State) (p : PortId) (row : CommandRow) (params : List Byte) (act : State → Reply)
    (h : s.accepts p row params = true) (w : row.take ≠ .selectRise)
    (k : ((act s).state.port p).lastResult = (s.port p).lastResult) :
    s.transact p row params act =
      (act s).state.setPort p (((act s).state.port p).answered row.parameters (act s).result (act s).body) := by
  rw [s.transact_accepted p row params act h, shiftedOut_read _ _ _ _ w, ← k]
  rfl

/-- The ports after a write-type command whose effect was f at every port. -/
theorem State.wrote_port (s t : State) (p q : PortId) (f : Port → Port) (params : List Byte) (r : ResultCode)
    (h : ∀ q, t.port q = f (s.port q)) :
    (t.setPort p ((t.port p).wrote params r)).port q = atPorts f p (·.wrote params r) q (s.port q) := by
  rw [State.setPort_port]
  unfold atPorts
  split
  · rename_i e
    rw [e, h]
  · exact h q

end Sys2Proof.Machine
end

