-- ==== Sys2Proof/Tests/Slice0.lean ====
section
/-!
SUPPORT. Tests of single steps, expected values from the worked examples and layouts of spec/, and, for every obligation with
hypotheses, a concrete state and operands that meet them.
-/

namespace Sys2Proof.Tests

open Sys2Proof.Machine

set_option Elab.async false

/-! ### States -/

/-- Profile 1 of spec/06_allocation.md 6.8, with the rest of spec/03_bay_operation.md's flooded pack. -/
def flooded : Profile :=
  { valid := true, family := 0, nominalVoltage := 2400, rated := 6250, maxCurrent := 1250, minCurrent := 100,
    finishCurrent := 60, absorbPoint := 80, acceptance := 88, efficiency := 85, restMinutes := 120, equaliseInterval := 5,
    equaliseCurrent := 250, equaliseMinutes := 180, returnEstimate := 25, breakpoints := #v[-40, -20, 0, 45, 60],
    factors := #v[100, 100, 100, 100, 100, 0] }

/-- Profile 2 of spec/06_allocation.md 6.8. -/
def lithium : Profile :=
  { valid := true, family := 2, nominalVoltage := 2560, rated := 3000, maxCurrent := 1500, minCurrent := 50,
    finishCurrent := 60, absorbPoint := 90, acceptance := 99, efficiency := 92, restMinutes := 0, equaliseInterval := 0,
    equaliseCurrent := 0, equaliseMinutes := 0, returnEstimate := 60, breakpoints := #v[0, 10, 15, 45, 55],
    factors := #v[0, 50, 80, 100, 60, 0] }

/-- A room without packs at a budget of 10 500 W, its clock set. -/
def room : State :=
  { State.reset with
    phase := .running, profiles := (State.reset.profiles.set 1 flooded).set 2 lithium, clock := some ⟨2280, 30⟩
    supply := { resetSupply with
      hold := .running, limit := 40000, reserve := 2000, readings := [27500], condition := .fresh, age := some 4 } }

/-- A lithium pack, STORED. -/
def pack : PackRecord := { freeRecord with tag := 7, profile := 2, lifecycle := .stored, capacity := 3000, estimate := 900 }

/-- A bay in BULK with a lithium pack in band 1, its grant 750. -/
def bulk : Bay :=
  { emptyBay with
    stage := .bulk, tag := 7, profile := 2, band := 1, grant := 750, allowance := 750, power := 2210
    last := some ⟨750, 2710, 4, 1000, false, false⟩ }

/-- The room with slot 0's pack in bay 6, local bay 2 of cluster 1. -/
def docked (x : Bay) (r : PackRecord) : State :=
  (room.setBay 6 { x with slot := some 0 }).storeRecord 0 { r with bay := some 6 }

/-- The room with a DOCKED pack in BULK in bay 6. -/
def charging : State := docked bulk { pack with lifecycle := .docked }

/-- The room with a CALLED pack in bay 6, drawn by sweeper 5. -/
def called : State :=
  ((docked { bulk with stage := .done, grant := 0, inhibits := BitVec.twoPow 9 Inhibit.called.bit }
    { pack with lifecycle := .called, sweeper := some 5 }).appendRecall 1 ⟨6, 0, 7, 5, 2280⟩).setDraw 5 (some ⟨0, none⟩)

/-- The state an event leaves. -/
def after (c : Instr) (s : State) : State :=
  match exec c s with
  | .next t => t
  | _ => s

theorem room_sound : room.sound := by unfold State.sound; decide +kernel
theorem charging_sound : charging.sound := by unfold State.sound; decide +kernel
theorem called_sound : called.sound := by unfold State.sound; decide +kernel

/-! ### Well-formedness -/

/-- UNKNOWN_CODE with the code of IDENTIFY is no command. -/
theorem test_unknownCode_of_table_refused :
    (Instr.unknownCode 0 0x01).wellFormed = false ∧
      exec (.unknownCode 0 0x01) room = .refused (.illFormed "UNKNOWN_CODE") := ⟨by decide +kernel, rfl⟩

/-- R177: a code outside the table leaves UNKNOWN. -/
theorem test_unknownCode : ((after (.unknownCode 2 0x06) room).port 2).lastResult = .unknown := by decide +kernel

/-! ### Ports -/

/-- R174, 11.3: the first byte of a transaction is its command's code; 0x5B is in no row, and no whole byte makes a short one. -/
theorem test_commandOfBytes :
    commandOfBytes 0 [0x20, 3, 0, 0, 0, 7, 2, 255, 20] = .dock 0 [3, 0, 0, 0, 7, 2, 255, 20] ∧
      commandOfBytes 0 [0x21, 3, 0, 0, 0, 7] = .undock 0 [3, 0, 0, 0, 7] ∧ commandOfBytes 5 [0x02] = .readNotices 5 ∧
      commandOfBytes 4 [0x41] = .tableWrite 4 ∧ commandOfBytes 4 [0x5A, 1] = .softReset 4 ∧
      commandOfBytes 4 [0x5B] = .unknownCode 4 0x5B ∧ commandOfBytes 4 [] = .shortTransaction 4 := by decide +kernel

/-- Every row of the command table names a command, in the table's order (11.3). -/
theorem test_commandSpellings_rows : commandSpellings.map (·.row) = commandTable := by decide +kernel

/-- R177: DOCK from a depot port leaves ROLE, and while scanning STARTING. -/
theorem test_dock_role : ((after (.dock 4 [0, 0, 0, 0, 7, 2, 255, 20]) room).port 4).lastResult = .role := by decide +kernel
theorem test_dock_starting :
    ((after (.dock 0 [0, 0, 0, 0, 7, 2, 255, 20]) State.reset).port 0).lastResult = .starting := by decide +kernel

/-- R182: IDENTIFY at P4, a depot port with strap 4, during the scan. -/
theorem test_identify :
    ((after (.identify 4) State.reset).port 4).out = [0x10, 0xA5, 0x00, 0x47, 0x16, 0xD2, 0x01, 4, 4, 4, 2] := by
  decide +kernel

/-- R171: ACK_NOTICES of SUPPLY (bit 8) leaves CLOCK pending at the depot port. -/
theorem test_ackNotices :
    ((after (.ackNotices 4 [0x01, 0x00]) room).port 4).raised = BitVec.twoPow 12 NoticeKind.clock.bit := by decide +kernel

/-- R172: the summary of bay 6 reads as local bay 2 at P1, and is emptied. -/
theorem test_readBaySummary :
    let s := room.notify .bay (.bay 6)
    ((after (.readBaySummary 1) s).port 1).out = [0x10, 0xA5, 0x00, 0, 4] ∧
      ((after (.readBaySummary 1) s).port 1).summary = 0 ∧ (s.port 0).summary = 0 := by decide +kernel

/-- R176: two ports strapped to cluster 2 leave the higher OFF, in conflict. -/
theorem test_strap_conflict :
    let s := after (.powerOn #v[2, 2, 5, 6, 4, 7]) State.reset
    (s.port 0).role = .cluster 2 ∧ (s.port 1).role = .off ∧ (s.port 1).conflict = true ∧ (s.port 2).role = .observer ∧
      (s.port 3).role = .off ∧ (s.port 3).conflict = false := by decide +kernel

/-! ### Docking and undocking -/

/-- spec/03_bay_operation.md, 'a flooded pack from dock to READY': the dock of the ISSUED pack, with slot 0 and bay 6 for slot 21
and bay 9. -/
theorem test_dock_issued :
    let r : PackRecord := { pack with
      profile := 1, lifecycle := .issued, sweeper := some 14, capacity := 6250, estimate := 3100, cycles := 212
      sinceEqualise := 4 }
    let t := after (.dock 1 [2, 0, 0, 0, 7, 1, 30, 6]) { room.storeRecord 0 r with seenCounter := 7340 }
    t.record 0 = { r with
      lifecycle := .docked, bay := some 6, sweeper := none, cycles := 213, estimate := 1875, residue := 0, seen := 7341 } ∧
      (t.bay 6).stage = .bulk ∧ (t.bay 6).session = 0 ∧ t.passMark = true ∧ t.planMark = true := by decide +kernel

/-- R10, R11, spec/01_pack_roster.md 1.6: with no FREE slot the STORED record with the smallest stamp is evicted. -/
theorem test_dock_evicts :
    let full : State := { room with
      seenCounter := 5000
      records := ((Vector.replicate 64 { pack with tag := 99, lifecycle := .issued }).set 12
        { pack with tag := 12, seen := 4410 }).set 40 { pack with tag := 40, seen := 3977 } }
    let t := after (.dock 1 [1, 0x00, 0xA1, 0x3C, 0x07, 2, 255, 20]) full
    (t.record 40).tag = 0x00A13C07 ∧ (t.record 40).bay = some 5 ∧ (t.record 40).seen = 5001 ∧
      (t.record 12).lifecycle = .stored ∧ t.seenCounter = 5001 ∧ hasFlag (t.port 5).marks 5 = true := by decide +kernel

/-- R48: UNDOCK stores a DOCKED pack and reduces the bay's grant with its allowance held. -/
theorem test_undock :
    let t := after (.undock 1 [2, 0, 0, 0, 7]) charging
    (t.record 0).lifecycle = .stored ∧ (t.record 0).bay = none ∧ (t.bay 6).stage = .empty ∧ (t.bay 6).grant = 0 ∧
      (t.bay 6).allowance = 750 ∧ (t.bay 6).confirmTimer = some 3 := by decide +kernel

/-! ### Reports -/

/-- spec/03_bay_operation.md, 'a flooded pack from dock to READY': the terminating report. -/
theorem test_report_terminates :
    let t := after (.report 1 [2, 0, 55, 0x09, 0xC4, 20, 0x07, 0xD0, 1])
      (docked { bulk with stage := .absorb, profile := 1, band := 3, session := 4244 }
        { pack with profile := 1, lifecycle := .docked, capacity := 6250, estimate := 6119, residue := 3550000, sinceEqualise := 4 })
    (t.record 0).capacity = 6218 ∧ (t.record 0).estimate = 6218 ∧ (t.record 0).residue = 0 ∧
      (t.record 0).sinceEqualise = 5 ∧ (t.bay 6).stage = .equalise ∧ (t.bay 6).equaliseEnd = some 10800 ∧
      (t.bay 6).session = 4245 := by decide +kernel

/-- spec/03_bay_operation.md, 'a pack warming and cooling': the report of 12 °C at debounce 2 enters band 2, and 9 °C is held by the
cooling margin. -/
theorem test_report_band :
    let t := after (.report 1 [2, 0x02, 0xEE, 0x0A, 0x96, 12, 0, 100, 0]) (docked { bulk with debounce := 2 } { pack with lifecycle := .docked })
    (t.bay 6).band = 2 ∧ (t.bay 6).debounce = 0 ∧ lithium.candidateBand 2 9 = 2 ∧ lithium.candidateBand 2 8 = 1 := by
  decide +kernel

/-- spec/04_bay_supervision_and_counters.md, 'a stall, its hold and its clearing': the fourth trigger declares, 300 breaks the
streak. -/
theorem test_report_stall :
    let s := docked { bulk with grant := 1135, allowance := 1135, stallStreak := 3 } { pack with lifecycle := .docked }
    let t := after (.report 1 [2, 0, 160, 0x0A, 0x96, 4, 0, 100, 0]) s
    (t.bay 6).stall = .holding ∧ (t.bay 6).grant = 0 ∧ (t.bay 6).allowance = 1135 ∧ (t.bay 6).declarations = 1 ∧
      (t.bay 6).holdEnd = some 60 ∧ (t.bay 6).carries .stallHold = true ∧
      ((after (.report 1 [2, 1, 44, 0x0A, 0x96, 4, 0, 100, 0]) s).bay 6).stallStreak = 0 := by decide +kernel

/-- R124: a GRANT_ACK of another value than the grant is STALE. -/
theorem test_grantAck_stale : ((after (.grantAck 1 [2, 0, 1]) charging).port 1).lastResult = .stale := by decide +kernel

/-! ### Supply -/

/-- spec/05_site_supply.md 5.7: the ninth reading drops the oldest, and the budget follows. -/
theorem test_otherLoad :
    let s : State := { room with supply := { room.supply with
      readings := [25200, 26800, 31400, 28000, 26900, 27500, 24300, 29900], passFigure := 8100 } }
    let t := after (.otherLoad 4 [0x00, 0x65, 0x90]) s
    t.supply.readings = [26800, 31400, 28000, 26900, 27500, 24300, 29900, 26000] ∧ t.budget = 12000 ∧
      t.passMark = false := by decide +kernel

/-- spec/05_site_supply.md 5.7: a STALE meter counts its greatest reading, and the fall requests a pass. -/
theorem test_meterStale :
    let s : State := { room with supply := { room.supply with
      readings := [25200, 26800, 31400, 28000, 26900, 27500], age := some 11, passFigure := 10500 } }
    s.budget = 10500 ∧ (after .meterStale s).budget = 6600 ∧ (after .meterStale s).passMark = true := by decide +kernel

/-- spec/05_site_supply.md 5.7: at 12 seconds of a ramp of 30 the budget figure is 4 800. -/
theorem test_ramp_second :
    let s : State := { room with supply := { room.supply with
      readings := [26000], hold := .ramping, elapsed := some 11 } }
    (after (.timebaseSecond []) s).budget = 4800 := by decide +kernel

/-- R95: a zone whose first bay lies above its last wraps past bay 15. -/
theorem test_zone_wraps :
    let x : Supply := { resetSupply with zoneFirst := 14, zoneLast := 1 }
    x.insideZone 15 = true ∧ x.insideZone 0 = true ∧ x.insideZone 2 = false ∧ x.insideZone 13 = false := by decide +kernel

/-- R133: the week wraps after minute 10079, second 59. -/
theorem test_clock_wraps :
    (after (.timebaseSecond []) { room with clock := some ⟨10079, 59⟩ }).clock = some ⟨0, 0⟩ := by decide +kernel

/-! ### Allocation -/

/-- The room of spec/06_allocation.md 6.8. -/
def normalLoad : State :=
  let entry : Entry := { blankEntry with valid := true, sweeper := 1, minute := 120, profile := 2, required := 100, status := .planned }
  let base : State := { room with
    clock := some ⟨0, 0⟩
    entries := (room.entries.set 0 { entry with reserved := some 0 }).set 1 { entry with minute := 330, profile := 1, reserved := some 1 } }
  let s9 := base.setBay 9 { emptyBay with
    stage := .bulk, profile := 1, allowance := 400, power := 1224, inhibits := BitVec.twoPow 9 Inhibit.fault.bit }
  let s6 := (s9.setBay 6 { bulk with grant := 0, allowance := 0, power := 0, slot := some 0 }).storeRecord 0
    { pack with lifecycle := .docked, bay := some 6, reservation := some 0 }
  let s2 := (s6.setBay 2 { emptyBay with
    stage := .bulk, profile := 1, band := 3, slot := some 1, last := some ⟨0, 2580, 20, 1000, false, false⟩ }).storeRecord 1
    { pack with tag := 8, profile := 1, lifecycle := .docked, bay := some 2, capacity := 6250, estimate := 2500, reservation := some 1 }
  (s2.setBay 11 { emptyBay with
    stage := .bulk, profile := 2, band := 3, slot := some 2, last := some ⟨0, 2650, 20, 1000, false, false⟩ }).storeRecord 2
    { pack with tag := 9, lifecycle := .docked, bay := some 11, estimate := 1800 }

/-- spec/06_allocation.md 6.8: the fixed load, the pool and the order. -/
theorem test_pass_order :
    normalLoad.budget = 10500 ∧ normalLoad.pool = 9276 ∧ normalLoad.allocationOrder = [6, 2, 11] ∧
      normalLoad.urgency 6 = some (1061, some (-2982)) ∧ normalLoad.urgency 2 = some (775, some 7527) := by decide +kernel

/-- spec/06_allocation.md 6.8: the targets of the three bays. -/
theorem test_pass_targets :
    normalLoad.filledTargets = [⟨6, 750⟩, ⟨2, 1250⟩, ⟨11, 1135⟩] := by decide +kernel

/-- R107, R108, R109: the caps of a lithium pack in band 3, ABSORB from 2 700 units on, calculated by hand: full current at the absorb
point, half of it half way, the finish current from the capacity on; in PROBATION the min current; and 0 in a band whose derating
cap of 45 lies below the min current. -/
theorem test_caps :
    let s (x : Bay) (estimate : Nat) := docked { x with band := 3 } { pack with lifecycle := .docked, estimate := estimate }
    let cold := (s bulk 900).setProfile 2 { lithium with factors := #v[0, 50, 80, 3, 60, 0] }
    (s bulk 2850).capOf 6 = 1500 ∧ (s { bulk with stage := .absorb } 2700).capOf 6 = 1500 ∧
      (s { bulk with stage := .absorb } 2850).capOf 6 = 750 ∧ (s { bulk with stage := .absorb } 3000).capOf 6 = 60 ∧
      (s { bulk with stall := .probation, probation := some 0 } 900).capOf 6 = 50 ∧ cold.capOf 6 = 0 := by decide +kernel

/-- R109: a flooded pack in EQUALISE is capped by its equalise current of 250. -/
theorem test_cap_equalise :
    (docked { bulk with stage := .equalise, profile := 1, band := 3 }
      { pack with profile := 1, lifecycle := .docked, capacity := 6250, estimate := 6250 }).capOf 6 = 250 := by decide +kernel

/-- R111, R112: no slack with the departure's minute reached, or with a cap of 0; no need once the pack has its charge. -/
theorem test_urgency_rows :
    let at' (m second : Nat) : State := { normalLoad with clock := some ⟨m, second⟩ }
    let cold := normalLoad.setProfile 2 { lithium with factors := #v[0, 3, 80, 100, 60, 0] }
    (at' 120 5).urgency 6 = some (750, none) ∧ (at' 119 59).urgency 6 = some (7636364, some (1 - 10182)) ∧
      cold.urgency 6 = some (1061, none) ∧ (at' 136 0).urgency 6 = none ∧
      (normalLoad.storeRecord 0 { normalLoad.record 0 with estimate := 3000 }).urgency 6 = some (0, some 7200) ∧
      ({ normalLoad with clock := none } : State).urgency 6 = none := by decide +kernel

/-- R142: the grace of 15 minutes and the horizon of 720, at their edges. -/
theorem test_windows :
    let at' (m : Nat) : State := { normalLoad with clock := some ⟨m, 0⟩ }
    (at' 120).windowOf 0 = some .due ∧ (at' 135).windowOf 0 = some .due ∧ (at' 136).windowOf 0 = some .outside ∧
      (at' 9480).windowOf 0 = some .active ∧ (at' 9479).windowOf 0 = some .outside ∧
      (at' 120).departureIn 0 = 0 ∧ (at' 9480).departureIn 0 = 43200 ∧ normalLoad.windowOf 2 = none := by decide +kernel

/-- R126: a timeout leaves the allowance held above the grant, and faults the bay. -/
theorem test_confirm_timeout :
    let t := after (.confirmTimerExpiry 6)
      (docked { bulk with grant := 500, reduction := true, confirmTimer := some 0 } { pack with lifecycle := .docked })
    (t.bay 6).grant = 0 ∧ (t.bay 6).allowance = 750 ∧ (t.bay 6).reduction = false ∧ (t.bay 6).confirmTimer = none ∧
      (t.bay 6).carries .fault = true := by decide +kernel

/-! ### Planning -/

/-- The Tuesday morning of spec/08_departures_and_planning.md 8.6, its minute change awaited. -/
def morning : State :=
  let entry : Entry := { blankEntry with valid := true, weekly := true, sweeper := 5, minute := 1920, profile := 2, required := 90 }
  let rec park (s : State) : List (SlotId × BayId × Fin 6 × Lifecycle × Nat × Nat × Nat × Option EntryId) → State
    | [] => s
    | (i, b, k, l, cycles, capacity, estimate, e) :: rest =>
      park ((s.setBay b { emptyBay with
          stage := if l = .ready then .done else .bulk, profile := 2, band := k, slot := some i, tag := BitVec.ofNat 32 (i.val + 1) }).storeRecord i
        { pack with
          tag := BitVec.ofNat 32 (i.val + 1), lifecycle := l, bay := some b, cycles := cycles, capacity := capacity, estimate := estimate
          reservation := e }) rest
  park { room with
      clock := some ⟨1800, 0⟩, minuteDue := some 1800, planMark := true
      entries := ((((room.entries.set 0 { entry with status := .planned, reserved := some 31 }).set 1
        { entry with weekly := false, sweeper := 9, minute := 1830, required := 100 }).set 2
        { entry with sweeper := 12, minute := 1790, required := 80, status := .planned, reserved := some 25 }).set 3
        { entry with sweeper := 20, minute := 2700, status := .served, renewal := true }).set 4
        { entry with sweeper := 33, minute := 2100, profile := 1, required := 100 } }
    [(25, 3, 3, .ready, 140, 3000, 3000, some 2), (31, 6, 1, .docked, 90, 3000, 1200, some 0),
      (40, 11, 3, .docked, 120, 3000, 2100, none), (44, 14, 0, .docked, 60, 3000, 600, none),
      (47, 15, 3, .ready, 200, 3000, 3000, none), (52, 7, 3, .ready, 75, 2950, 2950, none)]

/-- spec/08_departures_and_planning.md 8.6: the pass of the minute change to 1800. -/
theorem test_worked_plan :
    let t := after .clockMinuteChange morning
    (List.map (fun e => ((t.entry e).status, (t.entry e).reserved)) [0, 1, 2, 3, 4] =
      [(.planned, some 40), (.planned, some 52), (.planned, some 25), (.served, none), (.short, none)]) ∧
      t.passMark = true ∧ (t.record 31).reservation = none ∧ (t.record 40).reservation = some 0 := by decide +kernel

/-- R151: while a minute change awaits its pass, a request has no pass of its own, and the minute change's pass clears its mark. -/
theorem test_one_pass_answers_both :
    let s : State := { room with planMark := true, minuteDue := some 2281 }
    after .planningPass s = s ∧ (after .clockMinuteChange s).planMark = false ∧ (after .clockMinuteChange s).minuteDue = none ∧
      (after .planningPass { s with minuteDue := none }).planMark = false := by decide +kernel

/-- spec/08_departures_and_planning.md 8.6: the projected times for entry 1. -/
theorem test_worked_projection :
    List.map (morning.projection 1) [31, 40, 44, 47, 52] = [some 8728, some 2182, some 14337, some 0, some 0] := by decide +kernel

/-! ### Draws, the roster and the resets -/

/-- R164: a cancelled draw returns a pack in DONE to READY. -/
theorem test_cancelDraw :
    let t := after (.cancelDraw 4 [5]) called
    (t.record 0).lifecycle = .ready ∧ (t.record 0).readySince = some 2280 ∧ t.recall 1 = [] ∧ t.drawOf 5 = none ∧
      (t.bay 6).carries .called = false := by decide +kernel

/-- spec/09_rotation_and_draw.md 9.7: with no READY pack the fullest DOCKED one is drawn, OK_PARTIAL. -/
theorem test_draw_partial :
    let t := after (.draw 4 [20, 2]) (docked bulk { pack with lifecycle := .docked, estimate := 2100 })
    (t.port 4).lastResult = .okPartial ∧ (t.record 0).lifecycle = .called ∧ (t.bay 6).grant = 0 ∧
      t.recall 1 = [⟨6, 0, 7, 20, 2280⟩] ∧ (t.port 4).out = [0x10, 0xFF, 0xFF, 0xA5, 0x01, 0, 0, 0, 0, 7, 6, 70] := by
  decide +kernel

/-- R18: two bad bits leave a QUARANTINED record with reason DAMAGED and no tag. -/
theorem test_scrub_damaged :
    let t := after .scrubVisit { charging with checks := charging.checks.set 0 .twoBits, scrubDue := true }
    (t.record 0).lifecycle = .quarantined ∧ (t.record 0).reason = some .damaged ∧ (t.record 0).tag = 0 ∧
      (t.record 0).bay = some 6 ∧ (t.bay 6).carries .quarantine = true ∧ t.scrub = 1 := by decide +kernel

/-- R63: a soft reset empties a bay with its allowance held, and stores its pack. -/
theorem test_softReset :
    let t := after (.softReset 4) charging
    (t.bay 6).stage = .empty ∧ (t.bay 6).grant = 0 ∧ (t.bay 6).allowance = 750 ∧ (t.bay 6).reduction = true ∧
      (t.record 0).lifecycle = .stored ∧ t.supply.hold = .ramping := by decide +kernel

/-- R19: one slot per second, from slot 63 back to 0: the second visit of a second is none. -/
theorem test_scrub_once :
    let s := after (.timebaseSecond []) { room with scrub := 63 }
    (after .scrubVisit s).scrub = 0 ∧ (after .scrubVisit (after .scrubVisit s)).scrub = 0 ∧
      (after .scrubVisit room).scrub = room.scrub := by decide +kernel

/-- R24, R76: reports under an invalid profile entry leave the probation count, its stored min current 0 notwithstanding. -/
theorem test_probation_invalid :
    let s := (docked { bulk with stall := .probation, probation := some 3, grant := 0, profile := 7,
                                 inhibits := BitVec.twoPow 9 Inhibit.profile.bit } { pack with profile := 7 })
    (s.judgeProbation 6 0).bay 6 = s.bay 6 ∧ s.profile 7 = blankProfile := by decide +kernel

/-- R80: a counter carries its saturated mark from 65535 on. -/
theorem test_counter_saturates :
    (CounterCell.counted ⟨65534, false⟩) = ⟨65535, true⟩ ∧ (CounterCell.counted ⟨65535, true⟩) = ⟨65535, true⟩ := by
  decide +kernel

/-! ### Witnesses: what the hypotheses of each obligation ask, met together -/

/-- Slots 1 to 63 of a roster are held, and slot 0 alone is FREE. -/
def nearlyFull : State :=
  { room with records := (Vector.replicate 64 { pack with tag := 99, lifecycle := .issued }).set 0 freeRecord }

/-- The room with a pack in the store. -/
def stored : State := room.storeRecord 0 pack

theorem stored_sound : stored.sound := by unfold State.sound; decide +kernel

theorem witness_StepTakesFrontCommand :
    ({ room with pending := [.scrubVisit] } : State).pending = .scrubVisit :: [] ∧ room.pending = [] := by decide +kernel

theorem witness_EveryCommandCompletes :
    (Instr.unknownCode 0 0x01).wellFormed = false ∧ (Instr.unknownCode 0 0x06).wellFormed = true ∧
      exec .scrubVisit room = .next (after .scrubVisit room) := ⟨by decide +kernel, by decide +kernel, rfl⟩

theorem witness_PortChecksInOrder :
    (Instr.dock 0 [1]).transaction = some (0, rowDock, [1]) ∧ State.reset.phase ≠ .running ∧ room.phase = .running ∧
      (room.port 4).role.mayIssue rowDock.cls = false ∧ (room.port 0).role.mayIssue rowDock.cls = true ∧
      [(1 : Byte)].length < rowDock.parameters ∧ knownCode 0x00 = false ∧ knownCode 0xFF = false ∧
      knownCode 0x5B = false := by decide +kernel

theorem witness_NoticesReachTheirPorts : NoticeKind.counter ≠ .recall ∧ (NoticeKind.recall = .recall) := by decide +kernel

theorem witness_ReadNoticesChangesNothing : room.accepts 0 rowReadNotices [] = true := by decide +kernel

theorem witness_AckNoticesClearsItsKinds : room.accepts 0 rowAckNotices [0xFF, 0xFF] = true := by decide +kernel

theorem witness_MaskAndSummary :
    room.accepts 0 rowSetNoticeMask [0, 0, 1] = true ∧ room.accepts 5 rowReadBaySummary [] = true := by decide +kernel

theorem witness_ReadsChangeNothing :
    room.accepts 0 rowReadMarks [] = true ∧ room.accepts 0 rowReadCounters [] = true ∧
      room.accepts 4 rowReadClock [] = true ∧ (room.port 3).role = .cluster 3 ∧ room.accepts 3 rowReadGrants [] = true ∧
      room.accepts 0 rowReadBay [3] = true ∧ room.accepts 4 rowReadDeparture [47] = true ∧
      room.accepts 0 rowReadRecall [0] = true := by decide +kernel

/-- R95, R184: a cluster's port is sent its own zone bays as local numbers, a depot's the global ones. -/
theorem test_zone_numbers :
    let s := { room with supply := { room.supply with zoneFirst := 5, zoneLast := 7 } }
    (List.drop 49 (s.supplyBody 1)).take 2 = [1, 3] ∧ (List.drop 49 (s.supplyBody 4)).take 2 = [5, 7] ∧
      s.supply.readings.length ≤ 8 ∧ (s.port 1).role = .cluster 1 ∧ (5 : BayId) = globalBay 1 1 := by decide +kernel

theorem witness_ReadsThatChangeTheirPort :
    room.accepts 0 rowReadSupply [] = true ∧ room.accepts 0 rowReadGroup [7] = true ∧ byteAt [7] 0 = (7 : GroupId).val ∧
      room.accepts 0 rowReadGroup [8] = true ∧ room.sound :=
  ⟨by decide +kernel, by decide +kernel, by decide +kernel, by decide +kernel, room_sound⟩

theorem witness_ReadPackFindsItsRecord :
    charging.accepts 1 rowReadPack [1, 0, 0, 0, 7] = true ∧ u32At [1, 0, 0, 0, 7] 1 = 7 ∧
      (charging.record 0).tag = BitVec.ofNat 32 7 ∧ (charging.record 0).lifecycle ≠ .free ∧
      (∀ j, (charging.record j).lifecycle ≠ .free → (charging.record j).tag = (charging.record 0).tag → j = 0) ∧
      (∀ i, (charging.record i).lifecycle ≠ .free → (charging.record i).tag ≠ BitVec.ofNat 32 8) ∧
      charging.namedBay 1 2 = some 6 ∧ u32At [0, 0, 0, 0, 63] 1 = (63 : SlotId).val ∧ u32At [0, 0, 0, 0, 64] 1 = 64 ∧
      (∀ i, (charging.record i).sweeper ≠ some 63) := by decide +kernel

theorem witness_ReadPackIssued :
    let s := room.storeRecord 0 { pack with lifecycle := .issued, sweeper := some 63 }
    s.accepts 0 rowReadPack [3, 0, 0, 0, 63] = true ∧ u32At [3, 0, 0, 0, 63] 1 = (63 : SweeperId).val ∧
      (s.record 0).lifecycle = .issued ∧ (∀ j, (s.record j).sweeper = some 63 → j = 0) := by decide +kernel

theorem witness_ReadQueueAnswersInOrder :
    room.accepts 0 rowReadQueue [7] = true ∧ byteAt [7] 0 = (7 : ProfileId).val ∧ room.accepts 0 rowReadQueue [8] = true ∧
      room.sound := ⟨by decide +kernel, by decide +kernel, by decide +kernel, room_sound⟩

theorem witness_StrapsFixRoles :
    let straps : Straps := #v[3, 3, 4, 5, 6, 7]
    ((straps[(1 : PortId)]).val < 4 ∧ ∃ q, q < (1 : PortId) ∧ straps[q] = straps[(1 : PortId)]) ∧
      ¬ ((straps[(0 : PortId)]).val < 4 ∧ ∃ q, q < (0 : PortId) ∧ straps[q] = straps[(0 : PortId)]) := by decide +kernel

theorem witness_HardResetValues :
    charging.sound ∧ exec (.powerOn resetStraps) charging = .next (State.poweredOn resetStraps charging.pending) :=
  ⟨charging_sound, rfl⟩

theorem witness_ScanCompleteStartsTheRamp :
    State.reset.phase = .scanAfterPowerOn ∧ State.reset.supply.passFigure = 0 ∧ room.phase = .running := by decide +kernel

/-- A room at the end of a hard reset, its pack in the store. -/
def scanning : State := { stored with phase := .scanAfterHardReset }

/-- The same with a profile entry and a departure entry out of range, a second record of the pack's tag and stamp, and one without a
tag. -/
def restoring : State :=
  ((scanning.storeRecord 1 pack).storeRecord 63 { pack with tag := 0 }).setEntry 47
    { blankEntry with valid := true, sweeper := 64 } |>.setProfile 2 { lithium with minCurrent := 7 }

theorem witness_ScanAfterHardResetRestoresTheLaws :
    scanning.phase = .scanAfterHardReset ∧ scanning.sound ∧
      (∀ i, (scanning.record i).lifecycle ≠ .free → (scanning.record i).reason ≠ some .damaged →
        (scanning.record i).tag ≠ 0 ∧ ∀ j, j ≠ i → (scanning.record j).lifecycle ≠ .free →
          (scanning.record j).tag ≠ (scanning.record i).tag) ∧
      restoring.phase = .scanAfterHardReset ∧ restoring.sound ∧
      ((∀ b, (restoring.bay b).slot = none) ∧ (∀ e, (restoring.entry e).reserved = none) ∧ ∀ c, restoring.recall c = []) ∧
      ((restoring.record 1).tag = (restoring.record 0).tag ∧ (restoring.record 1).seen = (restoring.record 0).seen) ∧
      (restoring.record 63).tag = 0 ∧ (restoring.profile 2).valid = true ∧ (restoring.profile 2).passes = false ∧
      (restoring.entry 47).valid = true ∧ (restoring.entry 47).inRange = false :=
  ⟨rfl, stored_sound, by decide +kernel, rfl, by unfold State.sound; decide +kernel, by decide +kernel, by decide +kernel,
    by decide +kernel, by decide +kernel, by decide +kernel, by decide +kernel, by decide +kernel⟩

/-- R20: of two records of one tag and one stamp the higher slot is rebuilt, and a record without a tag. -/
theorem test_scan_rebuilds :
    let t := after .scanComplete restoring
    (t.record 0).tag = 7 ∧ (t.record 1).reason = some .damaged ∧ (t.record 63).reason = some .damaged ∧
      t.supply.hold = .ramping ∧ t.periodTimer = some 4 ∧ (t.profile 2).valid = false ∧ (t.entry 47).valid = false := by
  decide +kernel

theorem witness_SoftResetValues : charging.accepts 4 rowSoftReset [] = true ∧ charging.sound :=
  ⟨by decide +kernel, charging_sound⟩

/-- The parameter bytes of a DOCK of tag 0x100 at local bay 3, gauge 100. -/
def dockBytes : List Byte := [3, 0, 0, 1, 0, 2, 100, 0xF0]

theorem witness_DockListsANewPack :
    nearlyFull.accepts 1 rowDock dockBytes = true ∧ nearlyFull.sound ∧ nearlyFull.localBay 1 3 = some 7 ∧
      (nearlyFull.bay 7).stage = .empty ∧ dockingOf dockBytes = some ⟨0x100, 2, some 100, -16⟩ ∧
      (∀ j, (nearlyFull.record j).lifecycle ≠ .free → (nearlyFull.record j).tag ≠ 0x100) ∧
      (∀ a, (nearlyFull.bay a).stage ≠ .empty → (nearlyFull.bay a).tag ≠ 0x100) ∧
      (nearlyFull.record 0).lifecycle = .free ∧ ∀ j, j < (0 : SlotId) → (nearlyFull.record j).lifecycle ≠ .free :=
  ⟨by decide +kernel, by unfold State.sound; decide +kernel, by decide +kernel, by decide +kernel, by decide +kernel,
    by decide +kernel, by decide +kernel, by decide +kernel, by decide +kernel⟩

/-- No slot of the roster is FREE; two packs of one stamp stand in the store. -/
def evictable : State := (nearlyFull.storeRecord 0 pack).storeRecord 63 { pack with tag := 8 }

theorem witness_DockEvicts :
    evictable.accepts 1 rowDock dockBytes = true ∧ evictable.sound ∧ (evictable.bay 7).stage = .empty ∧
      (∀ j, (evictable.record j).tag ≠ 0x100) ∧ (∀ j, (evictable.record j).lifecycle ≠ .free) ∧
      (evictable.record 0).lifecycle = .stored ∧
      ∀ j, (evictable.record j).lifecycle = .stored → (evictable.record 0).seen < (evictable.record j).seen ∨
        (evictable.record 0).seen = (evictable.record j).seen ∧ 0 ≤ j :=
  ⟨by decide +kernel, by unfold State.sound; decide +kernel, by decide +kernel, by decide +kernel, by decide +kernel,
    by decide +kernel, by decide +kernel⟩

/-- Every slot of the roster holds an ISSUED pack. -/
def full : State := { room with records := Vector.replicate 64 { pack with tag := 99, lifecycle := .issued } }

theorem witness_DockUnlisted :
    full.accepts 1 rowDock dockBytes = true ∧ full.sound ∧ full.localBay 1 3 = some 7 ∧ (full.bay 7).stage = .empty ∧
      (∀ j, (full.record j).tag ≠ 0x100) ∧
      ∀ j, (full.record j).lifecycle ≠ .free ∧ (full.record j).lifecycle ≠ .stored :=
  ⟨by decide +kernel, by unfold State.sound; decide +kernel, by decide +kernel, by decide +kernel, by decide +kernel,
    by decide +kernel⟩

theorem witness_DockFindsItsPack :
    let bytes : List Byte := [3, 0, 0, 0, 7, 1, 255, 20]
    let quarantined := stored.storeRecord 0 { pack with lifecycle := .quarantined, reason := some .heat }
    stored.accepts 1 rowDock bytes = true ∧ stored.localBay 1 3 = some 7 ∧ (stored.bay 7).stage = .empty ∧
      dockingOf bytes = some ⟨7, 1, none, 20⟩ ∧ (stored.record 0).tag = 7 ∧ (stored.record 0).lifecycle = .stored ∧
      (∀ j, j ≠ 0 → (stored.record j).lifecycle ≠ .free → (stored.record j).tag ≠ 7) ∧
      (∀ a, (stored.bay a).stage ≠ .empty → (stored.bay a).tag ≠ 7) ∧
      (quarantined.record 0).lifecycle = .quarantined ∧ (quarantined.record 0).bay = none ∧
      (quarantined.record 0).tag = 7 := by decide +kernel

/-- A damaged pack in bay 6, whose copy holds the tag 7. -/
def damaged : State :=
  docked { bulk with grant := 0, inhibits := BitVec.twoPow 9 Inhibit.quarantine.bit }
    { pack with tag := 0, lifecycle := .quarantined, reason := some .damaged }

/-- Bay 6 holds a pack of tag 7 without a record. -/
def unlisted : State := room.setBay 6 { bulk with grant := 0, inhibits := BitVec.twoPow 9 Inhibit.unlisted.bit }

theorem witness_ClusterCommandRefusals :
    let bytes : List Byte := [3, 0, 0, 0, 7, 2, 255, 20]
    charging.accepts 1 rowDock bytes = true ∧ 4 ≤ byteAt [4] 0 ∧ charging.localBay 1 2 = some 6 ∧
      (charging.bay 6).stage ≠ .empty ∧ charging.localBay 1 3 = some 7 ∧ (charging.bay 7).stage = .empty ∧
      byteAt [3, 0, 0, 0, 7, 8, 101, 20] 5 = 8 ∧ (100 < byteAt [3, 0, 0, 0, 7, 7, 254, 20] 6) ∧
      dockingOf bytes = some ⟨7, 2, none, 20⟩ ∧ (charging.record 0).tag = 7 ∧ (charging.record 0).lifecycle = .docked ∧
      (∀ j, j ≠ 0 → (charging.record j).lifecycle ≠ .free → (charging.record j).tag ≠ 7) ∧
      (unlisted.bay 6).tag = 7 ∧ (unlisted.bay 6).slot = none ∧ (unlisted.bay 6).carries .unlisted = true ∧
      (damaged.bay 6).tag = 7 ∧ (damaged.bay 6).slot = some 0 ∧ (damaged.record 0).lifecycle = .quarantined ∧
      (damaged.record 0).reason = some .damaged ∧ charging.accepts 1 rowUndock [2, 0, 0, 0, 8] = true ∧
      tagAt [2, 0, 0, 0, 8] 1 ≠ (charging.bay 6).tag ∧ tagAt [2, 0, 0, 0, 0] 1 = 0 ∧
      charging.accepts 1 rowReport [4, 0, 0, 0, 0, 0, 0, 0, 0] = true ∧ charging.accepts 1 rowClearFault [255] = true ∧
      charging.accepts 1 rowGrantAck [4, 0, 0] = true ∧ charging.accepts 1 rowUndock [4, 0, 0, 0, 7] = true := by
  decide +kernel

/-- R42, R47: a tag in the copy of a bay with a damaged record is engaged, and undocked by that tag. -/
theorem test_damaged_copy :
    ((after (.dock 1 [3, 0, 0, 0, 7, 2, 255, 20]) damaged).port 1).lastResult = .conflict ∧
      ((after (.undock 1 [2, 0, 0, 0, 7]) damaged).port 1).lastResult = .ok := by decide +kernel

/-- The room with a DOCKED pack in bay 6 that entry 0 reserves for sweeper 5. -/
def reserved : State :=
  (docked bulk { pack with lifecycle := .docked, reservation := some 0, estimate := 2900 }).setEntry 0
    { blankEntry with valid := true, sweeper := 5, minute := 2290, profile := 2, required := 60, status := .planned,
                      reserved := some 0 }

theorem reserved_sound : reserved.sound := by unfold State.sound; decide +kernel

theorem witness_UndockStoresThePack :
    charging.accepts 1 rowUndock [2, 0, 0, 0, 7] = true ∧ charging.sound ∧ charging.localBay 1 2 = some 6 ∧
      (charging.bay 6).stage ≠ .empty ∧ tagAt [2, 0, 0, 0, 7] 1 ≠ 0 ∧ tagAt [2, 0, 0, 0, 7] 1 = (charging.bay 6).tag ∧
      (charging.bay 6).slot = some 0 ∧ (charging.record 0).lifecycle = .docked ∧ (charging.record 0).reservation = none :=
  ⟨by decide +kernel, charging_sound, by decide +kernel, by decide +kernel, by decide +kernel, by decide +kernel,
    by decide +kernel, by decide +kernel, by decide +kernel⟩

theorem witness_UndockReservedOrUnlisted :
    reserved.accepts 1 rowUndock [2, 0, 0, 0, 7] = true ∧ reserved.localBay 1 2 = some 6 ∧
      (reserved.bay 6).slot = some 0 ∧ (reserved.record 0).reservation = some 0 ∧
      unlisted.accepts 1 rowUndock [2, 0, 0, 0, 7] = true ∧ unlisted.localBay 1 2 = some 6 ∧
      (unlisted.bay 6).stage ≠ .empty ∧ (unlisted.bay 6).tag = 7 ∧ (unlisted.bay 6).slot = none ∧
      (damaged.bay 6).tag = 7 ∧ (damaged.record 0).lifecycle = .quarantined := by decide +kernel

/-- Another pack is already ISSUED to sweeper 5. -/
def twice : State := called.storeRecord 63 { pack with tag := 8, lifecycle := .issued, sweeper := some 5 }

theorem witness_UndockIssuesTheCalledPack :
    twice.accepts 1 rowUndock [2, 0, 0, 0, 7] = true ∧ twice.localBay 1 2 = some 6 ∧ (twice.bay 6).stage ≠ .empty ∧
      tagAt [2, 0, 0, 0, 7] 1 = (twice.bay 6).tag ∧ (twice.bay 6).slot = some 0 ∧ (twice.record 0).lifecycle = .called ∧
      (twice.record 0).sweeper = some 5 ∧ (twice.record 63).lifecycle = .issued ∧ (twice.record 63).sweeper = some 5 ∧
      ∀ v, (twice.drawOf v).map (·.slot) = some 0 ↔ v = 5 := by decide +kernel

theorem twice_sound : twice.sound := by unfold State.sound; decide +kernel

theorem witness_ReportForEmptyBay :
    let s := room.setBay 6 { emptyBay with grant := 0, allowance := 400, overdrawStreak := 1, confirmTimer := some 2, reduction := true }
    s.accepts 1 rowReport [2, 0, 10, 0, 0, 0, 0, 0, 0] = true ∧ s.localBay 1 2 = some 6 ∧ (s.bay 6).stage = .empty ∧
      s.pendingList = [] := by decide +kernel

theorem witness_ReportIsRecorded :
    let bytes : List Byte := [2, 0xFF, 0xFF, 0xFF, 0xFF, 4, 0, 0, 3]
    charging.accepts 1 rowReport bytes = true ∧ charging.localBay 1 2 = some 6 ∧ (charging.bay 6).stage ≠ .empty ∧
      (charging.profile (charging.bay 6).profile).candidateBand (charging.bay 6).band (min 85 (max (-40) (s8At bytes 5))) =
        (charging.bay 6).band ∧
      ∀ x ∈ charging.pendingList, (charging.bay x.bay).grant ≤ x.grant := by decide +kernel

theorem witness_CreditConservesCharge :
    let r : PackRecord := { pack with capacity := 59577, estimate := 65534, residue := 3599999 }
    r.residue ≤ 3599999 ∧ r.capacity * 110 / 100 ≤ 65535 := by decide +kernel

theorem witness_BandTakesThreeReports :
    let s (h : Nat) := docked { bulk with debounce := 2, heat := h } { pack with lifecycle := .docked }
    let u := room.setBay 6 { bulk with debounce := 2, heat := 2, inhibits := BitVec.twoPow 9 Inhibit.unlisted.bit }
    let q := docked { bulk with debounce := 2, heat := 3 } { pack with lifecycle := .quarantined, reason := some .heat }
    ((s 1).bay 6).carries .profile = false ∧
      ((s 1).profile ((s 1).bay 6).profile).candidateBand ((s 1).bay 6).band 55 = 5 ∧ ((s 1).bay 6).band ≠ 5 ∧
      2 ≤ ((s 1).bay 6).debounce ∧ ((s 1).profile ((s 1).bay 6).profile).candidateBand ((s 1).bay 6).band 9 = ((s 1).bay 6).band ∧
      2 ≤ ((s 2).bay 6).heat ∧ ((s 2).bay 6).slot = some 0 ∧ ((s 2).record 0).bay = some 6 ∧
      ((s 2).record 0).lifecycle ≠ .quarantined ∧ (u.bay 6).slot = none ∧ 2 ≤ (u.bay 6).heat ∧
      (u.profile (u.bay 6).profile).candidateBand (u.bay 6).band 55 = 5 ∧ (q.record 0).lifecycle = .quarantined ∧
      2 ≤ (q.bay 6).heat := by decide +kernel

/-- R30, R54: a breakpoint belongs to the band above it, and the margin ends at 2 degrees below the lower breakpoint. -/
theorem test_band_edges :
    lithium.bandOf (-1) = 0 ∧ lithium.bandOf 0 = 1 ∧ lithium.bandOf 54 = 4 ∧ lithium.bandOf 55 = 5 ∧
      lithium.candidateBand 1 (-1) = 1 ∧ lithium.candidateBand 1 (-2) = 0 ∧ lithium.candidateBand 5 54 = 5 ∧
      lithium.candidateBand 5 53 = 4 ∧ lithium.candidateBand 0 0 = 1 := by decide +kernel

theorem witness_HeatLimit_sound : (docked { bulk with debounce := 2, heat := 2 } { pack with lifecycle := .docked }).sound := by
  unfold State.sound; decide +kernel

theorem witness_StageMovesAtAReport :
    (charging.bay 6).slot = some 0 ∧ (charging.bay 6).carries .profile = false := by decide +kernel

/-- R68, R70, R130: a SILENT bay's second report above its tolerance, with the charger-fault mark. -/
theorem witness_ReportSteps :
    let s := docked { bulk with report := .silent, overdrawStreak := 1 } { pack with lifecycle := .docked }
    let t := after (.report 1 [2, 0x03, 0x20, 0x0A, 0x96, 4, 0, 100, 2]) s
    s.accepts 1 rowReport [2, 0x03, 0x20, 0x0A, 0x96, 4, 0, 100, 2] = true ∧ (s.bay 6).report ≠ .normal ∧
      (s.bay 6).grant + max 10 (((s.bay 6).grant * 5 + 99) / 100) < 800 ∧ 1 ≤ (s.bay 6).overdrawStreak ∧
      (t.bay 6).report = .normal ∧ (t.bay 6).allowance = 800 ∧ (t.bay 6).overdrawStreak = 0 ∧ (t.bay 6).carries .fault = true ∧
      (t.bay 6).grant = 0 := by decide +kernel

theorem witness_StallsAreDeclaredAndCleared :
    let s := docked { bulk with stallStreak := 3, declarations := 1 } { pack with lifecycle := .docked }
    let u := docked { bulk with stall := .probation, probation := some 3, grant := 50 } { pack with lifecycle := .docked }
    (s.bay 6).eligible = true ∧ (s.profile 2).minCurrent ≤ (s.bay 6).grant ∧ 186 < (s.bay 6).grant / 4 ∧
      4 ≤ (s.bay 6).stallStreak + 1 ∧ (u.bay 6).stall = .probation ∧ (u.profile 2).valid = true ∧ (u.profile 2).minCurrent ≤ (u.bay 6).grant ∧
      (u.bay 6).grant ≤ 25 * 2 ∧ 3 ≤ (u.bay 6).probation.getD 0 := by decide +kernel

theorem witness_GrantAckConfirms :
    charging.accepts 1 rowGrantAck [2, 0x02, 0xEE] = true ∧ charging.localBay 1 2 = some 6 ∧
      u16At [2, 0x02, 0xEE] 1 = (charging.bay 6).grant ∧ charging.pendingList = [] ∧
      u16At [2, 0x02, 0xEF] 1 ≠ (charging.bay 6).grant := by decide +kernel

theorem witness_ClearFaultRemovesFault :
    let s := docked { bulk with grant := 0, inhibits := BitVec.twoPow 9 Inhibit.fault.bit } { pack with lifecycle := .docked }
    s.accepts 1 rowClearFault [2] = true ∧ s.localBay 1 2 = some 6 ∧ (s.bay 6).carries .fault = true ∧
      (s.bay 6).report ≠ .lost ∧ (charging.bay 6).carries .fault = false := by decide +kernel

theorem witness_ClockAndSupplyAreSet :
    room.accepts 4 rowSetClock [0x27, 0x5F, 59] = true ∧ u16At [0x27, 0x5F, 59] 0 ≤ 10079 ∧ byteAt [0x27, 0x5F, 59] 2 ≤ 59 ∧
      10079 < u16At [0x27, 0x60, 59] 0 ∧ room.accepts 4 rowSetSupply [0xFF, 0xFF, 0xFF, 0xFF, 0xFF, 1] = true ∧
      byteAt [0xFF, 0xFF, 0xFF, 0xFF, 0xFF, 1] 5 ≤ 1 ∧ 2 ≤ byteAt [0, 0, 0, 0, 0, 2] 5 := by decide +kernel

theorem witness_OtherLoadAppendsAReading :
    room.accepts 4 rowOtherLoad [0xFF, 0xFF, 0xFF] = true ∧ room.supply.readings.length ≤ 8 := by decide +kernel

theorem witness_BudgetFigures :
    let s (c : MeterCondition) (h : HoldState) : State := { room with supply := { room.supply with
      readings := [30000, 27500], condition := c, hold := h, elapsed := some 30 } }
    ((s .fresh .running).supply.readings = [30000] ++ [27500] ∧ (s .fresh .running).supply.otherLoad = 27500) ∧
      ((s .stale .ramping).supply.readings ≠ [] ∧ (s .stale .ramping).supply.otherLoad = 30000) ∧
      (s .fresh .ramping).budget = 10500 ∧ (s .fresh .held).budget = 0 ∧ (s .empty .running).supply.openBudget = 0 ∧
      ({ (s .stale .running).supply with meterMode := .unmetered } : Supply).openBudget = 38000 := by decide +kernel

theorem witness_HoldAndResume :
    let held : State := { charging with supply := { charging.supply with hold := .held } }
    charging.accepts 4 rowHold [] = true ∧ charging.supply.hold = .running ∧ held.accepts 4 rowResume [] = true ∧
      held.supply.hold = .held := by decide +kernel

theorem witness_ZoneCommandsRestrict :
    let on : State := { charging with supply := { charging.supply with zoneOn := true } }
    on.accepts 4 rowSetZone [15, 0] = true ∧ byteAt [15, 0] 0 = (15 : BayId).val ∧ byteAt [15, 0] 1 = (0 : BayId).val ∧
      on.supply.zoneOn = true ∧ charging.supply.zoneOn = false ∧ charging.accepts 4 rowZoneOn [] = true ∧
      on.accepts 4 rowZoneOff [] = true ∧ 16 ≤ byteAt [16, 0] 0 := by decide +kernel

theorem witness_SetSiteClampsEverySetting :
    room.accepts 4 rowSetSite (List.replicate 20 0xFF) = true := by decide +kernel

/-- A room whose depot ports hold a stream over each table, all but the last byte of an entry having arrived. -/
def streaming : State :=
  (charging.setPort 4 { charging.port 4 with
    window := some (.profiles 2 7), stream := some (.profiles (some 2) 7)
    held := (profileBytes lithium).take 31 }).setPort 5 { charging.port 5 with
    stream := some (.schedule (some 47) 47), held := [0x81, 63, 0x27, 0x5F, 2, 100, 0] }

/-- R25, R138, R179: an entry is taken whole at its last byte; the byte before it is held at the port. -/
theorem test_entry_takes :
    ((after (.profileEntryTake 4 0) streaming).profile 2) = lithium ∧
      ((after (.profileEntryTake 4 0) streaming).port 4).stream = some (.profiles (some 3) 7) ∧
      ((after (.scheduleEntryTake 5 0) streaming).entry 47) =
        { blankEntry with valid := true, weekly := true, sweeper := 63, minute := 10079, profile := 2, required := 100 } ∧
      ((after (.profileEntryTake 4 9) (streaming.setStream 4 (some (.profiles (some 2) 7)))).port 4).held = [9] := by
  decide +kernel

theorem streaming_sound : streaming.sound := by unfold State.sound; decide +kernel

theorem witness_WindowsAndStreams :
    room.accepts 4 rowSetWindow [0, 7, 255] = true ∧ byteAt [0, 7, 255] 1 = (7 : ProfileId).val ∧
      (7 : ProfileId).val = min 7 (byteAt [0, 7, 255] 2) ∧ byteAt [0, 7, 255] 1 ≤ byteAt [0, 7, 255] 2 ∧
      room.accepts 4 rowSetWindow [1, 47, 48] = true ∧ (47 : EntryId).val = min 47 (byteAt [1, 47, 48] 2) ∧
      7 < byteAt [0, 8, 255] 1 ∧ (streaming.port 4).stream = some (.profiles (some 2) 7) ∧
      ((streaming.setStream 4 (some (.profiles (some 2) 7))).port 4).held.length < 31 ∧
      (∀ k l, (streaming.port 5).stream ≠ some (.profiles (some k) l)) ∧
      ((streaming.setStream 5 (some (.schedule (some 47) 47))).port 5).held.length < 7 ∧
      (∀ e l, (streaming.port 4).stream ≠ some (.schedule (some e) l)) ∧ streaming.accepts 4 rowTableWrite [] = true ∧
      streaming.accepts 4 rowTableRead [] = true := by decide +kernel

theorem witness_ProfileEntryTaken :
    let bytes : Vector Byte 32 := Vector.ofFn fun i => (profileBytes lithium).getD i.val 0
    (streaming.port 4).stream = some (.profiles (some 2) 7) ∧ (streaming.port 4).held = bytes.toList.take 31 ∧
      bytes[31] = 0 ∧ streaming.sound ∧
      ∀ b, (streaming.bay b).stage ≠ .empty → (streaming.bay b).profile = 2 → (streaming.bay b).heat ≤ 1 :=
  ⟨by decide +kernel, by decide +kernel, by decide +kernel, streaming_sound, by decide +kernel⟩

/-- R26: the lithium entry passes at the edges of its ranges, and not beyond them. -/
theorem test_profile_checks :
    ({ lithium with rated := 54162, maxCurrent := 2500, minCurrent := 5, restMinutes := 240 } : Profile).passes = true ∧
      ({ lithium with rated := 54163 } : Profile).passes = false ∧ ({ lithium with family := 3 } : Profile).passes = false ∧
      ({ lithium with minCurrent := 52 } : Profile).passes = false ∧
      ({ lithium with breakpoints := #v[0, 10, 10, 45, 55] } : Profile).passes = false ∧
      ({ lithium with equaliseMinutes := 1 } : Profile).passes = false ∧ flooded.passes = true ∧
      ({ flooded with equaliseMinutes := 0 } : Profile).passes = false ∧
      ({ flooded with equaliseInterval := 0, equaliseMinutes := 0 } : Profile).passes = true := by decide +kernel

/-- R33, R34: a taken entry of rated 2 000 lowers the pack's capacity to 2 200 and its estimate to 2 420, without its residue, and the bay
in BULK goes to ABSORB. -/
theorem test_profile_bounds :
    let bytes := profileBytes { lithium with rated := 2000 }
    let s := (docked bulk { pack with lifecycle := .docked, estimate := 2900, residue := 5 }).setPort 4 { charging.port 4 with
      stream := some (.profiles (some 2) 2), held := bytes.take 31 }
    let t := after (.profileEntryTake 4 (bytes.getD 31 1)) s
    (t.profile 2).valid = true ∧ (t.record 0).capacity = 2200 ∧ (t.record 0).estimate = 2420 ∧ (t.record 0).residue = 0 ∧
      (t.bay 6).stage = .absorb ∧ hasFlag (t.port 5).marks 0 = true := by decide +kernel

theorem witness_DepartureEntriesWritten :
    (streaming.port 5).stream = some (.schedule (some 47) 47) ∧
      (streaming.port 5).held = (#v[0x81, 63, 0x27, 0x5F, 2, 100, 0, 0] : Vector Byte 8).toList.take 7 ∧
      room.accepts 4 rowAddDeparture [1, 63, 0x27, 0x5F, 7, 100] = true ∧ byteAt [1, 63, 0x27, 0x5F, 7, 100] 0 ≤ 1 ∧
      (departureOf [1, 63, 0x27, 0x5F, 7, 100]).inRange = true ∧ (departureOf [1, 64, 0x27, 0x5F, 7, 100]).inRange = false ∧
      (room.entry 0).valid = false ∧ (∀ f, f < (0 : EntryId) → (room.entry f).valid = true) ∧
      normalLoad.accepts 4 rowCancelDeparture [1] = true ∧ (normalLoad.entry 1).valid = true ∧
      (normalLoad.entry 1).status ≠ .called ∧ (normalLoad.entry 47).valid = false := by decide +kernel

theorem witness_DrawChoosesItsPack :
    let s := docked bulk { pack with lifecycle := .docked, estimate := 1200 }
    charging.sound ∧ (∀ j ∈ s.queueOrder 2, (s.record j).lifecycle ≠ .ready) ∧ (s.record 0).lifecycle = .docked ∧
      (s.record 0).profile = 2 ∧ (s.record 0).reservation = none ∧ (s.bay 6).carries .fault = false ∧
      s.site.minimumIssue ≤ (s.record 0).percent ∧ (charging.record 0).percent < charging.site.minimumIssue :=
  ⟨charging_sound, by decide +kernel⟩

theorem witness_DrawCallsThePack :
    let s := docked bulk { pack with lifecycle := .docked, estimate := 1200 }
    s.accepts 4 rowDraw [63, 2] = true ∧ byteAt [63, 2] 0 = (63 : SweeperId).val ∧ (63 : SweeperId) ≠ 0 ∧
      byteAt [63, 2] 1 = (2 : ProfileId).val ∧ s.drawOf 63 = none ∧ (s.profile 2).valid = true ∧
      (s.choosePack 63 2 (s.matchingEntry 63 2)).2 = some ⟨0, .okPartial⟩ ∧ (s.record 0).bay = some 6 ∧
      (s.record 0).reservation = none ∧ (s.record 0).lifecycle ≠ .free ∧
      (charging.choosePack 63 2 (charging.matchingEntry 63 2)).2 = none ∧ (s.profile 7).valid = false ∧
      called.drawOf 5 ≠ none := by decide +kernel

theorem witness_DrawReserved :
    reserved.accepts 4 rowDraw [5, 2] = true ∧ reserved.drawOf 5 = none ∧ reserved.matchingEntry 5 2 = some 0 ∧
      (reserved.choosePack 5 2 (reserved.matchingEntry 5 2)).2 = some ⟨0, .ok⟩ ∧ (reserved.record 0).bay = some 6 ∧
      (reserved.record 0).reservation = some 0 ∧ (reserved.record 0).lifecycle ≠ .free := by decide +kernel

/-- R158: the matching entry is the one longest past, before a nearer one that is to come; a CALLED one is none. -/
theorem test_matchingEntry :
    let e (m : Nat) : Entry := { blankEntry with valid := true, sweeper := 5, minute := m, profile := 2, required := 100 }
    let s : State := { room with entries := ((room.entries.set 3 (e 2281)).set 7 (e 2270)).set 9 (e 2279) }
    s.matchingEntry 5 2 = some 7 ∧ (s.setEntry 7 { e 2270 with status := .called }).matchingEntry 5 2 = some 9 ∧
      s.matchingEntry 5 1 = none ∧ s.matchingEntry 6 2 = none ∧ ({ s with clock := none } : State).matchingEntry 5 2 = none := by
  decide +kernel

/-- The reserved pack stands short of its required charge, and a READY pack of its profile stands in bay 7. -/
def shortReserved : State :=
  let s := (reserved.storeRecord 0 { reserved.record 0 with lifecycle := .docked, estimate := 900, readySince := none }).leaveReady 0
  ((s.setBay 7 { bulk with stage := .done, grant := 0, tag := 8, slot := some 9 }).storeRecord 9
    { pack with tag := 8, lifecycle := .ready, bay := some 7, estimate := 3000 }).joinReady 2 9

/-- R145, R150: a draw served with another pack clears the reservation of the entry it calls. -/
theorem test_draw_frees_reserved :
    let t := after (.draw 4 [5, 2]) shortReserved
    shortReserved.drawOf 5 = none ∧ shortReserved.matchingEntry 5 2 = some 0 ∧ (shortReserved.record 0).reservation = some 0 ∧
      (shortReserved.choosePack 5 2 (some 0)).2 = some ⟨9, .ok⟩ ∧ (t.record 9).lifecycle = .called ∧
      (t.record 0).reservation = none ∧ (t.entry 0).reserved = none ∧ (t.entry 0).status = .called ∧ t.planMark = true := by
  decide +kernel

theorem witness_CancelDrawReturnsThePack :
    called.accepts 4 rowCancelDraw [5] = true ∧ called.sound ∧ byteAt [5] 0 = (5 : SweeperId).val ∧ (5 : SweeperId) ≠ 0 ∧
      called.drawOf 5 = some ⟨0, none⟩ ∧ (called.record 0).bay = some 6 ∧
      (∀ v, (called.drawOf v).map (·.slot) = some 0 → v = 5) ∧ called.drawOf 63 = none :=
  ⟨by decide +kernel, called_sound, by decide +kernel, by decide +kernel, by decide +kernel, by decide +kernel,
    by decide +kernel, by decide +kernel⟩

theorem witness_RosterCommandsMoveTheRecord :
    let r := docked { bulk with grant := 0, inhibits := BitVec.twoPow 9 Inhibit.quarantine.bit }
      { pack with lifecycle := .quarantined, reason := some .heat }
    charging.accepts 4 rowQuarantine [0] = true ∧ (charging.record 0).lifecycle = .docked ∧
      (reserved.record 0).reservation = some 0 ∧ (called.record 0).lifecycle = .called ∧
      (∀ v, (called.drawOf v).map (·.slot) = some 0 ↔ v = 5) ∧ (called.recallOf 0).isSome = true ∧
      r.accepts 4 rowRelease [0] = true ∧ (r.record 0).lifecycle = .quarantined ∧ (r.record 0).reason ≠ some .damaged ∧
      (r.record 0).bay = some 6 ∧ (Instr.forget 4 [64]).transaction = some (4, rowForget, [64]) ∧
      charging.accepts 4 rowForget [64] = true ∧ 64 ≤ byteAt [64] 0 ∧ byteAt [63] 0 = (63 : SlotId).val := by decide +kernel

/-- A damaged pack in bay 6, while bay 3 waits for a slot. -/
def waiting : State := damaged.setBay 3 { bulk with tag := 8, inhibits := BitVec.twoPow 9 Inhibit.unlisted.bit }

theorem witness_ForgetRelists :
    (stored.record 0).lifecycle = .stored ∧ (∀ a, (stored.bay a).carries .unlisted = false) ∧ (stored.record 0).bay = none ∧
      damaged.accepts 4 rowForget [0] = true ∧ (damaged.record 0).bay = some 6 ∧
      (∀ a, a < (6 : BayId) → (damaged.bay a).carries .unlisted = false) ∧ (waiting.bay 3).carries .unlisted = true ∧
      (waiting.record 0).reason = some .damaged ∧ ∀ a, a < (3 : BayId) → (waiting.bay a).carries .unlisted = false := by
  decide +kernel

/-- R12, R16: the lower bay takes the slot, and the damaged pack's bay waits. -/
theorem test_forget_relists :
    let t := after (.forget 4 [0]) waiting
    (t.record 0).tag = 8 ∧ (t.record 0).bay = some 3 ∧ (t.bay 3).carries .unlisted = false ∧ (t.bay 6).slot = none ∧
      (t.bay 6).carries .unlisted = true ∧ (t.bay 6).carries .quarantine = false := by decide +kernel

theorem witness_LatchesCopyTheCounters :
    let s : State := { room with
      minuteDue := some 2880, site := { room.site with latchMode := .auto, shiftStarts := #v[0, 480, 960, 1440] } }
    room.accepts 4 rowLatchCounters [] = true ∧ s.phase = .running ∧ s.minuteDue = some 2880 ∧ s.site.latchMode = .auto ∧
      (∃ k : Fin 4, s.site.shiftStarts[k] = 2880 % 1440) ∧ room.site.latchMode = .manual := by decide +kernel

theorem witness_SecondMovesEveryTimer :
    State.reset.phase ≠ .running ∧ room.phase = .running ∧ room.clock = some ⟨2280, 30⟩ ∧
      ([((0 : SlotId), Upset.oneBit)].filter fun u => u.1 = 0) = [(0, .oneBit)] ∧ room.check 0 = .clean := by decide +kernel

theorem witness_SilenceTakesTheBay :
    let s := docked { bulk with silence := 5 } { pack with lifecycle := .docked }
    let l := docked { bulk with silence := 30, report := .silent } { pack with lifecycle := .docked }
    s.phase = .running ∧ (s.bay 6).stage ≠ .empty ∧ (s.bay 6).report = .normal ∧ s.site.reportTimeout ≤ (s.bay 6).silence ∧
      (l.bay 6).report ≠ .lost ∧ l.site.lostTimeout ≤ (l.bay 6).silence ∧
      ¬ s.site.reportTimeout ≤ (charging.bay 6).silence := by decide +kernel

theorem witness_StageTimersEnd :
    let s := docked { bulk with holdEnd := some 0, equaliseEnd := some 0, restEnd := some 0 } { pack with lifecycle := .docked }
    s.phase = .running ∧ (s.bay 6).holdEnd = some 0 ∧ (s.bay 6).equaliseEnd = some 0 ∧ (s.bay 6).restEnd = some 0 ∧
      (s.bay 6).slot = some 0 ∧ (s.profile (s.bay 6).profile).restMinutes = 0 ∧ (charging.bay 6).holdEnd ≠ some 0 := by
  decide +kernel

theorem witness_StageTimersEnd_sound :
    (docked { bulk with equaliseEnd := some 0 } { pack with lifecycle := .docked }).sound := by
  unfold State.sound; decide +kernel

theorem witness_ConfirmTimerGivesUp :
    let s := docked { bulk with grant := 500, reduction := true, confirmTimer := some 0 } { pack with lifecycle := .docked }
    let e := room.setBay 6 { emptyBay with reduction := true, confirmTimer := some 0, allowance := 5 }
    s.phase = .running ∧ (s.bay 6).confirmTimer = some 0 ∧ s.pendingList = [] ∧ (s.bay 6).stage ≠ .empty ∧
      (e.bay 6).confirmTimer = some 0 ∧ (e.bay 6).stage = .empty ∧ (room.bay 6).confirmTimer ≠ some 0 := by decide +kernel

theorem witness_SupplyTimersEnd :
    let stale : State := { room with supply := { room.supply with age := some 11 } }
    let wound : State := { room with supply := { room.supply with hold := .windingDown, windDown := some 0 } }
    let ramped : State := { room with supply := { room.supply with hold := .ramping, elapsed := some 30 } }
    (stale.phase = .running ∧ stale.supply.condition = .fresh ∧ 11 ≤ stale.supply.age.getD 0) ∧
      (wound.supply.hold = .windingDown ∧ wound.supply.windDown = some 0) ∧
      (ramped.supply.hold = .ramping ∧ ramped.site.rampTime ≤ ramped.supply.elapsed.getD 0) ∧
      ¬ 11 ≤ room.supply.age.getD 0 ∧ room.supply.hold ≠ .windingDown ∧ room.supply.hold ≠ .ramping := by decide +kernel

theorem witness_ScrubVisitChecksARecord :
    let s : State := { charging with checks := charging.checks.set 0 .twoBits, scrubDue := true }
    State.reset.phase ≠ .running ∧ room.scrubDue = false ∧ s.phase = .running ∧ s.scrubDue = true ∧ s.check s.scrub = .twoBits ∧ (s.bay 6).slot = some s.scrub ∧
      (∀ a, (s.bay a).slot = some s.scrub → a = 6) ∧ (∀ b, (room.bay b).slot ≠ some room.scrub) ∧
      ({ s with checks := s.checks.set 0 .oneBit } : State).check 0 = .oneBit := by decide +kernel

theorem witness_PassesHandOverTheirTargets :
    let s : State := { normalLoad with passMark := true, periodTimer := some 0 }
    s.phase = .running ∧ s.passMark = true ∧ s.periodTimer = some 0 ∧ normalLoad.periodTimer ≠ some 0 ∧
      (∃ x ∈ s.targets, (s.bay x.bay).eligible = true ∧ (s.bay x.bay).grant < x.current) ∧
      (∀ b, (s.bay b).reduction = false) ∧
      ∃ x ∈ charging.targets, (charging.bay x.bay).eligible = true ∧ x.current = (charging.bay x.bay).grant := by
  decide +kernel

theorem witness_FillsStayWithinThePool :
    let low : State := { normalLoad with supply := { normalLoad.supply with limit := 30000 } }
    normalLoad.fixedLoad ≤ normalLoad.budget ∧ low.budget < low.fixedLoad ∧ (normalLoad.bay 6).slot = some 0 ∧
      (normalLoad.bay 6).eligible = true ∧ (normalLoad.bay 9).eligible = false ∧ normalLoad.urgency 11 = none := by decide +kernel

theorem witness_ReleasesKeepTheBudget :
    let s : State := { normalLoad with passMark := true }
    exec .allocationPass s = .next (after .allocationPass s) ∧ s.withinBudget ∧
      (s.bay 11).power < ((after .allocationPass s).bay 11).power :=
  ⟨rfl, by unfold State.withinBudget; decide +kernel, by decide +kernel⟩

/-- A report within the tolerance resolves the last reduction, and the pending increase of bay 11 is released. -/
def confirming : State :=
  { normalLoad.setBay 6 { normalLoad.bay 6 with allowance := 750, power := 2210, reduction := true, confirmTimer := some 2 } with
    pendingList := [⟨11, 500⟩] }

theorem witness_ReleasesAtConfirmation :
    let t := after (.report 1 [2, 0, 0, 0x0A, 0x96, 4, 0, 100, 0]) confirming
    exec (.report 1 [2, 0, 0, 0x0A, 0x96, 4, 0, 100, 0]) confirming = .next t ∧ confirming.localBay 1 2 = some 6 ∧
      (confirming.bay 11).grant < (t.bay 11).grant ∧ (confirming.bay 11).power < (t.bay 11).power ∧ (11 : BayId) ≠ 6 ∧
      (t.bay 11).grant = 500 :=
  ⟨rfl, by decide +kernel, by decide +kernel, by decide +kernel, by decide +kernel, by decide +kernel⟩

/-- A report of an EMPTY bay, an acknowledgement and a timeout that each resolve the last reduction, with an increase waiting. -/
theorem witness_ReleasesWalk :
    let e := confirming.setBay 6 { emptyBay with allowance := 400, reduction := true, confirmTimer := some 0 }
    confirming.accepts 1 rowGrantAck ([2] ++ be 2 (confirming.bay 6).grant) = true ∧ (confirming.bay 6).reduction = true ∧
      (∀ a, a ≠ 6 → (confirming.bay a).reduction = false) ∧ (e.bay 6).stage = .empty ∧
      e.accepts 1 rowReport [2, 0, 0, 0, 0, 0, 0, 0, 0] = true ∧ e.localBay 1 2 = some 6 ∧ (e.bay 6).confirmTimer = some 0 ∧
      (∀ a, a ≠ 6 → (e.bay a).reduction = false) ∧ confirming.pendingList = [⟨11, 500⟩] := by decide +kernel

/-- R129: an increase that does not fit is released in part, and one below the budget in whole. -/
theorem test_release_part :
    let s (limit : Nat) : State := { confirming with supply := { confirming.supply with limit := limit } }
    let ack := Instr.grantAck 1 ([2] ++ be 2 (confirming.bay 6).grant)
    ((after ack (s 40000)).bay 11).grant = 500 ∧ 0 < ((after ack (s 32000)).bay 11).grant ∧
      ((after ack (s 32000)).bay 11).grant < 500 ∧ ((after ack (s 29500)).bay 11).grant = 0 := by decide +kernel

theorem witness_PlanningReservationsAgree :
    let s : State := { normalLoad with planMark := true }
    s.phase = .running ∧ s.planMark = true ∧ s.clock ≠ none ∧ s.sound ∧ normalLoad.planMark = false ∧
      (∃ e, s.windowOf e = some .active ∧ (s.entry e).status = .planned) :=
  ⟨rfl, rfl, by decide +kernel, by unfold State.sound; decide +kernel, rfl, by decide +kernel⟩

/-- The kept pack of entry 2 and the choice by the rotation key for entry 1, in the pass of 8.6. -/
theorem witness_PlanningKeepsAndRotates :
    let t := after .clockMinuteChange morning
    ((morning.entry 2).reserved = some 25 ∧ morning.makes t [] 2 25) ∧
      (∀ i, (morning.entry 1).reserved ≠ some i) ∧ morning.makes t [2] 1 52 ∧
      ∀ j, morning.makes t [2] 1 j → morning.rotatesBefore 52 j := by
  simp only [State.makes_iff]
  unfold State.rotatesBefore
  decide +kernel

/-- Entry 4 of 8.6 has no candidates. -/
theorem witness_PlanningShort : ∀ i n, ¬ morning.offers (after .clockMinuteChange morning) [2, 1, 0] 4 i n := by
  have h : ∀ i, morning.projection 4 i = none := by decide +kernel
  intro i n g
  rw [State.offers, h i] at g
  cases g.2

/-- The charging room with a departure that its one pack cannot make. -/
def hurried : State :=
  { charging with
    planMark := true
    entries := charging.entries.set 0 { blankEntry with valid := true, sweeper := 1, minute := 2300, profile := 2, required := 100 } }

theorem witness_PlanningLate :
    let t := after .planningPass hurried
    (∀ i, ¬ hurried.makes t [] 0 i) ∧ hurried.offers t [] 0 0 10182 ∧
      ∀ j m, hurried.offers t [] 0 j m → 10182 < m ∨ 10182 = m ∧ hurried.rotatesBefore 0 j := by
  have h : ∀ j : SlotId, hurried.projection 0 j = if j = 0 then some 10182 else none := by decide +kernel
  refine ⟨?_, ⟨by simp, by rw [h]; rfl⟩, fun j m g => ?_⟩
  · simp only [State.makes_iff]
    decide +kernel
  · have g2 := g.2
    rw [h] at g2
    by_cases c : j = 0
    · rw [if_pos c] at g2
      cases g2
      exact .inr ⟨rfl, c ▸ .inr ⟨rfl, .inr ⟨rfl, le_refl _⟩⟩⟩
    · rw [if_neg c] at g2
      cases g2

theorem witness_PlanningOutside :
    let s : State := { normalLoad with clock := some ⟨5000, 0⟩ }
    s.windowOf 0 = some .outside ∧ (s.entry 0).status = .planned := by decide +kernel

theorem witness_TableBytesRoundTrip :
    (Vector.ofFn fun i : Fin 32 => (profileBytes lithium).getD i.val 0).toList = profileBytes lithium ∧
      (Vector.ofFn fun i : Fin 8 => (entryBytes (normalLoad.entry 1)).getD i.val 0).toList = entryBytes (normalLoad.entry 1) ∧
      ((0 : Byte) = 0 ∨ (0 : Byte) = 1) ∧ (∀ k : Fin 5, -128 ≤ lithium.breakpoints[k] ∧ lithium.breakpoints[k] ≤ 127) ∧
      (∀ k : Fin 6, lithium.factors[k] ≤ 255) ∧ (normalLoad.entry 1).minute ≤ 65535 := by decide +kernel

/-- R184: the records of an EMPTY bay and of a FREE slot, their absent fields all ones, and the answers of READ_SUPPLY and READ_DEPARTURE. -/
theorem test_layouts :
    spells (room.bayBytes 15) (room.bayFields 15) = true ∧ spells (packBytes 63 freeRecord) (packFields 63 freeRecord) = true ∧
      packBytes 63 freeRecord = [63, 0, 0, 0, 0, 0, 0xFF, 0xFF, 0] ++ List.replicate 17 0xFF ++ [0] ∧
      entryBytes { blankEntry with valid := true, weekly := true, renewal := true } = [0xC1, 0, 0, 0, 0, 0, 0, 0xFF] ∧
      spells (room.supplyBody 4) (room.supplyFields 4 fun b => b.val) = true ∧
      spells (room.departureBody 0) (room.departureFields 0) = true ∧
      (room.departureBody 0).drop 8 = [0xFF, 0xFF, 0xFF] ∧ (normalLoad.departureBody 1).drop 8 = [1, 1, 74] := by
  decide +kernel

/-- R184: bytes spell neither fewer fields than they hold, nor more, nor another value. -/
theorem test_spells_exactly :
    spells [1, 2, 3] [(2, some 258), (1, some 3)] = true ∧ spells [1, 2, 3] [(2, some 258)] = false ∧
      spells [1, 2] [(2, some 258), (1, some 3)] = false ∧ spells [1, 2] [(2, some 259)] = false ∧
      spells [0xFF, 0xFF] [(2, none)] = true := by decide +kernel

/-- A room in which a pass has granted, with one pass more waiting in the queue. -/
def running : State := { normalLoad with pending := [.allocationPass], passMark := true }

theorem witness_StepKeepsGrantsAndCounters :
    step running = .next (after .allocationPass { running with pending := [] }) ∧ running.grantsCovered ∧
      running.countersWhole :=
  ⟨rfl, by unfold State.grantsCovered Bay.covered; decide +kernel,
    by unfold State.countersWhole CounterCell.whole; decide +kernel⟩

theorem witness_StepKeepsGrantsEarned :
    step running = .next (after .allocationPass { running with pending := [] }) ∧ running.grantsEarned :=
  ⟨rfl, by unfold State.grantsEarned Bay.earns; decide +kernel⟩

theorem witness_StepKeepsTablesLawful :
    step running = .next (after .allocationPass { running with pending := [] }) ∧ running.profilesSane ∧ running.recordsLawful :=
  ⟨rfl, by unfold State.profilesSane Profile.sane; decide +kernel,
    by unfold State.recordsLawful PackRecord.lawful; decide +kernel⟩

theorem witness_StepKeepsPortsAndSettings :
    step running = .next (after .allocationPass { running with pending := [] }) ∧
      (∀ q, (running.port q).silentWhenOff ∧ (running.port q).holdsPart) ∧ running.site.inRange ∧ running.supply.inRange ∧ running.clockInRange :=
  ⟨rfl, fun q => ⟨by revert q; unfold Port.silentWhenOff; decide +kernel, by
      have h : (running.port q).stream = none := by revert q; decide +kernel
      unfold Port.holdsPart
      rw [h]
      revert q
      decide +kernel⟩, by unfold Site.inRange; decide +kernel,
    by unfold Supply.inRange; decide +kernel, by
      refine ⟨fun c h => ?_, fun m h => ?_⟩
      · cases (Option.some.inj h); decide
      · have none : running.minuteDue = none := by decide +kernel
        rw [none] at h
        cases h⟩

end Sys2Proof.Tests
end

section
/-!
The laws of charge at every step (R2, R26, R33, R52): each command keeps valid profile entries within their checks and every record's
charge within its law. An operation inside an event keeps them because it evolves the part (Laws/Evolve.lean); what is left are the
resets, the scan, and the writes of a command of its own.
-/

namespace Sys2Proof.Machine

/-- Profile entries that are sane and records that are lawful in s are so in t. -/
def KeepsTables (s t : State) : Prop := s.profilesSane → s.recordsLawful → t.profilesSane ∧ t.recordsLawful

theorem KeepsTables.refl (s : State) : KeepsTables s s := fun hp hr => ⟨hp, hr⟩

theorem KeepsTables.trans {s t u : State} (h : KeepsTables s t) (g : KeepsTables t u) : KeepsTables s u := fun hp hr =>
  g (h hp hr).1 (h hp hr).2

/-- What evolves the part keeps the laws. -/
theorem Evolves.keepsTables {s t : State} (h : Evolves s t) : KeepsTables s t := fun hp hr => ⟨h.frame.sane hp, h.law hp hr⟩

/-- A write of neither table keeps the laws. -/
theorem KeepsTables.ofSame {s t : State} (hp : t.profiles = s.profiles) (hr : t.records = s.records) : KeepsTables s t := by
  intro sane lawful
  refine ⟨fun k => ?_, fun i => ?_⟩
  · simpa only [State.profile, hp] using sane k
  · simpa only [State.record, hr] using lawful i

/-! ### Writes of a command's own -/

theorem State.setPort_keepsTables (s : State) (p : PortId) (x : Port) : KeepsTables s (s.setPort p x) := .ofSame rfl rfl

theorem State.setSupply_keepsTables (s : State) (x : Supply) : KeepsTables s (s.setSupply x) := .ofSame rfl rfl

theorem State.resupply_keepsTables (s : State) (f : Supply → Supply) : KeepsTables s (s.resupply f) :=
  (s.setSupply_keepsTables _).trans (State.checkBudget_evolves _).keepsTables

theorem State.startRamp_keepsTables (s : State) : KeepsTables s s.startRamp :=
  (s.resupply_keepsTables _).trans (State.notify_evolves _ _ _).keepsTables

theorem State.endRamp_keepsTables (s : State) : KeepsTables s s.endRamp :=
  (s.resupply_keepsTables _).trans (State.notify_evolves _ _ _).keepsTables

theorem State.takeReading_keepsTables (s : State) (r : Nat) : KeepsTables s (s.takeReading r) := by
  have noticed : KeepsTables s (if s.supply.condition == .fresh then s else s.notify .supply .part) := by
    split
    · exact .refl s
    · exact (s.notify_evolves _ _).keepsTables
  have peaks (t : State) : KeepsTables t (t.raisePeaks r) := .ofSame rfl rfl
  exact (noticed.trans (peaks _)).trans (State.resupply_keepsTables _ _)

theorem State.windDown_keepsTables (s : State) : KeepsTables s s.windDown :=
  ((Evolves.foldl _ State.holdBay_evolves allBays s).keepsTables.trans (State.resupply_keepsTables _ _)).trans
    (State.notify_evolves _ _ _).keepsTables

theorem State.setZone_keepsTables (s : State) (first last : BayId) : KeepsTables s (s.setZone first last) := by
  unfold State.setZone
  dsimp only
  split
  · exact (s.setSupply_keepsTables _).trans (State.rezone_evolves _).keepsTables
  · exact s.setSupply_keepsTables _

theorem State.switchZoneOn_keepsTables (s : State) : KeepsTables s s.switchZoneOn :=
  (s.setSupply_keepsTables _).trans (State.rezone_evolves _).keepsTables

theorem State.switchZoneOff_keepsTables (s : State) : KeepsTables s s.switchZoneOff :=
  (s.setSupply_keepsTables _).trans (((State.clearInhibit_evolves _ _).trans (State.notify_evolves _ _ _)).trans
    (State.requestPass_evolves _)).keepsTables

theorem State.setSite_keepsTables (s : State) (x : Site) : KeepsTables s (s.setSite x) := by
  have site : KeepsTables s { s with site := x } := .ofSame rfl rfl
  have retime (t : State) (old : Site) : KeepsTables t (t.retime old) := by
    unfold State.retime
    split
    · exact .refl t
    · exact .ofSame rfl rfl
  have reramp (t : State) (old : Site) : KeepsTables t (t.reramp old) := by
    unfold State.reramp
    split
    · exact .refl t
    · split
      · exact t.endRamp_keepsTables
      · exact t.checkBudget_evolves.keepsTables
  have replan (t : State) (old : Site) : KeepsTables t (t.replan old) := by
    unfold State.replan
    split
    · exact .refl t
    · exact t.requestPlan_evolves.keepsTables
  exact ((site.trans (retime _ _)).trans (reramp _ _)).trans (replan _ _)

theorem State.takeProfile_keepsTables (s : State) (k : ProfileId) (bytes : Vector Byte 32) :
    KeepsTables s (s.takeProfile k bytes) := by
  obtain ⟨v, passes, evolves⟩ := s.takeProfile_evolves k bytes
  refine KeepsTables.trans (t := s.setProfile k { profileOfBytes bytes with valid := v }) (fun sane lawful => ⟨fun j => ?_, lawful⟩)
    evolves.keepsTables
  rw [State.setProfile_profile]
  split
  · exact passes
  · exact sane j

theorem State.allocate_keepsTables (s : State) : KeepsTables s s.allocate :=
  KeepsTables.trans (.ofSame rfl rfl) s.allocate_evolves.keepsTables

theorem State.latch_keepsTables (s : State) : KeepsTables s s.latch := .ofSame rfl rfl

/-- A second of the timebase moves no profile entry and no record's fields (R20, R37). -/
theorem State.tick_keepsTables (s : State) : KeepsTables s s.tick := by
  have clock : KeepsTables s s.advanceClock := by
    unfold State.advanceClock
    split
    · exact .refl s
    · exact .ofSame rfl rfl
  have ticked : KeepsTables s { s.advanceClock with
      bays := updateAll s.bays fun _ x => x.tick
      supply := s.supply.tick s.site.rampTime
      scrubDue := true
      periodTimer := s.periodTimer.map Nat.pred } := clock.trans (.ofSame rfl rfl)
  unfold State.tick
  dsimp only
  split
  · exact ticked.trans (State.checkBudget_evolves _).keepsTables
  · exact ticked

theorem State.upsets_keepsTables (s : State) (upsets : List (SlotId × Upset)) :
    KeepsTables s (upsets.foldl State.sufferUpset s) := by
  induction upsets generalizing s with
  | nil => exact .refl s
  | cons u rest ih => exact KeepsTables.trans (.ofSame rfl rfl) (ih (s.sufferUpset u))

theorem State.changeMinute_keepsTables (s : State) (m : Nat) : KeepsTables s (s.changeMinute m) := by
  have cleared : KeepsTables s { s with minuteDue := none } := .ofSame rfl rfl
  unfold State.changeMinute
  dsimp only
  split
  · exact (cleared.trans (State.latch_keepsTables _)).trans (State.plan_evolves _).keepsTables
  · exact cleared.trans (State.plan_evolves _).keepsTables

/-! ### Resets and the scan -/

/-- A demotion leaves the charge (R21, R22). -/
theorem PackRecord.demoted_lawful (r : PackRecord) (h : r.lawful) : r.demoted.lawful := by
  unfold PackRecord.demoted
  split <;> exact h

theorem State.demoteRecord_evolves (s : State) (i : SlotId) : Evolves s (s.demoteRecord i) := by
  unfold State.demoteRecord
  split
  · exact .refl s
  · exact (s.access_evolves i).trans
      (State.storeRecord_evolves _ i _ fun _ lawful => PackRecord.demoted_lawful _ (lawful i))

theorem State.poweredOn_lawful (straps : Straps) (queue : List Instr) :
    (State.poweredOn straps queue).profilesSane ∧ (State.poweredOn straps queue).recordsLawful := by
  refine ⟨fun k => ?_, fun i => ?_⟩
  · simp [State.profile, State.poweredOn, Profile.sane, blankProfile]
  · simp [State.record, State.poweredOn, PackRecord.lawful, freeRecord]

theorem State.hardReset_keepsTables (s : State) (straps : Straps) : KeepsTables s (s.hardReset straps) := by
  intro sane lawful
  have charge := (Evolves.foldl _ State.demoteRecord_evolves allSlots s).law sane lawful
  unfold State.hardReset
  generalize allSlots.foldl State.demoteRecord s = demoted at charge
  exact ⟨sane, charge⟩

theorem State.softReset_keepsTables (s : State) : KeepsTables s s.softReset := by
  have blocks : KeepsTables s s.softResetBlocks := by
    have lowered := ((Evolves.foldl _ State.demoteRecord_evolves allSlots s).trans
      (Evolves.foldl (fun t b => t.lower b 0) (fun t b => t.lower_evolves b 0 rfl) allBays _)).keepsTables
    unfold State.softResetBlocks
    dsimp only
    generalize allBays.foldl (fun t b => State.lower t b 0) (allSlots.foldl State.demoteRecord s) = t at lowered
    exact lowered.trans (.ofSame rfl rfl)
  unfold State.softReset
  generalize s.softResetBlocks = t at blocks
  exact (blocks.trans t.startRamp_keepsTables).trans (.ofSame rfl rfl)

/-- The scan restores the law of charge (R2, R20). -/
theorem PackRecord.restored_lawful (r : PackRecord) (pr : Profile) : (r.restored pr).lawful := by
  unfold PackRecord.restored
  generalize (if pr.valid then clampNat (pr.rated / 2) (pr.rated * 11 / 10) r.capacity else r.capacity) = capacity
  dsimp only
  by_cases exceeds : capacity * 110 / 100 < r.estimate
  · rw [if_pos exceeds]
    exact ⟨le_refl _, Nat.zero_le _⟩
  · rw [if_neg exceeds]
    refine ⟨not_lt.mp exceeds, ?_⟩
    dsimp only
    split <;> omega

theorem State.scanRecord_evolves (s : State) (i : SlotId) : Evolves s (s.scanRecord i) := by
  unfold State.scanRecord
  split
  · exact .refl s
  · dsimp only
    refine Evolves.trans ?_ (State.putRecord_evolves _ i _ fun _ _ => PackRecord.restored_lawful _ _)
    split
    · exact s.rebuild_evolves i
    · exact .refl s

/-- A profile entry after the scan's checks (R36). -/
theorem State.scanTables_profile (s : State) (k : ProfileId) :
    s.scanTables.profile k = { s.profile k with valid := (s.profile k).valid && (s.profile k).passes } := by
  have invalidated : ((s.profile k).valid && !(s.profile k).failsScan) = ((s.profile k).valid && (s.profile k).passes) := by
    unfold Profile.failsScan
    cases (s.profile k).valid <;> simp
  rw [← invalidated]
  simp only [State.scanTables, State.profile, get_updateAll]

/-- Whether an entry passes its checks does not hang on its valid mark (R26). -/
theorem Profile.passes_withValid (pr : Profile) (v : Bool) : ({ pr with valid := v } : Profile).passes = pr.passes := rfl

theorem State.scanTables_sane (s : State) : s.scanTables.profilesSane := by
  intro k valid
  rw [State.scanTables_profile] at valid ⊢
  rw [Profile.passes_withValid]
  exact ((Bool.and_eq_true _ _).mp valid).2

theorem State.scanAfterReset_keepsTables (s : State) : KeepsTables s s.scanAfterReset := by
  have tables : KeepsTables s s.scanTables := fun _ lawful => ⟨s.scanTables_sane, lawful⟩
  have restored := (tables.trans (State.accessAll_evolves _ allSlots).keepsTables).trans
    (Evolves.foldl _ State.scanRecord_evolves allSlots _).keepsTables
  have counted (t : State) (n : Nat) : KeepsTables t { t with seenCounter := n } := .ofSame rfl rfl
  unfold State.scanAfterReset
  dsimp only
  split
  · exact (restored.trans (counted _ _)).trans (State.notify_evolves _ _ _).keepsTables
  · exact restored.trans (counted _ _)

theorem State.endScan_keepsTables (s : State) : KeepsTables s s.endScan :=
  KeepsTables.trans (t := { s with phase := .running, periodTimer := some s.site.period }) (.ofSame rfl rfl)
    (State.startRamp_keepsTables _)

/-! ### Commands -/

/-- A transaction keeps the laws where its command's own effect does. -/
theorem State.transact_keepsTables (s : State) (p : PortId) (row : CommandRow) (params : List Byte) (act : State → Reply)
    (h : KeepsTables s (act s).state) : KeepsTables s (s.transact p row params act) := by
  rcases s.transact_cases p row params act with ⟨-, taken⟩ | ⟨r, after, refused⟩
  · rw [taken]
    exact h.trans (State.setPort_keepsTables _ _ _)
  · rw [refused]
    exact s.setPort_keepsTables _ _

/-- A cluster command keeps the laws where its own effect does. -/
theorem State.clusterCommand_keepsTables (s : State) (p : PortId) (row : CommandRow) (params : List Byte)
    (act : BayId → State → Reply) (h : ∀ b, KeepsTables s (act b s).state) :
    KeepsTables s (s.clusterCommand p row params act) := by
  refine s.transact_keepsTables p row params _ ?_
  split
  · exact h _
  · exact .refl s

/-- A command that names a slot keeps the laws where its own effect does on the record once accessed. -/
theorem State.slotCommand_keepsTables (s : State) (p : PortId) (row : CommandRow) (params : List Byte)
    (act : SlotId → State → Reply) (h : ∀ i t, KeepsTables t (act i t).state) :
    KeepsTables s (s.slotCommand p row params act) := by
  refine s.transact_keepsTables p row params _ ?_
  split
  · exact (s.access_evolves _).keepsTables.trans (h _ _)
  · exact .refl s

@[simp] theorem State.answerPack_state (s : State) (i : SlotId) : (s.answerPack i).state = s := rfl

theorem State.readPack_keepsTables (s : State) (p : PortId) (params : List Byte) :
    KeepsTables s (s.transact p rowReadPack params fun t =>
      match byteAt params 0 with
      | 0 => t.readBySlot (u32At params 1)
      | 1 => t.readByTag (u32At params 1)
      | 2 => t.readByBay p (u32At params 1)
      | 3 => t.readBySweeper (u32At params 1)
      | _ => t.reply .range) := by
  have all := (s.accessAll_evolves allSlots).keepsTables
  refine s.transact_keepsTables p rowReadPack params _ ?_
  split
  · unfold State.readBySlot
    split
    · exact (s.access_evolves _).keepsTables
    · exact .refl s
  · unfold State.readByTag
    split
    · exact .refl s
    · dsimp only
      split <;> simpa only [State.answerPack_state, State.reply_state] using all
  · unfold State.readByBay
    split
    · exact .refl s
    · split
      · exact (s.access_evolves _).keepsTables
      · exact .refl s
  · unfold State.readBySweeper
    split
    · exact .refl s
    · split
      · exact .refl s
      · dsimp only
        split <;> simpa only [State.answer_state, State.reply_state] using all
  · exact .refl s

theorem State.dockTag_keepsTables (s : State) (b : BayId) (d : Docking) (h : d.sane) : KeepsTables s (s.dockTag b d).state := by
  have checked := (s.accessAll_evolves allSlots).keepsTables
  have seen (t : State) : KeepsTables t t.countSeen := .ofSame rfl rfl
  unfold State.dockTag
  generalize s.accessAll allSlots = t at checked
  dsimp only
  split
  · exact checked.trans (State.notify_evolves _ _ _).keepsTables
  · exact ((checked.trans (seen _)).trans (State.dockRoster_evolves _ b d h).keepsTables).trans
      (State.dockBay_evolves _ b d _).keepsTables

theorem State.undock_keepsTables (s : State) (b : BayId) : KeepsTables s (s.undock b) :=
  KeepsTables.trans (t := s.countSeen) (.ofSame rfl rfl) (s.undock_evolves b).keepsTables

/-- A command's outcome keeps the laws: the state it leaves, if it leaves one, does. -/
def Outcome.KeepsTables (s : State) (r : Result) : Prop := ∀ t, r = .next t → Machine.KeepsTables s t

theorem Outcome.KeepsTables.next {s t : State} (h : Machine.KeepsTables s t) : Outcome.KeepsTables s (.next t) := by
  intro u e
  cases e
  exact h

/-- An event that takes place only when it is due keeps the laws where it does so then. -/
theorem Outcome.KeepsTables.whenDue {s t : State} (due : Bool) (h : Machine.KeepsTables s t) :
    Outcome.KeepsTables s (.next (if due then t else s)) := by
  cases due
  · exact .next (.refl s)
  · exact .next h

/-- A read whose command leaves the state as it is. -/
theorem Outcome.KeepsTables.read {s : State} {p : PortId} {row : CommandRow} {params : List Byte} {act : State → Reply}
    (h : (act s).state = s) : Outcome.KeepsTables s (.next (s.transact p row params act)) :=
  .next (s.transact_keepsTables p row params act (by rw [h]; exact .refl s))

theorem execReadGroup_keepsTables (p : PortId) (params : List Byte) (s : State) : Outcome.KeepsTables s (execReadGroup p params s) := by
  refine .next (s.transact_keepsTables _ _ _ _ ?_)
  split
  · rename_i g _
    have checked := (s.accessAll_evolves (slotsOf g)).keepsTables
    generalize s.accessAll (slotsOf g) = t at checked
    exact checked.trans (t.setPort_keepsTables _ _)
  · exact .refl s

theorem execReadBay_keepsTables (p : PortId) (params : List Byte) (s : State) : Outcome.KeepsTables s (execReadBay p params s) := by
  refine .read ?_
  split <;> rfl

theorem execReadDeparture_keepsTables (p : PortId) (params : List Byte) (s : State) : Outcome.KeepsTables s (execReadDeparture p params s) := by
  refine .read ?_
  split <;> rfl

theorem execReadQueue_keepsTables (p : PortId) (params : List Byte) (s : State) : Outcome.KeepsTables s (execReadQueue p params s) := by
  refine .next (s.transact_keepsTables _ _ _ _ ?_)
  split
  · exact (s.accessAll_evolves _).keepsTables
  · exact .refl s

theorem execReadRecall_keepsTables (p : PortId) (params : List Byte) (s : State) : Outcome.KeepsTables s (execReadRecall p params s) := by
  refine .read ?_
  split
  · split <;> rfl
  · rfl

theorem execSetNoticeMask_keepsTables (p : PortId) (params : List Byte) (s : State) : Outcome.KeepsTables s (execSetNoticeMask p params s) := by
  refine .next (s.transact_keepsTables _ _ _ _ ?_)
  split
  · exact s.setPort_keepsTables _ _
  · exact .refl s

theorem execDock_keepsTables (p : PortId) (params : List Byte) (s : State) : Outcome.KeepsTables s (execDock p params s) := by
  refine .next (s.clusterCommand_keepsTables p rowDock params _ fun b => ?_)
  split
  · exact .refl s
  · split
    · rename_i d docking
      exact s.dockTag_keepsTables b d (dockingOf_sane params d docking)
    · exact .refl s

theorem execUndock_keepsTables (p : PortId) (params : List Byte) (s : State) :
    Outcome.KeepsTables s (execUndock p params s) := by
  refine .next (s.clusterCommand_keepsTables p rowUndock params _ fun b => ?_)
  have accessed := (s.accessDocked_evolves b).keepsTables
  split
  · exact .refl s
  · split
    · exact .refl s
    · split
      · exact accessed
      · exact accessed.trans (State.undock_keepsTables _ b)

theorem execReport_keepsTables (p : PortId) (params : List Byte) (s : State) :
    Outcome.KeepsTables s (execReport p params s) := by
  refine .next (s.clusterCommand_keepsTables p rowReport params _ fun b => ?_)
  split
  · exact (s.compareCurrent_evolves b _).keepsTables
  · exact ((s.accessDocked_evolves b).trans (State.takeReport_evolves _ b _ _)).keepsTables

theorem execGrantAck_keepsTables (p : PortId) (params : List Byte) (s : State) :
    Outcome.KeepsTables s (execGrantAck p params s) := by
  refine .next (s.clusterCommand_keepsTables p rowGrantAck params _ fun b => ?_)
  split
  · exact (s.confirm_evolves b).keepsTables
  · exact .refl s

theorem execClearFault_keepsTables (p : PortId) (params : List Byte) (s : State) :
    Outcome.KeepsTables s (execClearFault p params s) := by
  refine .next (s.clusterCommand_keepsTables p rowClearFault params _ fun b => ?_)
  split
  · exact .refl s
  · split
    · exact .refl s
    · exact ((s.removeInhibit_evolves b .fault).trans (State.notifyFaultClear_evolves _ b)).keepsTables

theorem execSetClock_keepsTables (p : PortId) (params : List Byte) (s : State) : Outcome.KeepsTables s (execSetClock p params s) := by
  refine .next (s.transact_keepsTables _ _ _ _ ?_)
  split
  · exact .refl s
  · have clock (c : Clock) : KeepsTables s { s with clock := some c } := .ofSame rfl rfl
    exact (clock _).trans ((State.notify_evolves _ .clock .part).trans (State.requestPlan_evolves _)).keepsTables

theorem execSetSupply_keepsTables (p : PortId) (params : List Byte) (s : State) : Outcome.KeepsTables s (execSetSupply p params s) := by
  refine .next (s.transact_keepsTables _ _ _ _ ?_)
  split
  · exact s.resupply_keepsTables _
  · exact .refl s

theorem execHold_keepsTables (p : PortId) (s : State) : Outcome.KeepsTables s (execHold p s) := by
  refine .next (s.transact_keepsTables _ _ _ _ ?_)
  split
  · exact s.windDown_keepsTables
  · exact s.windDown_keepsTables
  · exact .refl s
  · exact .refl s

theorem execResume_keepsTables (p : PortId) (s : State) : Outcome.KeepsTables s (execResume p s) := by
  refine .next (s.transact_keepsTables _ _ _ _ ?_)
  split
  · exact .refl s
  · exact .refl s
  · exact .refl s
  · exact (s.clearInhibit_evolves .hold).keepsTables.trans (State.startRamp_keepsTables _)

theorem execSetZone_keepsTables (p : PortId) (params : List Byte) (s : State) : Outcome.KeepsTables s (execSetZone p params s) := by
  refine .next (s.transact_keepsTables _ _ _ _ ?_)
  split
  · exact s.setZone_keepsTables _ _
  · exact .refl s

theorem execZoneOn_keepsTables (p : PortId) (s : State) : Outcome.KeepsTables s (execZoneOn p s) := by
  refine .next (s.transact_keepsTables _ _ _ _ ?_)
  dsimp only [State.reply_state]
  split
  · exact .refl s
  · exact s.switchZoneOn_keepsTables

theorem execZoneOff_keepsTables (p : PortId) (s : State) : Outcome.KeepsTables s (execZoneOff p s) := by
  refine .next (s.transact_keepsTables _ _ _ _ ?_)
  dsimp only [State.reply_state]
  split
  · exact s.switchZoneOff_keepsTables
  · exact .refl s

theorem execSetWindow_keepsTables (p : PortId) (params : List Byte) (s : State) : Outcome.KeepsTables s (execSetWindow p params s) := by
  refine .next (s.transact_keepsTables _ _ _ _ ?_)
  split
  · exact s.setPort_keepsTables _ _
  · exact .refl s

theorem execTableWrite_keepsTables (p : PortId) (s : State) : Outcome.KeepsTables s (execTableWrite p s) := by
  refine .next ?_
  split
  · exact s.setPort_keepsTables _ _
  · split
    · exact s.setPort_keepsTables _ _
    · split <;> exact s.setPort_keepsTables _ _

theorem State.beginReading_keepsTables (s : State) (p : PortId) : KeepsTables s (s.beginReading p) := by
  have answered : KeepsTables s (s.transact p rowTableRead [] fun t =>
      if (t.port p).window.isSome then t.answer [] else t.reply .state) :=
    s.transact_keepsTables _ _ _ _ (by split <;> exact .refl s)
  unfold State.beginReading
  dsimp only
  split
  · exact answered.trans (State.setPort_keepsTables _ _ _)
  · exact answered

theorem State.readEntry_keepsTables (s : State) (p : PortId) : KeepsTables s (s.readEntry p) := by
  unfold State.readEntry
  split
  · exact (s.setPort_keepsTables _ _).trans (State.setPort_keepsTables _ _ _)
  · exact (s.setPort_keepsTables _ _).trans (State.setPort_keepsTables _ _ _)
  · exact .refl s

theorem execTableRead_keepsTables (p : PortId) (part : ReadPart) (s : State) :
    Outcome.KeepsTables s (execTableRead p part s) := by
  refine .next ?_
  cases part with
  | command => exact s.beginReading_keepsTables p
  | nextEntry => exact s.readEntry_keepsTables p

theorem execTableWriteStreamEnd_keepsTables (p : PortId) (s : State) : Outcome.KeepsTables s (execTableWriteStreamEnd p s) := by
  refine .next ?_
  split
  · exact s.setPort_keepsTables _ _
  · exact s.setPort_keepsTables _ _
  · exact .refl s

theorem execAddDeparture_keepsTables (p : PortId) (params : List Byte) (s : State) : Outcome.KeepsTables s (execAddDeparture p params s) := by
  refine .next (s.transact_keepsTables _ _ _ _ ?_)
  split
  · exact .refl s
  · split
    · exact (s.addDeparture_evolves _ _).keepsTables
    · exact .refl s

theorem execCancelDeparture_keepsTables (p : PortId) (params : List Byte) (s : State) : Outcome.KeepsTables s (execCancelDeparture p params s) := by
  refine .next (s.transact_keepsTables _ _ _ _ ?_)
  split
  · exact .refl s
  · split
    · exact .refl s
    · split
      · exact .refl s
      · exact (s.cancelDeparture_evolves _).keepsTables

theorem execProfileEntryTake_keepsTables (p : PortId) (b : Byte) (s : State) :
    Outcome.KeepsTables s (execProfileEntryTake p b s) := by
  refine .next ?_
  split
  · split
    · exact (s.takeProfile_keepsTables _ _).trans (State.setPort_keepsTables _ _ _)
    · exact s.setPort_keepsTables _ _
  · exact .refl s

theorem execScheduleEntryTake_keepsTables (p : PortId) (b : Byte) (s : State) :
    Outcome.KeepsTables s (execScheduleEntryTake p b s) := by
  refine .next ?_
  split
  · split
    · exact (s.takeEntry_evolves _ _).keepsTables.trans (State.setPort_keepsTables _ _ _)
    · exact s.setPort_keepsTables _ _
  · exact .refl s

theorem execDraw_keepsTables (p : PortId) (params : List Byte) (s : State) : Outcome.KeepsTables s (execDraw p params s) := by
  refine .next (s.transact_keepsTables _ _ _ _ ?_)
  split
  · split
    · exact .refl s
    · split
      · exact .refl s
      · exact (s.drawPack_evolves _ _).keepsTables
  · exact .refl s

theorem execCancelDraw_keepsTables (p : PortId) (params : List Byte) (s : State) : Outcome.KeepsTables s (execCancelDraw p params s) := by
  refine .next (s.transact_keepsTables _ _ _ _ ?_)
  split
  · exact .refl s
  · dsimp only
    split
    · exact ((s.accessDrawn_evolves _).trans (State.cancelDrawOf_evolves _ _)).keepsTables
    · exact (s.accessDrawn_evolves _).keepsTables

theorem execQuarantine_keepsTables (p : PortId) (params : List Byte) (s : State) : Outcome.KeepsTables s (execQuarantine p params s) := by
  refine .next (s.slotCommand_keepsTables _ _ _ _ fun i t => ?_)
  split
  · exact .refl t
  · exact .refl t
  · exact (t.enterQuarantine_evolves i _).keepsTables

theorem execRelease_keepsTables (p : PortId) (params : List Byte) (s : State) : Outcome.KeepsTables s (execRelease p params s) := by
  refine .next (s.slotCommand_keepsTables _ _ _ _ fun i t => ?_)
  split
  · exact (t.releaseQuarantine_evolves i).keepsTables
  · exact .refl t

theorem execForget_keepsTables (p : PortId) (params : List Byte) (s : State) : Outcome.KeepsTables s (execForget p params s) := by
  refine .next (s.slotCommand_keepsTables _ _ _ _ fun i t => ?_)
  split
  · exact (t.forgetRecord_evolves i).keepsTables
  · exact .refl t

theorem execScanComplete_keepsTables (s : State) : Outcome.KeepsTables s (execScanComplete s) := by
  unfold execScanComplete
  split
  · exact .next s.endScan_keepsTables
  · exact .next (s.scanAfterReset_keepsTables.trans (State.endScan_keepsTables _))
  · exact .next (.refl s)

theorem execTimebaseSecond_keepsTables (upsets : List (SlotId × Upset)) (s : State) :
    Outcome.KeepsTables s (execTimebaseSecond upsets s) := by
  have struck := s.upsets_keepsTables upsets
  refine .next ?_
  split
  · exact struck.trans (State.tick_keepsTables _)
  · exact struck

theorem execClockMinuteChange_keepsTables (s : State) : Outcome.KeepsTables s (execClockMinuteChange s) := by
  refine .next ?_
  split
  · exact s.changeMinute_keepsTables _
  · exact .refl s

theorem State.visit_keepsTables (s : State) : KeepsTables s s.visit :=
  (s.access_evolves s.scrub).keepsTables.trans (.ofSame rfl rfl)

theorem execUnknownCode_keepsTables (p : PortId) (code : Byte) (s : State) :
    Outcome.KeepsTables s (execUnknownCode p code s) := by
  unfold execUnknownCode
  split
  · intro t e
    cases e
  · exact .next (s.setPort_keepsTables _ _)

/-- Every command keeps the laws of the profile table and of charge (R2, R26). -/
theorem exec_keepsTables (c : Instr) (s : State) : Outcome.KeepsTables s (exec c s) := by
  cases c with
  | powerOn straps => exact .next fun _ _ => State.poweredOn_lawful straps s.pending
  | hardReset straps => exact .next (s.hardReset_keepsTables straps)
  | hardResetEnd => exact .next (by split; exacts [.ofSame rfl rfl, .refl s])
  | scanComplete => exact execScanComplete_keepsTables s
  | unknownCode p code => exact execUnknownCode_keepsTables p code s
  | shortTransaction p => exact .next (s.setPort_keepsTables _ _)
  | identify p => exact .next (s.setPort_keepsTables _ _)
  | readNotices p => exact .read rfl
  | ackNotices p params => exact .next (s.transact_keepsTables _ _ _ _ (s.setPort_keepsTables _ _))
  | setNoticeMask p params => exact execSetNoticeMask_keepsTables p params s
  | readBaySummary p => exact .next (s.transact_keepsTables _ _ _ _ (s.setPort_keepsTables _ _))
  | readPack p params => exact .next (s.readPack_keepsTables p params)
  | readGroup p params => exact execReadGroup_keepsTables p params s
  | readMarks p => exact .read rfl
  | readBay p params => exact execReadBay_keepsTables p params s
  | readSupply p => exact .next (s.transact_keepsTables _ _ _ _ (s.setPort_keepsTables _ _))
  | readDeparture p params => exact execReadDeparture_keepsTables p params s
  | readCounters p => exact .read rfl
  | readQueue p params => exact execReadQueue_keepsTables p params s
  | readClock p => exact .read rfl
  | readRecall p params => exact execReadRecall_keepsTables p params s
  | dock p params => exact execDock_keepsTables p params s
  | undock p params => exact execUndock_keepsTables p params s
  | report p params => exact execReport_keepsTables p params s
  | grantAck p params => exact execGrantAck_keepsTables p params s
  | clearFault p params => exact execClearFault_keepsTables p params s
  | readGrants p => exact .read rfl
  | setClock p params => exact execSetClock_keepsTables p params s
  | setSupply p params => exact execSetSupply_keepsTables p params s
  | otherLoad p params => exact .next (s.transact_keepsTables _ _ _ _ (s.takeReading_keepsTables _))
  | hold p => exact execHold_keepsTables p s
  | resume p => exact execResume_keepsTables p s
  | setZone p params => exact execSetZone_keepsTables p params s
  | zoneOn p => exact execZoneOn_keepsTables p s
  | zoneOff p => exact execZoneOff_keepsTables p s
  | setSite p params => exact .next (s.transact_keepsTables _ _ _ _ (s.setSite_keepsTables _))
  | setWindow p params => exact execSetWindow_keepsTables p params s
  | tableWrite p => exact execTableWrite_keepsTables p s
  | profileEntryTake p b => exact execProfileEntryTake_keepsTables p b s
  | scheduleEntryTake p b => exact execScheduleEntryTake_keepsTables p b s
  | tableRead p part => exact execTableRead_keepsTables p part s
  | addDeparture p params => exact execAddDeparture_keepsTables p params s
  | cancelDeparture p params => exact execCancelDeparture_keepsTables p params s
  | draw p params => exact execDraw_keepsTables p params s
  | cancelDraw p params => exact execCancelDraw_keepsTables p params s
  | quarantine p params => exact execQuarantine_keepsTables p params s
  | release p params => exact execRelease_keepsTables p params s
  | forget p params => exact execForget_keepsTables p params s
  | latchCounters p => exact .next (s.transact_keepsTables _ _ _ _ s.latch_keepsTables)
  | softReset p => exact .next (s.transact_keepsTables _ _ _ _ s.softReset_keepsTables)
  | timebaseSecond upsets => exact execTimebaseSecond_keepsTables upsets s
  | clockMinuteChange => exact execClockMinuteChange_keepsTables s
  | scrubVisit => exact .whenDue _ s.visit_keepsTables
  | reportTimeoutSilent b => exact .whenDue _ (s.becomeSilent_evolves b).keepsTables
  | lostTimeout b => exact .whenDue _ (s.becomeLost_evolves b).keepsTables
  | stallHoldEnd b => exact .whenDue _ (s.endStallHold_evolves b).keepsTables
  | equaliseEnd b => exact .whenDue _ (s.endEqualise_evolves b).keepsTables
  | restEnd b => exact .whenDue _ (s.endRest_evolves b).keepsTables
  | confirmTimerExpiry b => exact .whenDue _ (s.timeOut_evolves b).keepsTables
  | meterStale => exact .whenDue _ ((s.resupply_keepsTables _).trans (State.notify_evolves _ _ _).keepsTables)
  | windDownEnd => exact .whenDue _ ((s.resupply_keepsTables _).trans (State.notify_evolves _ _ _).keepsTables)
  | rampEnd => exact .whenDue _ s.endRamp_keepsTables
  | allocationPeriodExpiry => exact .whenDue _ (s.allocate_keepsTables.trans (.ofSame rfl rfl))
  | allocationPass => exact .whenDue _ s.allocate_keepsTables
  | planningPass => exact .whenDue _ s.plan_evolves.keepsTables
  | tableWriteStreamEnd p => exact execTableWriteStreamEnd_keepsTables p s

end Sys2Proof.Machine

open Sys2Proof.Machine in
/-- Settles O58: every command keeps the laws (exec_keepsTables), and on an empty queue the part idles. -/
theorem stepKeepsTablesLawful : Obligations.StepKeepsTablesLawful := by
  intro s t taken sane lawful
  unfold step at taken
  split at taken
  · cases taken
    exact ⟨sane, lawful⟩
  · exact exec_keepsTables _ _ t taken sane lawful
end

section
/-!
Facts that the proofs of the statements share: numbers as places of a table, the first place with a property, bays by number, a sound
roster under its accesses, and the transactions that leave the state but for their port.
-/

namespace Sys2Proof.Machine

/-! ### Places of a table -/

theorem index_eq_some {n v : Nat} {i : Fin n} : index n v = some i ↔ v = i.val := by
  unfold index
  split
  · rename_i below
    rw [Option.some_inj, Fin.ext_iff]
  · rename_i above
    exact ⟨nofun, fun e => absurd (e ▸ i.isLt) above⟩

theorem index_val {n : Nat} (i : Fin n) : index n i.val = some i := index_eq_some.mpr rfl

theorem index_eq_none {n v : Nat} : index n v = none ↔ n ≤ v := by
  unfold index
  split <;> simp <;> omega

/-- The first place with a property, where it is the only one. -/
theorem find?_finRange_of_unique {n : Nat} {ok : Fin n → Bool} {i : Fin n} (holds : ok i = true) (only : ∀ j, ok j = true → j = i) :
    (List.finRange n).find? ok = some i := by
  cases found : (List.finRange n).find? ok with
  | none => exact absurd holds (by simpa using List.find?_eq_none.mp found i (List.mem_finRange i))
  | some j => rw [only j (List.find?_some found)]

/-- No place with a property. -/
theorem find?_finRange_eq_none {n : Nat} {ok : Fin n → Bool} :
    (List.finRange n).find? ok = none ↔ ∀ j, ok j = false := by
  simp [List.find?_eq_none]

/-- The lowest place with a property. -/
theorem find?_finRange_of_least {n : Nat} {ok : Fin n → Bool} {i : Fin n} (holds : ok i = true)
    (least : ∀ j, j < i → ok j = false) : (List.finRange n).find? ok = some i := by
  rw [List.find?_eq_some_iff_append]
  obtain ⟨before, after, split⟩ := List.append_of_mem (List.mem_finRange i)
  refine ⟨holds, before, after, split, fun j earlier => ?_⟩
  have sorted : (List.finRange n).Pairwise (· < ·) := List.pairwise_lt_finRange n
  rw [split, List.pairwise_append] at sorted
  simp [least j (sorted.2.2 j earlier i (by simp))]

theorem mem_allSlots (i : SlotId) : i ∈ allSlots := List.mem_finRange i

theorem mem_allBays (b : BayId) : b ∈ allBays := List.mem_finRange b

/-- Bytes are below 256. -/
theorem byteAt_lt (ps : List Byte) (i : Nat) : byteAt ps i < 256 := (ps.getD i 0).isLt

theorem u16At_lt (ps : List Byte) (i : Nat) : u16At ps i < 65536 := by
  have high := byteAt_lt ps i
  have low := byteAt_lt ps (i + 1)
  unfold u16At
  omega

theorem u32At_lt (ps : List Byte) (i : Nat) : u32At ps i < 2 ^ 32 := by
  have high := u16At_lt ps i
  have third := byteAt_lt ps (i + 2)
  have fourth := byteAt_lt ps (i + 3)
  unfold u32At u24At
  omega

/-- A number of four bytes is the tag 0 only as 0. -/
theorem tagAt_eq_zero (ps : List Byte) (i : Nat) : tagAt ps i = 0 ↔ u32At ps i = 0 := by
  have bound := u32At_lt ps i
  rw [tagAt, ← BitVec.toNat_inj, BitVec.toNat_ofNat, Nat.mod_eq_of_lt bound]
  rfl

/-! ### Bays by number -/

theorem clusterOf_globalBay (c : ClusterId) (k : Fin 4) : clusterOf (globalBay c k) = c := by
  apply Fin.ext
  simp only [clusterOf, globalBay]
  omega

theorem localOf_globalBay (c : ClusterId) (k : Fin 4) : localOf (globalBay c k) = k := by
  apply Fin.ext
  simp only [localOf, globalBay]
  omega

theorem State.clusterOfPort_eq_some (s : State) (p : PortId) (c : ClusterId) :
    s.clusterOfPort p = some c ↔ (s.port p).role = .cluster c := by
  unfold State.clusterOfPort
  cases (s.port p).role <;> simp

/-- A local number names a bay of its cluster port's cluster (R177). -/
theorem State.localBay_eq_some (s : State) (p : PortId) (n : Nat) (b : BayId) :
    s.localBay p n = some b ↔ ∃ (c : ClusterId) (k : Fin 4), (s.port p).role = .cluster c ∧ n = k.val ∧ b = globalBay c k := by
  simp only [← State.clusterOfPort_eq_some, ← index_eq_some]
  unfold State.localBay
  split
  · rename_i c k role number
    rw [role, number, Option.some_inj]
    exact ⟨fun e => ⟨c, k, rfl, rfl, e.symm⟩, fun ⟨_, _, hc, hk, e⟩ => by cases hc; cases hk; exact e.symm⟩
  · rename_i unnamed
    exact ⟨nofun, fun ⟨c, k, hc, hk, _⟩ => (unnamed c k hc hk).elim⟩

/-! ### A sound roster -/

/-- On a sound roster an access changes nothing (R17). -/
theorem State.sound.access {s : State} (h : s.sound) (i : SlotId) : s.access i = s := by
  unfold State.access
  rw [h i]

theorem State.sound.accessAll {s : State} (h : s.sound) (l : List SlotId) : s.accessAll l = s := by
  unfold State.accessAll
  induction l with
  | nil => rfl
  | cons i l ih => rw [List.foldl_cons, h.access, ih]

theorem State.sound.accessDocked {s : State} (h : s.sound) (b : BayId) : s.accessDocked b = s := by
  unfold State.accessDocked
  split
  · exact h.access _
  · rfl

/-- On a sound roster every check code is the clean one, so writing that code changes nothing. -/
theorem State.sound.checks_set {s : State} (h : s.sound) (i : SlotId) : s.checks.set i .clean = s.checks := by
  have clean : s.checks[i] = .clean := h i
  rw [← clean]
  exact set_self s.checks i

/-! ### Transactions that change their port alone -/

/-- A read that leaves its effect t, which keeps the port's last result (R174). -/
theorem State.transact_reads {s t : State} {p : PortId} {row : CommandRow} {params : List Byte} {act : State → Reply}
    {r : ResultCode} {body : List Byte} (h : s.accepts p row params = true) (w : row.take ≠ .selectRise)
    (e : act s = ⟨t, r, body⟩) (k : (t.port p).lastResult = (s.port p).lastResult) :
    s.transact p row params act = t.setPort p ((t.port p).answered row.parameters r body) := by
  rw [s.transact_answered p row params act h w (by rw [e]; exact k), e]

/-- A read that answers with the state as it is (R174). -/
theorem State.transact_read {s : State} {p : PortId} {row : CommandRow} {params : List Byte} {act : State → Reply}
    {r : ResultCode} {body : List Byte} (h : s.accepts p row params = true) (w : row.take ≠ .selectRise)
    (e : act s = ⟨s, r, body⟩) :
    s.transact p row params act = s.setPort p ((s.port p).answered row.parameters r body) :=
  State.transact_reads h w e rfl

/-- A write that leaves its effect t, which keeps the port's last result (R174). -/
theorem State.transact_writes {s t : State} {p : PortId} {row : CommandRow} {params : List Byte} {act : State → Reply}
    {r : ResultCode} (h : s.accepts p row params = true) (w : row.take = .selectRise) (e : act s = t.reply r)
    (k : (t.port p).lastResult = (s.port p).lastResult) :
    s.transact p row params act = t.setPort p ((t.port p).wrote params r) := by
  rw [s.transact_wrote p row params act h w (by rw [e]; exact k), e]
  rfl

/-- A write that is refused, or has nothing to do, with the state as it is (R174). -/
theorem State.transact_reply {s : State} {p : PortId} {row : CommandRow} {params : List Byte} {act : State → Reply}
    {r : ResultCode} (h : s.accepts p row params = true) (w : row.take = .selectRise) (e : act s = s.reply r) :
    s.transact p row params act = s.setPort p ((s.port p).wrote params r) :=
  State.transact_writes h w e rfl

end Sys2Proof.Machine
end

section
/-!
Transactions at a port: which command the bytes are, and the refusals of the checks before a command's own (R174, R177).
-/

namespace Sys2Proof.Machine

/-- An outcome refuses a transaction as checks 1, 3 and 4 of R177 ask, in their order. -/
def State.RefusesEarly (s : State) (p : PortId) (row : CommandRow) (params : List Byte) (r : Result) : Prop :=
  (s.phase ≠ .running → r = .next (s.setPort p ((s.port p).ended .starting []))) ∧
    (s.phase = .running → (s.port p).role.mayIssue row.cls = false → r = .next (s.setPort p ((s.port p).ended .role []))) ∧
    (s.phase = .running → (s.port p).role.mayIssue row.cls = true → params.length < row.parameters →
      r = .next (s.setPort p ((s.port p).ended .short (List.replicate params.length 0xFF))))

theorem State.transact_refusesEarly (s : State) (p : PortId) (row : CommandRow) (params : List Byte) (act : State → Reply) :
    s.RefusesEarly p row params (.next (s.transact p row params act)) :=
  ⟨fun a => congrArg _ (s.transact_starting p row params act a),
    fun a b => congrArg _ (s.transact_role p row params act a b),
    fun a b c => congrArg _ (s.transact_short p row params act a b c)⟩

/-- TABLE_WRITE asks no parameters: two of the checks are its own (R177, R179). -/
theorem execTableWrite_refusesEarly (p : PortId) (s : State) :
    s.RefusesEarly p rowTableWrite [] (execTableWrite p s) := by
  refine ⟨fun a => ?_, fun a b => ?_, fun _ _ c => absurd c (Nat.not_lt_zero _)⟩
  · unfold execTableWrite
    rw [if_pos (by simp [a]), State.refuseCode_eq]
  · unfold execTableWrite
    rw [if_neg (by simp [a]), if_pos (by simp [b]), State.refuseCode_eq]

/-- A TABLE_READ that is not taken opens no reading (R180). -/
theorem State.beginReading_of_refused (s : State) (p : PortId) (r : ResultCode) (after : List Byte) (h : r ≠ .ok)
    (refused : (s.transact p rowTableRead [] fun t => if (t.port p).window.isSome then t.answer [] else t.reply .state) =
      s.setPort p ((s.port p).ended r after)) :
    s.beginReading p = s.setPort p ((s.port p).ended r after) := by
  unfold State.beginReading
  dsimp only
  rw [refused, if_neg]
  simp [Port.ended, h]

theorem execTableRead_refusesEarly (p : PortId) (s : State) :
    s.RefusesEarly p rowTableRead [] (execTableRead p .command s) :=
  ⟨fun a => congrArg _ (s.beginReading_of_refused p _ _ (by decide) (s.transact_starting p _ _ _ a)),
    fun a b => congrArg _ (s.beginReading_of_refused p _ _ (by decide) (s.transact_role p _ _ _ a b)),
    fun _ _ c => absurd c (Nat.not_lt_zero _)⟩

/-- Every command that is a transaction is refused by the checks before its own (R177). -/
theorem exec_refusesEarly (c : Instr) (p : PortId) (row : CommandRow) (params : List Byte) (s : State)
    (h : c.transaction = some (p, row, params)) : s.RefusesEarly p row params (exec c s) := by
  cases c with
  | tableWrite q => cases h; exact execTableWrite_refusesEarly _ s
  | tableRead q part =>
    cases part with
    | command => cases h; exact execTableRead_refusesEarly _ s
    | nextEntry => cases h
  | _ => cases h <;> exact s.transact_refusesEarly _ _ _ _

/-- The command of a transaction is the one whose row and parameters it has (R174, 11.3). -/
theorem commandOfBytes_of_transaction (c : Instr) (p : PortId) (row : CommandRow) (params : List Byte)
    (h : c.transaction = some (p, row, params)) : commandOfBytes p (row.code :: params) = c := by
  cases c with
  | tableRead q part => cases part <;> cases h; rfl
  | _ => cases h <;> rfl

/-- The commands that codes name stand in the rows of the command table, in its order (11.3). -/
theorem commandSpellings_rows : commandSpellings.map (·.row) = commandTable := rfl

theorem knownCode_iff (code : Byte) : knownCode code = true ↔ ∃ row ∈ commandTable, row.code = code := by
  simp only [knownCode, List.any_eq_true, beq_iff_eq]

/-- A code outside the command table names no command. -/
theorem commandOfBytes_of_unknown (p : PortId) (code : Byte) (params : List Byte) (h : knownCode code = false) :
    commandOfBytes p (code :: params) = .unknownCode p code := by
  have unspelled : (commandSpellings.find? fun x => x.row.code == code) = none := by
    refine List.find?_eq_none.mpr fun x member named => ?_
    have known : knownCode code = true :=
      (knownCode_iff code).mpr ⟨x.row, commandSpellings_rows ▸ List.mem_map_of_mem member, eq_of_beq named⟩
    rw [known] at h
    cases h
  simp only [commandOfBytes, unspelled]

theorem execUnknownCode_eq (p : PortId) (code : Byte) (s : State) (h : knownCode code = false) :
    exec (.unknownCode p code) s =
      .next (s.setPort p ((s.port p).ended (if s.phase = .running then .unknown else .starting) [])) := by
  have taken : exec (.unknownCode p code) s = execUnknownCode p code s := rfl
  rw [taken, execUnknownCode, if_neg (by simp [h]), State.refuseCode_eq]
  simp only [beq_iff_eq]

theorem execShortTransaction_eq (p : PortId) (s : State) :
    exec (.shortTransaction p) s = .next (s.setPort p { s.port p with
      lastResult := if s.phase = .running then .short else .starting, stream := none, held := [], reading := none
      out := [] }) := by
  have taken : exec (.shortTransaction p) s = execShortTransaction p s := rfl
  rw [taken, execShortTransaction, State.fixResult]
  simp only [beq_iff_eq]

end Sys2Proof.Machine

open Sys2Proof Sys2Proof.Machine in
/-- Settles O3: the command table by its rows, the command of a transaction's bytes, and the refusals before a command's own checks
(exec_refusesEarly). -/
theorem portChecksInOrder : Obligations.PortChecksInOrder :=
  ⟨rfl, rfl, rfl, knownCode_iff, rfl, commandOfBytes_of_transaction,
    fun p params => ⟨rfl, rfl, fun code h => commandOfBytes_of_unknown p code params h⟩,
    fun c p row params s h => exec_refusesEarly c p row params s h,
    fun p s => ⟨fun code h => execUnknownCode_eq p code s h, execShortTransaction_eq p s⟩⟩
end

section
/-!
The reads of the depot's figures and of the roster (R6, R8, R41, R83, R97, R98, R131, R136, R141, R162).
-/

namespace Sys2Proof.Machine

/-! ### Reads that change nothing -/

/-- One byte carries a set of eight flags. -/
theorem be_flags (f : FlagSet 8) : be 1 f.toNat = [f] := by simp [be]

theorem execReadMarks_eq (p : PortId) (s : State) (h : s.accepts p rowReadMarks [] = true) :
    exec (.readMarks p) s = .next (s.setPort p ((s.port p).answered 0 .ok [(s.port p).marks])) := by
  rw [← be_flags]
  exact congrArg _ (State.transact_read h (by decide) rfl)

/-- The bays in a port's scope, by its role (R83). -/
theorem State.scopeBays_eq (s : State) (p : PortId) :
    s.scopeBays p = match (s.port p).role with
      | .cluster c => (List.finRange 4).map (globalBay c)
      | _ => List.finRange 16 := by
  unfold State.scopeBays State.clusterOfPort
  cases (s.port p).role <;> rfl

theorem execReadCounters_eq (p : PortId) (s : State) (h : s.accepts p rowReadCounters [] = true) :
    exec (.readCounters p) s = .next (s.setPort p ((s.port p).answered 0 .ok
      (be 2 s.latchNumber ++
        ((match (s.port p).role with
          | .cluster c => (List.finRange 4).map (globalBay c)
          | _ => List.finRange 16).flatMap fun b =>
            counterBytes (s.bay b).images ++ be 1 (saturatedByte (s.bay b).images)) ++
        be 2 s.corrected))) := by
  have read := State.transact_read (act := fun t => t.answer (t.countersBody p)) h (by decide) rfl
  unfold State.countersBody at read
  rw [State.scopeBays_eq] at read
  exact congrArg _ read

/-- The clock's part of READ_CLOCK's answer: absent while the clock is UNSET (R136). -/
theorem State.clockBody_eq (s : State) :
    s.clockBody = (match s.clock with
      | some c => be 1 1 ++ be 2 c.minute ++ be 1 c.second
      | none => [0x00, 0xFF, 0xFF, 0xFF]) ++ be 2 s.site.horizon ++ be 1 s.site.grace := by
  unfold State.clockBody
  cases s.clock <;> rfl

theorem execReadClock_eq (p : PortId) (s : State) (h : s.accepts p rowReadClock [] = true) :
    exec (.readClock p) s = .next (s.setPort p ((s.port p).answered 0 .ok
      ((match s.clock with
        | some c => be 1 1 ++ be 2 c.minute ++ be 1 c.second
        | none => [0x00, 0xFF, 0xFF, 0xFF]) ++ be 2 s.site.horizon ++ be 1 s.site.grace))) := by
  rw [← State.clockBody_eq]
  exact congrArg _ (State.transact_read h (by decide) rfl)

theorem execReadGrants_eq (p : PortId) (s : State) (c : ClusterId) (role : (s.port p).role = .cluster c)
    (h : s.accepts p rowReadGrants [] = true) :
    exec (.readGrants p) s = .next (s.setPort p ((s.port p).answered 0 .ok
      (((List.finRange 4).flatMap fun k =>
        be 2 (s.bay (globalBay c k)).grant ++ be 2 (s.bay (globalBay c k)).allowance ++
          be 2 (s.bay (globalBay c k)).power ++
          optionBe 2 ((s.pendingList.find? fun x => x.bay == globalBay c k).map (·.grant)) ++
          optionBe 1 (s.bay (globalBay c k)).confirmTimer) ++
        be 3 s.budget ++ be 1 (allBays.countP fun b => (s.bay b).reduction)))) := by
  have read := State.transact_read (act := fun t => t.answer (t.grantsBody p)) h (by decide) rfl
  unfold State.grantsBody at read
  rw [State.scopeBays_eq, role, List.flatMap_map] at read
  exact congrArg _ read

/-- The bay that a common command names, by its port's role (00_scope.md 0.6.3). -/
theorem State.namedBay_eq (s : State) (p : PortId) (n : Nat) :
    s.namedBay p n = match (s.port p).role, index 4 n, index 16 n with
      | .cluster c, some k, _ => some (globalBay c k)
      | .cluster _, none, _ => none
      | _, _, b => b := by
  unfold State.namedBay State.localBay State.clusterOfPort
  cases (s.port p).role <;> cases index 4 n <;> rfl

theorem execReadBay_eq (p : PortId) (params : List Byte) (s : State) (h : s.accepts p rowReadBay params = true) :
    exec (.readBay p params) s = .next (s.setPort p (match s.namedBay p (byteAt params 0) with
      | some b => (s.port p).answered 1 .ok (s.bayBytes b)
      | none => (s.port p).answered 1 .range [])) := by
  refine congrArg Host.Outcome.next ?_
  cases named : s.namedBay p (byteAt params 0) with
  | some b => exact State.transact_read h (by decide) (by rw [named]; rfl)
  | none => exact State.transact_read h (by decide) (by rw [named]; rfl)

theorem execReadDeparture_eq (p : PortId) (params : List Byte) (s : State) (h : s.accepts p rowReadDeparture params = true) :
    exec (.readDeparture p params) s = .next (s.setPort p (match index 48 (byteAt params 0) with
      | some e => (s.port p).answered 1 .ok (s.departureBody e)
      | none => (s.port p).answered 1 .range [])) := by
  refine congrArg Host.Outcome.next ?_
  cases index 48 (byteAt params 0) <;> exact State.transact_read h (by decide) rfl

/-- READ_RECALL for a queue in range: a cluster port reads its own alone (R162). -/
theorem execReadRecall_inRange (p : PortId) (params : List Byte) (s : State) (c : ClusterId)
    (h : s.accepts p rowReadRecall params = true) (named : index 4 (byteAt params 0) = some c) :
    exec (.readRecall p params) s = .next (s.setPort p (match (s.port p).role with
      | .cluster d => if d = c then (s.port p).answered 1 .ok (s.recallBody p c) else (s.port p).answered 1 .scope []
      | _ => (s.port p).answered 1 .ok (s.recallBody p c))) := by
  refine congrArg Host.Outcome.next ?_
  cases role : (s.port p).role with
  | cluster d =>
    have own : s.clusterOfPort p = some d := (s.clusterOfPort_eq_some p d).mpr role
    dsimp only
    by_cases same : d = c
    · rw [if_pos same]
      exact State.transact_read h (by decide) (by simp [named, own, same, State.answer])
    · rw [if_neg same]
      exact State.transact_read h (by decide) (by simp [named, own, same, State.reply])
  | depot | observer | off =>
    have free : s.clusterOfPort p = none := by simp only [State.clusterOfPort, role]
    exact State.transact_read h (by decide) (by simp [named, free, State.answer])

theorem execReadRecall_eq (p : PortId) (params : List Byte) (s : State) (h : s.accepts p rowReadRecall params = true) :
    exec (.readRecall p params) s = .next (s.setPort p
      (match index 4 (byteAt params 0) with
      | some c =>
        (match (s.port p).role with
        | .cluster d => if d = c then (s.port p).answered 1 .ok (s.recallBody p c) else (s.port p).answered 1 .scope []
        | _ => (s.port p).answered 1 .ok (s.recallBody p c))
      | none => (s.port p).answered 1 .range [])) := by
  cases named : index 4 (byteAt params 0) with
  | some c => exact execReadRecall_inRange p params s c h named
  | none => exact congrArg _ (State.transact_read h (by decide) (by rw [named]; rfl))

/-! ### READ_SUPPLY and READ_GROUP -/

/-- The byte by which an answer to the port names a bay (R184). -/
def State.bayByte (s : State) (p : PortId) (b : BayId) : Byte := (s.bayNumber p b).getD 0 0

theorem State.bayNumber_eq (s : State) (p : PortId) (b : BayId) : s.bayNumber p b = [s.bayByte p b] := by
  unfold State.bayByte State.bayNumber
  split
  · split <;> rfl
  · rfl

/-- To its own cluster's port a bay is its local number. -/
theorem State.bayByte_local (s : State) (p : PortId) (c : ClusterId) (k : Fin 4) (role : (s.port p).role = .cluster c) :
    s.bayByte p (globalBay c k) = BitVec.ofNat 8 k.val := by
  have own := (s.clusterOfPort_eq_some p c).mpr role
  simp [State.bayByte, State.bayNumber, own, clusterOf_globalBay, localOf_globalBay, be]

/-- To any other port a bay is its global number. -/
theorem State.bayByte_global (s : State) (p : PortId) (b : BayId) (role : ∀ c, (s.port p).role ≠ .cluster c) :
    s.bayByte p b = BitVec.ofNat 8 b.val := by
  have free : s.clusterOfPort p = none := by
    cases own : s.clusterOfPort p with
    | none => rfl
    | some c => exact absurd ((s.clusterOfPort_eq_some p c).mp own) (role c)
  simp [State.bayByte, State.bayNumber, free, be]

theorem optionBe_length (n : Nat) (v : Option Nat) : (optionBe n v).length = n := by
  cases v
  · exact List.length_replicate
  · exact be_length _ _

/-- The figures of READ_SUPPLY's answer before the zone (R98). -/
def State.supplyFigures (s : State) : List Byte :=
  be 3 s.supply.limit ++ be 2 s.supply.reserve ++ be 1 s.supply.meterMode.code ++ be 1 s.supply.condition.code ++
    optionBe 2 s.supply.age ++ be 1 s.supply.readings.length ++ s.supply.readings.flatMap (be 3) ++
    absentField (3 * (8 - s.supply.readings.length)) ++ be 3 s.supply.otherLoad ++ be 3 s.supply.openBudget ++
    be 3 s.budget ++ be 3 s.supply.passFigure ++ be 1 s.supply.hold.code ++ optionBe 1 s.supply.holdSeconds ++
    be 1 s.site.rampTime

/-- The figures take 49 bytes, the window of eight readings among them. -/
theorem State.supplyFigures_length (s : State) (h : s.supply.readings.length ≤ 8) : s.supplyFigures.length = 49 := by
  simp only [State.supplyFigures, List.length_append, be_length, optionBe_length, List.length_flatMap, absentField,
    List.length_replicate, List.map_const', List.sum_replicate, smul_eq_mul]
  omega

theorem State.supplyBody_eq (s : State) (p : PortId) :
    s.supplyBody p = s.supplyFigures ++ [s.bayByte p s.supply.zoneFirst, s.bayByte p s.supply.zoneLast] ++
      be 1 (if s.supply.zoneOn then 1 else 0) ++ be 3 (s.port p).peak := by
  unfold State.supplyBody State.supplyFigures
  simp only [State.bayNumber_eq, flagByte, bitOf, pow_zero, List.append_assoc, List.cons_append, List.nil_append]

theorem execReadSupply_eq (p : PortId) (s : State) (h : s.accepts p rowReadSupply [] = true) :
    exec (.readSupply p) s = .next (s.setPort p
      ((({ s.port p with peak := s.supply.otherLoad } : Port)).answered 0 .ok (s.supplyBody p))) := by
  refine congrArg Host.Outcome.next ((State.transact_reads h (by decide) rfl (by rw [State.setPort_port_self])).trans ?_)
  rw [State.setPort_port_self, State.setPort_setPort]
  rfl

theorem execReadGroup_eq (p : PortId) (params : List Byte) (s : State) (g : GroupId)
    (h : s.accepts p rowReadGroup params = true) (named : byteAt params 0 = g.val) (sound : s.sound) :
    exec (.readGroup p params) s = .next (s.setPort p
      ((({ s.port p with marks := (s.port p).marks &&& ~~~ BitVec.twoPow 8 g } : Port)).answered 1 .ok
        ((List.finRange 8).flatMap fun k =>
          packBytes ⟨8 * g.val + k.val, by omega⟩ (s.record ⟨8 * g.val + k.val, by omega⟩)))) := by
  refine congrArg Host.Outcome.next ((State.transact_reads (t := s.clearMark p g) (r := .ok)
    (body := (slotsOf g).flatMap fun i => packBytes i (s.record i)) h (by decide) ?_ ?_).trans ?_)
  · rw [named, index_val]
    dsimp only
    rw [sound.accessAll]
    rfl
  · rw [State.clearMark, State.setPort_port_self]
  · rw [State.clearMark, State.setPort_port_self, State.setPort_setPort, slotsOf, List.flatMap_map]
    rfl

/-! ### READ_PACK -/

section Pack

variable {p : PortId} {params : List Byte} {s : State}

/-- READ_PACK by its view (R6). -/
theorem execReadPack_view (h : s.accepts p rowReadPack params = true) (r : ResultCode) (body : List Byte)
    (view : (match byteAt params 0 with
      | 0 => s.readBySlot (u32At params 1)
      | 1 => s.readByTag (u32At params 1)
      | 2 => s.readByBay p (u32At params 1)
      | 3 => s.readBySweeper (u32At params 1)
      | _ => s.reply .range) = ⟨s, r, body⟩) :
    exec (.readPack p params) s = .next (s.setPort p ((s.port p).answered 5 r body)) :=
  congrArg _ (State.transact_read h (by decide) view)

theorem State.sound.readBySlot (sound : s.sound) (i : SlotId) :
    s.readBySlot i.val = ⟨s, .ok, packBytes i (s.record i)⟩ := by
  rw [State.readBySlot, index_val]
  dsimp only
  rw [sound.access]
  rfl

theorem State.readBySlot_range (key : Nat) (h : 64 ≤ key) : s.readBySlot key = ⟨s, .range, []⟩ := by
  rw [State.readBySlot, index_eq_none.mpr h]
  rfl

/-- The record that alone holds a known tag is the one a lookup finds (R4). -/
theorem State.slotOfTag_of_unique (t : Tag) (i : SlotId) (known : t ≠ 0) (holds : (s.record i).tag = t)
    (present : (s.record i).lifecycle ≠ .free)
    (only : ∀ j, (s.record j).lifecycle ≠ .free → (s.record j).tag = t → j = i) : s.slotOfTag t = some i := by
  rw [State.slotOfTag, if_neg known]
  apply find?_finRange_of_unique
  · simp [holds, present]
  · intro j found
    simp only [Bool.and_eq_true, beq_iff_eq, bne_iff_ne] at found
    exact only j found.2 found.1

/-- A lookup of a tag that no record holds finds none (R4). -/
theorem State.slotOfTag_eq_none (t : Tag) (absent : ∀ j, (s.record j).lifecycle ≠ .free → (s.record j).tag ≠ t) :
    s.slotOfTag t = none := by
  unfold State.slotOfTag
  split
  · rfl
  · refine find?_finRange_eq_none.mpr fun j => ?_
    by_cases present : (s.record j).lifecycle = .free
    · simp [present]
    · simp [absent j present]

theorem State.sound.readByTag (sound : s.sound) (key : Nat) (known : key ≠ 0) :
    s.readByTag key = match s.slotOfTag (BitVec.ofNat 32 key) with
      | some i => ⟨s, .ok, packBytes i (s.record i)⟩
      | none => ⟨s, .notFound, []⟩ := by
  unfold State.readByTag
  rw [if_neg known]
  dsimp only
  rw [sound.accessAll]
  cases s.slotOfTag (BitVec.ofNat 32 key) <;> rfl

/-- A known key of four bytes is a known tag. -/
theorem tag_ne_zero (h : u32At params 1 ≠ 0) : BitVec.ofNat 32 (u32At params 1) ≠ 0 := fun e =>
  h ((tagAt_eq_zero params 1).mp e)

/-- A bay's number at a port: local at a cluster port, global elsewhere (00_scope.md 0.6.3). -/
theorem State.namedBay_eq_some (s : State) (p : PortId) (key : Nat) (b : BayId) :
    s.namedBay p key = some b ↔ match (s.port p).role with
      | .cluster c => ∃ k : Fin 4, key = k.val ∧ b = globalBay c k
      | _ => key = b.val := by
  rw [State.namedBay_eq]
  cases (s.port p).role with
  | cluster c =>
    cases named : index 4 key with
    | none =>
      have above := index_eq_none.mp named
      exact ⟨nofun, fun ⟨k, e, _⟩ => by omega⟩
    | some k =>
      have number := index_eq_some.mp named
      simp only [Option.some_inj]
      constructor
      · exact fun e => ⟨k, number, e.symm⟩
      · rintro ⟨j, e, rfl⟩
        rw [Fin.ext (number.symm.trans e)]
  | depot | observer | off => exact index_eq_some

theorem State.sound.readByBay (sound : s.sound) (key : Nat) (b : BayId) (named : s.namedBay p key = some b) :
    s.readByBay p key = match (s.bay b).slot with
      | some i => ⟨s, .ok, packBytes i (s.record i)⟩
      | none => ⟨s, .notFound, []⟩ := by
  unfold State.readByBay
  rw [named]
  dsimp only
  cases (s.bay b).slot with
  | some i =>
    dsimp only
    rw [sound.access]
    rfl
  | none => rfl

theorem State.sound.readBySweeper (sound : s.sound) (w : SweeperId) (named : w ≠ 0) :
    s.readBySweeper w.val = match s.slotForSweeper w .issued, s.slotForSweeper w .called with
      | none, none => ⟨s, .notFound, []⟩
      | issued, called => ⟨s, .ok, s.optionalPack issued ++ s.optionalPack called⟩ := by
  unfold State.readBySweeper
  rw [index_val]
  dsimp only
  rw [if_neg named, sound.accessAll]
  cases s.slotForSweeper w .issued <;> cases s.slotForSweeper w .called <;> rfl

theorem State.readBySweeper_range (key : Nat) (h : key = 0 ∨ 64 ≤ key) : s.readBySweeper key = ⟨s, .range, []⟩ := by
  unfold State.readBySweeper
  rcases h with zero | above
  · have none : index 64 key = some 0 := index_eq_some.mpr zero
    rw [none]
    rfl
  · rw [index_eq_none.mpr above]
    rfl

/-- A sweeper that no record names has no record of any lifecycle. -/
theorem State.slotForSweeper_eq_none (w : SweeperId) (l : Lifecycle)
    (absent : ∀ i, (s.record i).lifecycle = l → (s.record i).sweeper ≠ some w) : s.slotForSweeper w l = none := by
  refine find?_finRange_eq_none.mpr fun i => ?_
  by_cases at_ : (s.record i).lifecycle = l
  · simp [at_, absent i at_]
  · simp [at_]

/-- The one record that names a sweeper is found under its own lifecycle. -/
theorem State.slotForSweeper_of_unique (w : SweeperId) (l : Lifecycle) (i : SlotId) (at_ : (s.record i).lifecycle = l)
    (names : (s.record i).sweeper = some w) (only : ∀ j, (s.record j).sweeper = some w → j = i) :
    s.slotForSweeper w l = some i := by
  apply find?_finRange_of_unique
  · simp [at_, names]
  · intro j found
    simp only [Bool.and_eq_true, beq_iff_eq] at found
    exact only j found.2

end Pack

end Sys2Proof.Machine

open Sys2Proof Sys2Proof.Machine

/-- Settles O9, read by read. -/
theorem readsChangeNothing : Obligations.ReadsChangeNothing := by
  refine ⟨fun p s => ⟨execReadMarks_eq p s, execReadCounters_eq p s, execReadClock_eq p s,
    fun c role h => execReadGrants_eq p s c role h⟩, fun p params s =>
    ⟨fun h => ?_, execReadDeparture_eq p params s, execReadRecall_eq p params s⟩⟩
  have answered := execReadBay_eq p params s h
  rw [State.namedBay_eq] at answered
  exact answered

/-- Settles O10. -/
theorem readsThatChangeTheirPort : Obligations.ReadsThatChangeTheirPort := by
  refine ⟨fun p s h => ⟨execReadSupply_eq p s h, s.supplyFigures, s.bayByte p s.supply.zoneFirst,
    s.bayByte p s.supply.zoneLast, s.supplyBody_eq p, s.supplyFigures_length, fun c k role => ⟨fun e => ?_, fun e => ?_⟩,
    fun role => ⟨s.bayByte_global p _ role, s.bayByte_global p _ role⟩⟩, fun p params s h =>
    ⟨fun g named sound => execReadGroup_eq p params s g h named sound, fun above => ?_⟩⟩
  · rw [e, s.bayByte_local p c k role]
  · rw [e, s.bayByte_local p c k role]
  · exact congrArg _ (State.transact_read h (by decide) (by rw [index_eq_none.mpr above]; rfl))

/-- Settles O11, view by view. -/
theorem readPackFindsItsRecord : Obligations.ReadPackFindsItsRecord := by
  intro p params s h sound answers key
  refine ⟨fun view i slot => ?_, fun view above => ?_, fun view i known holds present only => ?_, fun view known absent => ?_,
    fun view unknown => ?_, fun b => s.namedBay_eq_some p key b, fun view unnamed => ?_, fun view b named => ?_,
    fun view w sweeper named absent => ?_, fun view w i sweeper named issued names only => ?_, fun view out => ?_,
    fun view => ?_⟩
  · refine execReadPack_view h _ _ ?_
    rw [view]
    change s.readBySlot key = _
    rw [slot, sound.readBySlot]
  · refine execReadPack_view h _ _ ?_
    rw [view]
    exact State.readBySlot_range _ above
  · have found := State.slotOfTag_of_unique _ i (tag_ne_zero known) holds present fun j a e => only j a (e.trans holds.symm)
    refine execReadPack_view h _ _ ?_
    rw [view]
    change s.readByTag key = _
    rw [sound.readByTag _ known, found]
  · have none := State.slotOfTag_eq_none (s := s) (BitVec.ofNat 32 key) absent
    refine execReadPack_view h _ _ ?_
    rw [view]
    change s.readByTag key = _
    rw [sound.readByTag _ known, none]
  · refine execReadPack_view h _ _ ?_
    rw [view]
    exact if_pos unknown
  · refine execReadPack_view h _ _ ?_
    rw [view]
    change s.readByBay p key = _
    rw [State.readByBay, unnamed]
    rfl
  · have read := sound.readByBay key b named
    cases slot : (s.bay b).slot with
    | some i | none =>
      rw [slot] at read
      refine execReadPack_view h _ _ ?_
      rw [view]
      exact read
  · have read := sound.readBySweeper w named
    rw [State.slotForSweeper_eq_none w .issued fun i _ => absent i,
      State.slotForSweeper_eq_none w .called fun i _ => absent i] at read
    refine execReadPack_view h _ _ ?_
    rw [view]
    change s.readBySweeper key = _
    rw [sweeper, read]
  · have read := sound.readBySweeper w named
    have uncalled : s.slotForSweeper w .called = none := State.slotForSweeper_eq_none w .called fun j called held => by
      rw [only j held, issued] at called
      cases called
    rw [State.slotForSweeper_of_unique w .issued i issued names only, uncalled] at read
    refine execReadPack_view h _ _ ?_
    rw [view]
    change s.readBySweeper key = _
    rw [sweeper, read]
    rfl
  · refine execReadPack_view h _ _ ?_
    rw [view]
    exact State.readBySweeper_range _ out
  · refine execReadPack_view h _ _ ?_
    generalize byteAt params 0 = v at view
    match v, view with
    | v + 4, _ => rfl

end

section
/-!
The resets (R20 to R22, R36, R62, R63, R84, R99, R117, R132, R152, R166, R173, R183): the values of the part after power-on and the laws they
keep, the demotion of the records, and the ramp that begins.
-/

namespace Sys2Proof.Machine

/-! ### The values after power-on -/

section PoweredOn

variable (straps : Straps) (queue : List Instr)

@[simp] theorem State.poweredOn_record (i : SlotId) : (State.poweredOn straps queue).record i = freeRecord := get_replicate _ _

@[simp] theorem State.poweredOn_check (i : SlotId) : (State.poweredOn straps queue).check i = .clean := get_replicate _ _

@[simp] theorem State.poweredOn_profile (k : ProfileId) : (State.poweredOn straps queue).profile k = blankProfile :=
  get_replicate _ _

@[simp] theorem State.poweredOn_bay (b : BayId) : (State.poweredOn straps queue).bay b = emptyBay := get_replicate _ _

@[simp] theorem State.poweredOn_entry (e : EntryId) : (State.poweredOn straps queue).entry e = blankEntry := get_replicate _ _

@[simp] theorem State.poweredOn_queue (k : ProfileId) : (State.poweredOn straps queue).queue k = 0 := get_replicate _ _

@[simp] theorem State.poweredOn_recall (c : ClusterId) : (State.poweredOn straps queue).recall c = [] := get_replicate _ _

@[simp] theorem State.poweredOn_drawOf (w : SweeperId) : (State.poweredOn straps queue).drawOf w = none := get_replicate _ _

@[simp] theorem State.poweredOn_port (q : PortId) : (State.poweredOn straps queue).port q = resetPort straps 0 q := by
  simp [State.port, State.poweredOn, resetPorts]

/-- An empty bay's counters and images stand at 0 (R84). -/
theorem emptyBay_counters (k : Fin 5) : emptyBay.counters[k] = ⟨0, false⟩ ∧ emptyBay.images[k] = ⟨0, false⟩ :=
  ⟨get_replicate _ _, get_replicate _ _⟩

/-! ### The laws at power-on -/

theorem State.poweredOn_grantsCovered : (State.poweredOn straps queue).grantsCovered :=
  ⟨fun b => by rw [State.poweredOn_bay]; exact ⟨le_refl _, rfl, rfl⟩, nofun⟩

theorem CounterCell.whole_zero : (⟨0, false⟩ : CounterCell).whole := ⟨Nat.zero_le _, nofun, nofun⟩

theorem State.poweredOn_countersWhole : (State.poweredOn straps queue).countersWhole := by
  refine ⟨fun b k => ?_, Nat.zero_le _⟩
  rw [State.poweredOn_bay, (emptyBay_counters k).1, (emptyBay_counters k).2]
  exact ⟨CounterCell.whole_zero, CounterCell.whole_zero⟩

theorem State.poweredOn_grantsEarned : (State.poweredOn straps queue).grantsEarned :=
  ⟨fun b => by rw [State.poweredOn_bay]; exact nofun, nofun⟩

theorem State.poweredOn_profilesSane : (State.poweredOn straps queue).profilesSane := fun k => by
  rw [State.poweredOn_profile]
  exact nofun

theorem State.poweredOn_recordsLawful : (State.poweredOn straps queue).recordsLawful := fun i => by
  rw [State.poweredOn_record]
  exact ⟨Nat.zero_le _, Nat.zero_le _⟩

/-- An OFF port has no notice after a reset (R173), and no port holds a byte. -/
theorem resetPort_lawful (marks : FlagSet 8) (q : PortId) :
    (resetPort straps marks q).silentWhenOff ∧ (resetPort straps marks q).holdsPart := by
  refine ⟨fun off => ⟨?_, rfl, rfl⟩, rfl⟩
  have raised : (resetPort straps marks q).raised = resetNotices (resetPort straps marks q).role := rfl
  rw [raised, off]
  rfl

theorem defaultSite_inRange : defaultSite.inRange := by
  unfold Site.inRange
  decide

theorem resetSupply_inRange : resetSupply.inRange := by
  unfold Supply.inRange
  simp [resetSupply]

theorem State.poweredOn_settingsInRange : (State.poweredOn straps queue).settingsInRange :=
  ⟨defaultSite_inRange, resetSupply_inRange, nofun, nofun⟩

/-- No bay draws power after power-on (R104, R105). -/
theorem State.poweredOn_withinBudget : (State.poweredOn straps queue).withinBudget := by
  have total : (State.poweredOn straps queue).totalPower = 0 := by
    simp [State.totalPower, emptyBay]
  unfold State.withinBudget
  rw [total]
  exact Nat.zero_le _

end PoweredOn

/-! ### Demotion at a reset (R21, R22) -/

/-- One place of a table changed by a function. -/
def applyAt {α : Type} {n : Nat} (f : α → α) (v : Vector α n) (i : Fin n) : Vector α n := v.set i (f v[i])

/-- Places of a table changed one by one, each by a function that has no more effect the second time. -/
theorem get_foldl_applyAt {α : Type} {n : Nat} (f : α → α) (again : ∀ x, f (f x) = f x) (l : List (Fin n)) (v : Vector α n)
    (j : Fin n) : (l.foldl (applyAt f) v)[j] = if j ∈ l then f v[j] else v[j] := by
  induction l generalizing v with
  | nil => rfl
  | cons i l ih =>
    rw [List.foldl_cons, ih, applyAt, get_set]
    by_cases here : j = i
    · subst here
      simp [again]
    · simp [here]

theorem PackRecord.demoted_demoted (r : PackRecord) : r.demoted.demoted = r.demoted := by
  unfold PackRecord.demoted
  cases life : r.lifecycle <;> simp [life]

/-- On a sound roster a demotion is the write of the record. -/
theorem State.sound.demoteRecord {s : State} (h : s.sound) (i : SlotId) :
    s.demoteRecord i = { s with records := s.records.set i (s.record i).demoted } := by
  unfold State.demoteRecord
  split
  · rename_i same
    rw [same, State.record, set_self]
  · dsimp only
    rw [h.access]
    unfold State.storeRecord
    rw [h.checks_set]

/-- On a sound roster demotions write records and nothing else. -/
theorem State.sound.demoteAll {s : State} (h : s.sound) (l : List SlotId) :
    l.foldl State.demoteRecord s =
      { s with records := l.foldl (applyAt PackRecord.demoted) s.records } := by
  induction l generalizing s with
  | nil => rfl
  | cons i l ih =>
    rw [List.foldl_cons, h.demoteRecord, ih (s := { s with records := s.records.set i (s.record i).demoted }) h]
    rfl

/-- The records of a sound roster, all demoted. -/
def State.demotedRecords (s : State) : Vector PackRecord 64 := allSlots.foldl (applyAt PackRecord.demoted) s.records

theorem State.demotedRecords_get (s : State) (i : SlotId) : s.demotedRecords[i] = (s.record i).demoted := by
  unfold State.demotedRecords
  rw [get_foldl_applyAt _ PackRecord.demoted_demoted, if_pos (mem_allSlots i)]
  rfl

theorem PackRecord.demoted_eq (r : PackRecord) :
    r.demoted = match r.lifecycle with
      | .docked | .ready | .called => { r with
          lifecycle := .stored, bay := none, sweeper := none, reservation := none, readySince := none }
      | .quarantined => { r with bay := none }
      | _ => r := by
  unfold PackRecord.demoted
  cases r.lifecycle <;> rfl

theorem Entry.atReset_eq (e : Entry) :
    e.atReset = { e with
      status := if e.status = .finished then .finished else .idle, renewal := false, reserved := none } := by
  unfold Entry.atReset
  simp only [beq_iff_eq]

/-! ### Hard reset -/

/-- What a hard reset leaves of a sound roster's part (R21). -/
theorem State.sound.hardReset {s : State} (h : s.sound) (straps : Straps) :
    s.hardReset straps = { State.poweredOn straps s.pending with
      phase := .heldInReset
      ports := resetPorts straps (BitVec.allOnes 8)
      records := s.demotedRecords
      seenCounter := s.seenCounter
      profiles := s.profiles
      entries := updateAll s.entries fun _ e => e.atReset
      freeUses := s.freeUses } := by
  have clean : s.checks = Vector.replicate 64 .clean := vector_ext fun j => (h j).trans (get_replicate _ j).symm
  unfold State.hardReset
  rw [h.demoteAll]
  dsimp only
  rw [clean]
  rfl

/-! ### The ramp (R93, R99) -/

/-- The supply as a ramp begins: RAMPING from 0, or RUNNING at once where the ramp time is 0. -/
def Supply.startingRamp (x : Supply) (rampTime : Nat) : Supply :=
  { x with
    hold := if rampTime = 0 then .running else .ramping
    windDown := none
    elapsed := if rampTime = 0 then none else some 0 }

/-- The pass request of R90. -/
theorem State.checkBudget_eq (s : State) :
    s.checkBudget = { s with passMark := s.passMark || decide (s.budget < s.supply.passFigure) } := by
  unfold State.checkBudget
  split
  · rename_i below
    simp only [below, decide_true, Bool.or_true]
    rfl
  · rename_i above
    simp only [above, decide_false, Bool.or_false]

/-- The start of a ramp: the supply, the SUPPLY notice, and the pass request of R90. -/
theorem State.startRamp_eq (s : State) :
    s.startRamp = { s with
      supply := s.supply.startingRamp s.site.rampTime
      passMark := s.passMark ||
        decide ((s.setSupply (s.supply.startingRamp s.site.rampTime)).budget < s.supply.passFigure)
      ports := (s.notify .supply .part).ports } := by
  have supply : (if s.site.rampTime = 0 then { s.supply with hold := .running, windDown := none, elapsed := none }
      else { s.supply with hold := .ramping, windDown := none, elapsed := some 0 }) =
      s.supply.startingRamp s.site.rampTime := by
    unfold Supply.startingRamp
    split <;> rfl
  unfold State.startRamp State.resupply
  dsimp only
  rw [supply, State.checkBudget_eq]
  rfl

/-- With no pass figure the start of a ramp requests no pass (R90). -/
theorem State.startRamp_of_noFigure (s : State) (h : s.supply.passFigure = 0) :
    s.startRamp = { s with supply := s.supply.startingRamp s.site.rampTime, ports := (s.notify .supply .part).ports } := by
  rw [State.startRamp_eq]
  simp [h]

/-! ### Soft reset -/

/-- A bay whose grant goes to 0 as a reduction (R121), where it is above 0. -/
def Bay.loweredToZero (x : Bay) (timeout : Nat) : Bay :=
  { x with
    grant := 0
    reduction := decide (0 < x.grant) || x.reduction
    confirmTimer := if 0 < x.grant ∧ x.reduction = false then some timeout else x.confirmTimer }

theorem Bay.loweredToZero_of_pos (x : Bay) (t : Nat) (h : 0 < x.grant) : x.loweredToZero t = x.reduced 0 t := by
  unfold Bay.loweredToZero Bay.reduced
  cases x.reduction <;> simp [h]

theorem Bay.loweredToZero_of_zero (x : Bay) (t : Nat) (h : x.grant = 0) : x.loweredToZero t = x := by
  cases x
  simp_all [Bay.loweredToZero]

theorem Bay.loweredToZero_again (x : Bay) (t : Nat) : (x.loweredToZero t).loweredToZero t = x.loweredToZero t :=
  Bay.loweredToZero_of_zero _ t rfl

/-- The lowering of a grant to 0 (R121): the bay, and the ports that its GRANT notice reaches. -/
theorem State.lower_zero_eq (s : State) (b : BayId) :
    s.lower b 0 = { s with
      bays := s.bays.set b ((s.bay b).loweredToZero s.site.confirmTimeout)
      ports := (s.lower b 0).ports } := by
  unfold State.lower
  split
  · rename_i above
    rw [Bay.loweredToZero_of_pos _ _ above]
    rfl
  · rename_i below
    rw [Bay.loweredToZero_of_zero _ _ (by omega), State.bay, set_self]

theorem State.lower_zero_bay (s : State) (b a : BayId) :
    (s.lower b 0).bay a = if a = b then (s.bay b).loweredToZero s.site.confirmTimeout else s.bay a := by
  rw [State.lower_zero_eq]
  exact get_set _ _ _ _

/-- Several grants lowered to 0: the bays and the ports alone change. -/
theorem State.lowerAll_eq (s : State) (l : List BayId) :
    l.foldl (fun t b => t.lower b 0) s = { s with
      bays := l.foldl (applyAt fun x => x.loweredToZero s.site.confirmTimeout) s.bays
      ports := (l.foldl (fun t b => State.lower t b 0) s).ports } := by
  induction l generalizing s with
  | nil => rfl
  | cons b l ih =>
    rw [List.foldl_cons, ih, List.foldl_cons]
    generalize (l.foldl (fun t b => State.lower t b 0) (s.lower b 0)).ports = ports
    rw [State.lower_zero_eq]
    rfl

/-- The ports after several grants were lowered to 0: each had GRANT notices. -/
theorem State.lowerAll_ports (s : State) (l : List BayId) (q : PortId) :
    PortMoves (s.port q) ((l.foldl (fun t b => State.lower t b 0) s).port q) :=
  (Evolves.foldl (fun t b => State.lower t b 0) (fun t b => t.lower_evolves b 0 rfl) l s).ports q

/-- A bay at a soft reset (R22, R63): empty, its grant gone to 0 as a reduction. -/
theorem Bay.loweredToZero_emptied (x : Bay) (t : Nat) :
    (x.loweredToZero t).emptied = { emptyBay with
      allowance := x.allowance
      power := x.power
      reduction := decide (0 < x.grant) || x.reduction
      confirmTimer := if 0 < x.grant ∧ x.reduction = false then some t else x.confirmTimer
      counters := x.counters
      images := x.images } := rfl

/-- The bays of a part at a soft reset. -/
def State.emptiedBays (s : State) : Vector Bay 16 :=
  updateAll (allBays.foldl (applyAt fun x => x.loweredToZero s.site.confirmTimeout) s.bays) fun _ x => x.emptied

theorem State.emptiedBays_get (s : State) (b : BayId) :
    s.emptiedBays[b] = ((s.bay b).loweredToZero s.site.confirmTimeout).emptied := by
  unfold State.emptiedBays
  rw [get_updateAll, get_foldl_applyAt _ fun x => x.loweredToZero_again _,
    if_pos (mem_allBays b)]
  rfl

/-- What a soft reset leaves of the blocks other than the ports, which have notices more, once the records are known (R22, R63). -/
theorem State.softResetBlocks_of_demoted {s : State} {records : Vector PackRecord 64}
    (demoted : allSlots.foldl State.demoteRecord s = { s with records := records }) :
    ∃ ports : Vector Port 6, (∀ q : PortId, PortMoves (s.port q) ports[q]) ∧
      s.softResetBlocks = { s with
        ports := ports
        records := records
        bays := s.emptiedBays
        pendingList := []
        entries := updateAll s.entries fun _ e => e.atReset
        readyQueues := Vector.replicate 8 0
        recalls := Vector.replicate 4 []
        draws := Vector.replicate 64 none
        passMark := false
        planMark := false
        periodTimer := some s.site.period
        supply := { s.supply with passFigure := 0 } } := by
  refine ⟨_, State.lowerAll_ports { s with records := records } allBays, ?_⟩
  unfold State.softResetBlocks State.emptiedBays
  rw [demoted]
  dsimp only
  rw [State.lowerAll_eq]

/-- What a soft reset leaves of a sound roster's part: its blocks, the ramp begun, and the ports cleared (R183). -/
theorem State.sound.softReset {s : State} (h : s.sound) :
    ∃ ports : Vector Port 6, (∀ q : PortId, PortMoves (s.port q) ports[q]) ∧
      s.softReset = { s with
        ports := updateAll ports fun _ x => x.softReset
        records := s.demotedRecords
        bays := s.emptiedBays
        pendingList := []
        entries := updateAll s.entries fun _ e => e.atReset
        readyQueues := Vector.replicate 8 0
        recalls := Vector.replicate 4 []
        draws := Vector.replicate 64 none
        passMark := false
        planMark := false
        periodTimer := some s.site.period
        supply := { s.supply.startingRamp s.site.rampTime with passFigure := 0 } } := by
  obtain ⟨ports, moves, blocks⟩ := State.softResetBlocks_of_demoted (h.demoteAll allSlots)
  refine ⟨(s.softResetBlocks.notify .supply .part).ports, fun q => ?_, ?_⟩
  · have noticed := (s.softResetBlocks.notify_evolves .supply .part).ports q
    have before : s.softResetBlocks.port q = ports[q] := by rw [blocks]; rfl
    exact (moves q).trans (before ▸ noticed)
  · unfold State.softReset
    dsimp only
    rw [State.startRamp_of_noFigure _ (by rw [blocks])]
    generalize (s.softResetBlocks.notify .supply .part).ports = after
    rw [blocks]
    rfl

/-- A port at a soft reset whose notices had moved before it (R22, R173, R178, R183). -/
theorem Port.softReset_of_moves {x y : Port} (moves : PortMoves x y) :
    y.softReset = { x with
      window := none, stream := x.stream.map fun _ => .windowGone, held := [], reading := none
      raised := if x.role = .off then 0 else BitVec.twoPow 12 NoticeKind.supply.bit, summary := 0
      marks := BitVec.allOnes 8 } := by
  have flag : addFlag (0 : FlagSet 12) NoticeKind.supply.bit = BitVec.twoPow 12 NoticeKind.supply.bit := by decide
  unfold Port.softReset
  rw [moves.same]
  simp only [beq_iff_eq, flag]

end Sys2Proof.Machine

open Sys2Proof Sys2Proof.Machine

/-- Settles O60: each law holds after every power-on, whatever the straps. -/
theorem resetKeepsTheLaws : Obligations.ResetKeepsTheLaws :=
  ⟨rfl, State.poweredOn_grantsCovered _ _, State.poweredOn_countersWhole _ _, State.poweredOn_grantsEarned _ _,
    State.poweredOn_profilesSane _ _, State.poweredOn_recordsLawful _ _,
    fun q => by
      have port : State.reset.port q = resetPort resetStraps 0 q := State.poweredOn_port _ _ q
      rw [port]
      exact resetPort_lawful _ _ q,
    State.poweredOn_settingsInRange _ _, State.poweredOn_withinBudget _ _⟩

/-- Settles O14, block by block. -/
theorem powerOnValues : Obligations.PowerOnValues := by
  intro straps s
  have bay (b : BayId) : ({ State.poweredOn straps s.pending with freeUses := s.freeUses } : State).bay b = emptyBay :=
    State.poweredOn_bay straps s.pending b
  have port (q : PortId) : ({ State.poweredOn straps s.pending with freeUses := s.freeUses } : State).port q =
      resetPort straps 0 q := State.poweredOn_port straps s.pending q
  refine ⟨_, rfl, rfl, rfl, fun i => ?_, rfl, rfl, rfl, rfl, State.poweredOn_profile straps s.pending, fun b => ?_, rfl, rfl, rfl,
    rfl, rfl, rfl, rfl, rfl, State.poweredOn_entry straps s.pending, State.poweredOn_queue straps s.pending,
    State.poweredOn_recall straps s.pending, State.poweredOn_drawOf straps s.pending, fun q => ?_⟩
  · have record : ({ State.poweredOn straps s.pending with freeUses := s.freeUses } : State).record i = freeRecord :=
      State.poweredOn_record straps s.pending i
    exact ⟨by rw [record]; rfl, State.poweredOn_check straps s.pending i⟩
  · rw [bay]
    exact ⟨rfl, rfl, rfl, rfl, rfl, rfl, rfl, rfl, rfl, rfl, rfl, rfl, rfl, rfl, rfl, rfl, rfl, rfl, rfl, rfl,
      emptyBay_counters⟩
  · rw [port]
    refine ⟨rfl, rfl, rfl, rfl, rfl, rfl, rfl, rfl, rfl, rfl, ?_⟩
    have raised : (resetPort straps 0 q).raised = resetNotices (resetPort straps 0 q).role := rfl
    rw [raised]
    cases (resetPort straps 0 q).role <;> rfl

/-- Settles O15. -/
theorem hardResetValues : Obligations.HardResetValues := by
  intro straps s t₀ sound on
  cases on
  refine ⟨_, rfl, ?_, fun q => ?_, fun i => ?_, fun e => ?_⟩
  · rw [sound.hardReset]
  · rw [sound.hardReset]
    simp [State.port, State.poweredOn, resetPorts, resetPort]
  · rw [sound.hardReset]
    exact (s.demotedRecords_get i).trans (PackRecord.demoted_eq _)
  · rw [sound.hardReset]
    exact (get_updateAll _ _ _).trans (Entry.atReset_eq _)

/-- Settles O16: with no pass figure the start of the ramp requests no pass (State.startRamp_of_noFigure). -/
theorem scanCompleteStartsTheRamp : Obligations.ScanCompleteStartsTheRamp := by
  refine ⟨fun s => ?_, fun s phase => ?_, fun s phase figure => ?_⟩
  · have taken : exec .hardResetEnd s = execHardResetEnd s := rfl
    rw [taken, execHardResetEnd]
    simp only [beq_iff_eq]
  · have taken : exec .scanComplete s = execScanComplete s := rfl
    rw [taken, execScanComplete]
    rcases phase with phase | phase <;> rw [phase]
  · have taken : exec .scanComplete s = execScanComplete s := rfl
    rw [taken, execScanComplete, phase]
    have ramp := State.startRamp_of_noFigure { s with phase := .running, periodTimer := some s.site.period } figure
    refine ⟨_, rfl, ?_, fun q => ?_⟩
    · rw [State.endScan, ramp]
      rfl
    · rw [State.endScan, ramp]
      exact State.notify_port _ .supply .part q

/-- Settles O18. -/
theorem softResetValues : Obligations.SoftResetValues := by
  intro p s accepted sound
  obtain ⟨ports, moves, reset⟩ := sound.softReset
  have port (q : PortId) : s.softReset.port q = (ports[q]).softReset := by
    rw [reset]
    exact get_updateAll _ _ _
  have result : (s.softReset.port p).lastResult = (s.port p).lastResult := by
    rw [port, Port.softReset_of_moves (moves p)]
  have taken := State.transact_writes (act := fun t => t.softReset.reply .ok) accepted rfl rfl result
  refine ⟨_, congrArg Host.Outcome.next taken, ?_, fun b => ?_, fun i => ?_, fun e => ?_, fun q => ?_⟩
  · rw [reset]
    rfl
  · rw [State.setPort_bay, reset]
    exact s.emptiedBays_get b
  · rw [State.setPort_record, reset]
    exact (s.demotedRecords_get i).trans (PackRecord.demoted_eq _)
  · rw [State.setPort_entry, reset]
    exact (get_updateAll _ _ _).trans (Entry.atReset_eq _)
  · rw [State.setPort_port]
    by_cases own : q = p
    · subst own
      rw [if_pos rfl, port, Port.softReset_of_moves (moves q)]
      exact ⟨rfl, rfl, rfl, rfl, rfl, rfl, rfl, rfl, rfl, (if_pos rfl).symm, rfl, fun other => absurd rfl other⟩
    · rw [if_neg own, port, Port.softReset_of_moves (moves q)]
      exact ⟨rfl, rfl, rfl, rfl, rfl, rfl, rfl, rfl, rfl, (if_neg own).symm, rfl, fun _ => rfl⟩

end

section
/-!
The shared operations as one record update each, where only the ports are left open: what a record's write, a reservation's end, a
draw's end and an inhibit leave of every other field. What notices an operation has raised is read off where it raises them; its other
effects on the ports are PortMoves (Laws/Evolve.lean).
-/

namespace Sys2Proof.Machine

/-! ### Notices that stand -/

theorem Role.office_takes {role : Role} (h : role = .depot ∨ role = .observer) (k : NoticeKind) (w : Scope) :
    role.takes k w = true := by
  rcases h with h | h <;> rw [h] <;> rfl

theorem Port.deliver_raised {x : Port} {k : NoticeKind} {w : Scope} (takes : x.role.takes k w = true) :
    hasFlag (x.deliver k w).raised k.bit = true := by
  unfold Port.deliver
  rw [if_pos takes]
  simp

theorem Port.deliver_summary {x : Port} {k : NoticeKind} {b : BayId} (takes : x.role.takes k (.bay b) = true) :
    hasFlag (x.deliver k (.bay b)).summary b = true := by
  unfold Port.deliver
  rw [if_pos takes]
  simp [Scope.joinSummary]

/-- A notice stays pending at a port that takes it, whatever joins the port before and after. -/
theorem PortMoves.raises {x y z : Port} {k : NoticeKind} {w : Scope} (before : PortMoves x y)
    (takes : x.role.takes k w = true) (after : PortMoves (y.deliver k w) z) : hasFlag z.raised k.bit = true :=
  after.raised _ (Port.deliver_raised (before.role ▸ takes))

/-- A bay stays in the summary of a port that takes its notice. -/
theorem PortMoves.joins {x y z : Port} {k : NoticeKind} {b : BayId} (before : PortMoves x y)
    (takes : x.role.takes k (.bay b) = true) (after : PortMoves (y.deliver k (.bay b)) z) : hasFlag z.summary b = true :=
  after.summary _ (Port.deliver_summary (before.role ▸ takes))

/-- A notice is pending where its delivery is the last thing done to a port that takes it. -/
theorem PortMoves.raises_last {x y z : Port} {k : NoticeKind} {w : Scope} (moves : PortMoves x z) (last : z = y.deliver k w)
    (takes : x.role.takes k w = true) : hasFlag z.raised k.bit = true := by
  subst last
  rw [← moves.role, (PortMoves.deliver y k w).role] at takes
  exact Port.deliver_raised takes

theorem PortMoves.joins_last {x y z : Port} {k : NoticeKind} {b : BayId} (moves : PortMoves x z) (last : z = y.deliver k (.bay b))
    (takes : x.role.takes k (.bay b) = true) : hasFlag z.summary b = true := by
  subst last
  rw [← moves.role, (PortMoves.deliver y k (.bay b)).role] at takes
  exact Port.deliver_summary takes

theorem PortMoves.lastResult {x y : Port} (h : PortMoves x y) : y.lastResult = x.lastResult := by rw [h.same]

/-! ### A port at the end of its own transaction -/

theorem State.setPort_port_ne (s : State) {p q : PortId} (x : Port) (h : q ≠ p) : (s.setPort p x).port q = s.port q := by
  rw [State.setPort_port, if_neg h]

section
variable (t : State) (p q : PortId) (params : List Byte) (r : ResultCode)

theorem State.wrote_raised : ((t.setPort p ((t.port p).wrote params r)).port q).raised = (t.port q).raised := by
  rw [State.setPort_port]
  split
  · rename_i own
    rw [own]
    rfl
  · rfl

theorem State.wrote_summary : ((t.setPort p ((t.port p).wrote params r)).port q).summary = (t.port q).summary := by
  rw [State.setPort_port]
  split
  · rename_i own
    rw [own]
    rfl
  · rfl

theorem State.wrote_marks : ((t.setPort p ((t.port p).wrote params r)).port q).marks = (t.port q).marks := by
  rw [State.setPort_port]
  split
  · rename_i own
    rw [own]
    rfl
  · rfl

theorem State.wrote_lastResult : ((t.setPort p ((t.port p).wrote params r)).port p).lastResult = r := by
  rw [State.setPort_port_self]
  rfl

end

/-- A cluster command taken for the bay it names, whose effects on the ports are moves (R177). -/
theorem State.clusterCommand_writes {s t : State} {p : PortId} {row : CommandRow} {params : List Byte} {b : BayId}
    {act : BayId → State → Reply} {r : ResultCode} (h : s.accepts p row params = true) (w : row.take = .selectRise)
    (named : s.localBay p (byteAt params 0) = some b) (e : act b s = t.reply r) (moves : PortMoves (s.port p) (t.port p)) :
    s.clusterCommand p row params act = t.setPort p ((t.port p).wrote params r) := by
  refine State.transact_writes h w ?_ moves.lastResult
  simp only [named]
  exact e

/-! ### Records -/

/-- A record's write, said by what stands. -/
theorem State.putRecord_eq (s : State) (i : SlotId) (r : PackRecord) :
    ∃ ports, s.putRecord i r = { s with
      records := s.records.set i r, checks := s.checks.set i .clean, ports := ports } := by
  unfold State.putRecord
  split
  · exact ⟨s.ports, rfl⟩
  · exact ⟨_, rfl⟩

theorem State.dropReservation_eq (s : State) (e : EntryId) (i : SlotId) :
    ∃ ports, s.dropReservation e i = { s with
      entries := s.entries.set e { s.entry e with reserved := none }
      records := s.records.set i { s.record i with reservation := none }, checks := s.checks.set i .clean
      passMark := true, planMark := true, ports := ports } := by
  obtain ⟨ports, written⟩ := (s.setEntry e { s.entry e with reserved := none }).putRecord_eq i
    { s.record i with reservation := none }
  refine ⟨ports, ?_⟩
  unfold State.dropReservation
  rw [written]
  rfl

/-- A record written on a sound roster: the table and the marks alone. -/
theorem State.sound.putRecord {s : State} (h : s.sound) (i : SlotId) (r : PackRecord) :
    ∃ ports, s.putRecord i r = { s with records := s.records.set i r, ports := ports } := by
  obtain ⟨ports, written⟩ := s.putRecord_eq i r
  exact ⟨ports, by rw [written, h.checks_set]⟩

/-- A sound roster is one whose check codes are sound, whatever the rest. -/
theorem State.sound.of_checks {s t : State} (h : s.sound) (e : t.checks = s.checks) : t.sound := by
  intro i
  have clean : s.checks[i] = .clean := h i
  rw [State.check, e]
  exact clean

/-- The entries without the reservation of a slot's record (R150). -/
def State.entriesWithout (s : State) (o : Option EntryId) : Vector Entry 48 :=
  match o with
  | some e => s.entries.set e { s.entry e with reserved := none }
  | none => s.entries

theorem State.entriesWithout_get (s : State) (o : Option EntryId) (e : EntryId) :
    (s.entriesWithout o)[e] = if o = some e then { s.entry e with reserved := none } else s.entry e := by
  cases o with
  | none => rfl
  | some d =>
    refine (get_set _ _ _ _).trans ?_
    by_cases same : e = d
    · subst same
      rw [if_pos rfl, if_pos rfl]
    · rw [if_neg same, if_neg (by simpa using Ne.symm same)]
      rfl

/-- A record's reservation cleared on a sound roster (R150). -/
theorem State.sound.clearReservation {s : State} (h : s.sound) (i : SlotId) :
    ∃ ports, s.clearReservation i = { s with
      entries := s.entriesWithout (s.record i).reservation
      records := s.records.set i { s.record i with reservation := none }
      passMark := s.passMark || (s.record i).reservation.isSome
      planMark := s.planMark || (s.record i).reservation.isSome, ports := ports } := by
  unfold State.clearReservation
  cases held : (s.record i).reservation with
  | some e =>
    obtain ⟨ports, dropped⟩ := s.dropReservation_eq e i
    refine ⟨ports, ?_⟩
    dsimp only
    rw [dropped, h.checks_set, Option.isSome_some, Bool.or_true, Bool.or_true]
    rfl
  | none =>
    have same : ({ s.record i with reservation := none } : PackRecord) = s.record i := by
      rw [← held]
    refine ⟨s.ports, ?_⟩
    rw [same, State.record, set_self, Option.isSome_none, Bool.or_false, Bool.or_false]
    rfl

/-! ### Draws -/

/-- The entries once the entry of an ended draw has taken its status (R163). -/
def State.entriesSettled (s : State) (o : Option EntryId) (outcome : EntryStatus) : Vector Entry 48 :=
  match o with
  | some e => if (s.entry e).status = .called then s.entries.set e { s.entry e with status := outcome } else s.entries
  | none => s.entries

theorem State.entriesSettled_get (s : State) (o : Option EntryId) (outcome : EntryStatus) (e : EntryId) :
    (s.entriesSettled o outcome)[e] =
      if o = some e ∧ (s.entry e).status = .called then { s.entry e with status := outcome } else s.entry e := by
  cases o with
  | none => rfl
  | some d =>
    unfold State.entriesSettled
    dsimp only
    by_cases same : e = d
    · subst same
      by_cases called : (s.entry e).status = .called
      · rw [if_pos called, if_pos ⟨rfl, called⟩, get_set, if_pos rfl]
      · rw [if_neg called, if_neg fun both => called both.2, State.entry]
    · have other : ¬ (some d = some e ∧ (s.entry e).status = .called) := fun both => same (by simpa using both.1.symm)
      rw [if_neg other]
      split
      · rw [get_set, if_neg same, State.entry]
      · exact (rfl : s.entries[e] = s.entry e)

theorem State.settleDrawnEntry_eq (s : State) (o : Option EntryId) (outcome : EntryStatus) :
    s.settleDrawnEntry o outcome = { s with entries := s.entriesSettled o outcome } := by
  unfold State.entriesSettled State.settleDrawnEntry
  cases o with
  | none => rfl
  | some e =>
    simp only [beq_iff_eq]
    split <;> rfl

/-- The draw of a slot ended for the only sweeper that draws it (R163). -/
theorem State.endDraw_of_unique (s : State) {i : SlotId} {w : SweeperId} (outcome : EntryStatus)
    (only : ∀ v, (s.drawOf v).map (·.slot) = some i ↔ v = w) :
    s.endDraw i outcome = ({ s with
      draws := s.draws.set w none
      recalls := updateAll s.recalls fun _ q => q.filter fun r => r.slot != i
      entries := s.entriesSettled ((s.drawOf w).bind (·.entry)) outcome } : State).notify .draw .part := by
  have drawing : s.drawingSweeper i = some w :=
    find?_finRange_of_unique (beq_iff_eq.mpr ((only w).mpr rfl)) fun v drawn => (only v).mp (beq_iff_eq.mp drawn)
  unfold State.endDraw
  rw [drawing]
  dsimp only
  rw [State.settleDrawnEntry_eq]
  rfl

end Sys2Proof.Machine
end

section
/-!
UNDOCK (R47 to R49) and the refusals of the cluster commands (R42, R47, R177): O21, O22, O23.
-/

namespace Sys2Proof.Machine

/-! ### Refusals -/

/-- A cluster command whose bay number names no bay (R177). -/
theorem State.clusterCommand_unnamed {s : State} {p : PortId} {row : CommandRow} {params : List Byte}
    {act : BayId → State → Reply} (h : s.accepts p row params = true) (w : row.take = .selectRise)
    (unnamed : s.localBay p (byteAt params 0) = none) :
    s.clusterCommand p row params act = s.setPort p ((s.port p).wrote params .range) :=
  State.transact_reply h w (by simp only [unnamed])

/-- A local number above 3 names no bay. -/
theorem State.localBay_eq_none {s : State} {p : PortId} {n : Nat} (h : 4 ≤ n) : s.localBay p n = none := by
  unfold State.localBay
  rw [index_eq_none.mpr h]
  split
  · contradiction
  · rfl

/-- A cluster command that leaves the state as it is for the bay it names. -/
theorem State.clusterCommand_replies {s : State} {p : PortId} {row : CommandRow} {params : List Byte} {b : BayId}
    {act : BayId → State → Reply} {r : ResultCode} (h : s.accepts p row params = true) (w : row.take = .selectRise)
    (named : s.localBay p (byteAt params 0) = some b) (e : act b s = s.reply r) :
    s.clusterCommand p row params act = s.setPort p ((s.port p).wrote params r) :=
  State.clusterCommand_writes h w named e (PortMoves.refl _)

/-- Each of the five cluster commands is one cluster command. -/
theorem exec_cluster {c : Instr} {p : PortId} {row : CommandRow} {params : List Byte} (s : State)
    (h : c.transaction = some (p, row, params)) (is : row ∈ [rowDock, rowUndock, rowReport, rowGrantAck, rowClearFault]) :
    row.take = .selectRise ∧ ∃ act, exec c s = .next (s.clusterCommand p row params act) := by
  cases c with
  | dock q ps => cases h; exact ⟨rfl, _, rfl⟩
  | undock q ps => cases h; exact ⟨rfl, _, rfl⟩
  | report q ps => cases h; exact ⟨rfl, _, rfl⟩
  | grantAck q ps => cases h; exact ⟨rfl, _, rfl⟩
  | clearFault q ps => cases h; exact ⟨rfl, _, rfl⟩
  | tableRead q part =>
    cases part with
    | command => cases h; exact absurd is (by decide)
    | nextEntry => cases h
  | _ => cases h <;> exact absurd is (by decide)

/-! ### The tag of a DOCK -/

/-- A report out of range carries no docking (R42, check 3). -/
theorem dockingOf_eq_none {params : List Byte}
    (h : tagAt params 1 = 0 ∨ 8 ≤ byteAt params 5 ∨ 100 < byteAt params 6 ∧ byteAt params 6 < 255) :
    dockingOf params = none := by
  unfold dockingOf
  split
  · rfl
  · rename_i k profile
    rw [index_eq_some] at profile
    have below := k.isLt
    split
    · rfl
    · rename_i tag
      have gauge : 100 < byteAt params 6 ∧ byteAt params 6 < 255 := by
        rcases h with zero | above | gauge
        · contradiction
        · omega
        · exact gauge
      rw [if_neg (by omega), if_neg (by omega)]

/-- A docking's fields as the parameters give them (R42). -/
theorem dockingOf_fields {params : List Byte} {d : Docking} (h : dockingOf params = some d) :
    d.tag = BitVec.ofNat 32 (u32At params 1) ∧ d.tag ≠ 0 ∧ byteAt params 5 = d.profile.val ∧ d.temperature = s8At params 7 ∧
      d.gauge = (if byteAt params 6 = 255 then none else some (byteAt params 6)) ∧
      (byteAt params 6 ≤ 100 ∨ byteAt params 6 = 255) := by
  unfold dockingOf at h
  split at h
  · contradiction
  · rename_i k profile
    rw [index_eq_some] at profile
    split at h
    · contradiction
    · rename_i tag
      split at h
      · rename_i gauge
        cases h
        exact ⟨rfl, tag, profile, rfl, by rw [if_neg (by omega)], .inl gauge⟩
      · split at h
        · rename_i absent
          cases h
          exact ⟨rfl, tag, profile, rfl, by rw [if_pos absent], .inr absent⟩
        · contradiction

/-- The lifecycles in which a record's tag is engaged (R42, check 4). -/
def PackRecord.engages (r : PackRecord) : Prop :=
  r.lifecycle = .docked ∨ r.lifecycle = .ready ∨ r.lifecycle = .called ∨ r.lifecycle = .quarantined ∧ r.bay ≠ none

/-- A tag is engaged by the record that holds it, or by a bay's copy (R4, R42). -/
theorem State.tagEngaged_of_record {s : State} {t : Tag} {i : SlotId} (found : s.slotOfTag t = some i)
    (engages : (s.record i).engages) : s.tagEngaged t = true := by
  unfold State.tagEngaged
  rw [found]
  rcases engages with e | e | e | ⟨e, occupied⟩ <;> simp [e, Option.isSome_iff_ne_none]
  exact .inr occupied

/-- A bay's copy stands for a tag where the bay is UNLISTED or its record DAMAGED (R4). -/
theorem State.tagInBayCopy_of {s : State} {t : Tag} {a : BayId} (stage : (s.bay a).stage ≠ .empty) (tag : (s.bay a).tag = t)
    (copy : (s.bay a).slot = none ∧ (s.bay a).carries .unlisted = true ∨
      ∃ i, (s.bay a).slot = some i ∧ (s.record i).lifecycle = .quarantined ∧ (s.record i).reason = some .damaged) :
    s.tagInBayCopy t = true := by
  unfold State.tagInBayCopy
  rw [List.any_eq_true]
  refine ⟨a, mem_allBays a, ?_⟩
  rcases copy with ⟨slot, unlisted⟩ | ⟨i, slot, lifecycle, reason⟩
  · rw [slot]
    simp [stage, tag, unlisted]
  · rw [slot]
    simp [stage, tag, lifecycle, reason]

/-- The conflict of a DOCK on a sound roster: the ROSTER notice alone (R42). -/
theorem State.sound.dockTag_conflict {s : State} (h : s.sound) (b : BayId) {d : Docking} (engaged : s.tagEngaged d.tag = true) :
    s.dockTag b d = (s.notify .roster .part).reply .conflict := by
  unfold State.dockTag
  rw [h.accessAll]
  exact if_pos engaged

/-! ### UNDOCK of a pack that stays in the roster (R48, R49) -/

/-- The bays once one is emptied, its grant gone to 0 as a reduction (R49, R121). -/
def State.baysWithout (s : State) (b : BayId) : Vector Bay 16 :=
  s.bays.set b ((s.bay b).loweredToZero s.site.confirmTimeout).emptied

theorem State.baysWithout_get (s : State) (b a : BayId) :
    (s.baysWithout b)[a] = if a = b then ((s.bay b).loweredToZero s.site.confirmTimeout).emptied else s.bay a :=
  get_set _ _ _ _

/-- The bay's part of an UNDOCK: the bay emptied with its grant gone to 0 as a reduction, and its pending increase dropped (R49). -/
theorem State.undockBay_eq (s : State) (b : BayId) :
    ∃ ports, s.undockBay b = { s with
      bays := s.baysWithout b
      pendingList := s.pendingList.filter fun x => x.bay != b
      passMark := true, planMark := true, ports := ports } := by
  refine ⟨(s.undockBay b).ports, ?_⟩
  unfold State.undockBay State.modBay State.baysWithout
  dsimp only
  rw [State.lower_zero_bay, if_pos rfl, State.lower_zero_eq]
  simp only [State.notify, State.dropIncrease, State.setBay, State.requestPass, State.requestPlan, Vector.set_set]

/-- The BAY notice of an UNDOCK (R49). -/
theorem State.undockBay_port (s : State) (b : BayId) (q : PortId) :
    ∃ x, PortMoves (s.port q) x ∧ (s.undockBay b).port q = x.deliver .bay (.bay b) := by
  have emptied : Evolves (s.lower b 0) ((s.lower b 0).modBay b Bay.emptied) :=
    State.modBay_evolves_other _ _ _ rfl rfl rfl rfl rfl rfl rfl
  exact ⟨_, ((s.lower_evolves b 0 rfl).trans (emptied.trans (State.dropIncrease_evolves _ b))).ports q,
    State.notify_port _ .bay (.bay b) q⟩

/-- The record's part of an UNDOCK of a QUARANTINED pack, on a sound roster (R48). -/
theorem State.sound.undockRecord_stays {s : State} (h : s.sound) {i : SlotId} (stays : (s.record i).lifecycle = .quarantined) :
    ∃ ports, s.undockRecord i = { s with
      records := s.records.set i { s.record i with bay := none, seen := s.seenCounter }, ports := ports } := by
  unfold State.undockRecord
  rw [stays]
  exact h.putRecord i _

/-- The record's part of an UNDOCK of a DOCKED or READY pack, on a sound roster (R48, R150). -/
theorem State.sound.undockRecord_stores {s : State} (h : s.sound) {i : SlotId}
    (docked : (s.record i).lifecycle = .docked ∨ (s.record i).lifecycle = .ready) :
    ∃ pass plan ports, s.undockRecord i = { s with
      records := s.records.set i { s.record i with
        lifecycle := .stored, bay := none, reservation := none, readySince := none, seen := s.seenCounter }
      entries := s.entriesWithout (s.record i).reservation
      readyQueues := updateAll s.readyQueues fun _ q => dropFlag q i
      passMark := pass, planMark := plan, ports := ports } := by
  obtain ⟨before, cleared⟩ := h.clearReservation i
  have left : ((s.clearReservation i).leaveReady i).sound := h.of_checks (by rw [cleared]; rfl)
  obtain ⟨ports, written⟩ := left.putRecord i { ((s.clearReservation i).leaveReady i).record i with
      lifecycle := .stored, bay := none, reservation := none, readySince := none, seen := s.seenCounter }
  refine ⟨s.passMark || (s.record i).reservation.isSome, s.planMark || (s.record i).reservation.isSome, ports, ?_⟩
  have taken : s.undockRecord i = ((s.clearReservation i).leaveReady i).putRecord i
      { ((s.clearReservation i).leaveReady i).record i with
        lifecycle := .stored, bay := none, reservation := none, readySince := none, seen := s.seenCounter } := by
    unfold State.undockRecord
    rcases docked with e | e <;> rw [e]
  rw [taken, written, cleared]
  simp [State.leaveReady, State.record, Vector.set_set]

/-- A taken UNDOCK, where the record's part is known: the seen counter, the bay and the pending list besides (R5, R48, R49). -/
theorem State.undock_eq_of_record {s : State} {b : BayId} {i : SlotId} (slot : (s.bay b).slot = some i)
    {records : Vector PackRecord 64} {entries : Vector Entry 48} {readyQueues : Vector (FlagSet 64) 8}
    {recalls : Vector (List Recall) 4} {draws : Vector (Option Draw) 64} {pass plan : Bool} {before : Vector Port 6}
    (record : s.countSeen.undockRecord i = { s.countSeen with
      records := records, entries := entries, readyQueues := readyQueues, recalls := recalls, draws := draws
      passMark := pass, planMark := plan, ports := before }) :
    ∃ ports, s.undock b = { s with
      records := records, bays := s.baysWithout b, entries := entries, readyQueues := readyQueues
      recalls := recalls, draws := draws
      pendingList := s.pendingList.filter fun x => x.bay != b
      passMark := true, planMark := true, seenCounter := countTo 4294967295 s.seenCounter, ports := ports } := by
  obtain ⟨ports, emptied⟩ := (s.countSeen.undockRecord i).undockBay_eq b
  refine ⟨ports, ?_⟩
  unfold State.undock
  rw [slot]
  dsimp only
  rw [emptied, record]
  rfl

/-- A taken UNDOCK of an UNLISTED bay (R49). -/
theorem State.undock_eq_unlisted {s : State} {b : BayId} (slot : (s.bay b).slot = none) :
    ∃ ports, s.undock b = { s with
      bays := s.baysWithout b
      pendingList := s.pendingList.filter fun x => x.bay != b
      passMark := true, planMark := true, seenCounter := countTo 4294967295 s.seenCounter, ports := ports } := by
  obtain ⟨ports, emptied⟩ := s.countSeen.undockBay_eq b
  refine ⟨ports, ?_⟩
  unfold State.undock
  rw [slot]
  exact emptied

/-- The effects of an UNDOCK on the ports, its BAY notice the last. -/
theorem State.undock_port (s : State) (b : BayId) (q : PortId) :
    ∃ x, PortMoves (s.port q) x ∧ (s.undock b).port q = x.deliver .bay (.bay b) := by
  unfold State.undock
  dsimp only
  split
  · rename_i i slot
    obtain ⟨x, moves, final⟩ := (s.countSeen.undockRecord i).undockBay_port b q
    exact ⟨x, ((s.countSeen.undockRecord_evolves i).ports q).trans moves, final⟩
  · exact s.countSeen.undockBay_port b q

/-- An UNDOCK that passes its checks, on a sound roster (R47). -/
theorem State.sound.execUndock {s : State} (h : s.sound) {p : PortId} {params : List Byte} {b : BayId}
    (accepted : s.accepts p rowUndock params = true) (named : s.localBay p (byteAt params 0) = some b)
    (occupied : (s.bay b).stage ≠ .empty) (known : tagAt params 1 ≠ 0) (tag : tagAt params 1 = (s.bay b).tag) :
    exec (.undock p params) s = .next ((s.undock b).setPort p (((s.undock b).port p).wrote params .ok)) := by
  refine congrArg Host.Outcome.next (State.clusterCommand_writes accepted rfl named ?_ ((s.undock_evolves b).ports p))
  rw [if_neg (by simpa using occupied), if_neg known, if_neg (by simpa using tag), h.accessDocked]

/-! ### UNDOCK of a called pack (R48, R161, R163) -/

/-- The record is ISSUED to the sweeper. -/
def PackRecord.issuedTo (r : PackRecord) (w : Option SweeperId) : Prop := r.lifecycle = .issued ∧ r.sweeper = w

/-- A record once its sweeper holds another pack (R48): it stays, where it is not ISSUED to that sweeper. -/
def PackRecord.unaccounted (w : Option SweeperId) (r : PackRecord) : PackRecord :=
  if r.lifecycle = .issued ∧ r.sweeper = w then { r with lifecycle := .stored, sweeper := none } else r

theorem PackRecord.unaccounted_of_issued {r : PackRecord} {w : Option SweeperId} (h : r.issuedTo w) :
    r.unaccounted w = { r with lifecycle := .stored, sweeper := none } := if_pos h

theorem PackRecord.unaccounted_of_other {r : PackRecord} {w : Option SweeperId} (h : ¬ r.issuedTo w) :
    r.unaccounted w = r := if_neg h

theorem PackRecord.unaccounted_again (w : Option SweeperId) (r : PackRecord) :
    (r.unaccounted w).unaccounted w = r.unaccounted w := by
  by_cases h : r.issuedTo w
  · rw [PackRecord.unaccounted_of_issued h]
    rfl
  · rw [PackRecord.unaccounted_of_other h, PackRecord.unaccounted_of_other h]

/-- One record made unaccounted on a sound roster, with its ROSTER notice where it was ISSUED to the sweeper. -/
theorem State.sound.unaccount {s : State} (h : s.sound) (w : Option SweeperId) (j : SlotId) :
    ∃ ports, State.unaccount w s j = { s with records := applyAt (PackRecord.unaccounted w) s.records j, ports := ports } ∧
      ((s.record j).issuedTo w → ∀ q, (s.port q).role = .depot ∨ (s.port q).role = .observer →
        hasFlag (ports[q]).raised NoticeKind.roster.bit = true) := by
  have same : s.records[j] = s.record j := rfl
  by_cases issued : (s.record j).issuedTo w
  · obtain ⟨before, written⟩ := h.putRecord j { s.record j with lifecycle := .stored, sweeper := none }
    have taken : State.unaccount w s j =
        (s.putRecord j { s.record j with lifecycle := .stored, sweeper := none }).notify .roster .part := by
      unfold State.unaccount
      rw [if_pos (by simpa [PackRecord.issuedTo] using issued), h.access, if_pos (by simpa using issued.1)]
    refine ⟨(State.unaccount w s j).ports, ?_, fun _ q office => ?_⟩
    · rw [taken, written, applyAt, same, PackRecord.unaccounted_of_issued issued]
      rfl
    · have raises := ((s.putRecord_evolves_other j { s.record j with lifecycle := .stored, sweeper := none } rfl rfl rfl).ports
        q).raises (Role.office_takes office .roster .part) (.refl _)
      rw [← State.notify_port, ← taken] at raises
      exact raises
  · refine ⟨s.ports, ?_, fun holds => absurd holds issued⟩
    unfold State.unaccount
    rw [if_neg (by simpa [PackRecord.issuedTo] using issued), applyAt, same, PackRecord.unaccounted_of_other issued, State.record, set_self]

/-- The records of several slots made unaccounted. -/
theorem State.sound.unaccountAll {s : State} (h : s.sound) (w : Option SweeperId) (l : List SlotId) :
    ∃ ports, l.foldl (State.unaccount w) s =
        { s with records := l.foldl (applyAt (PackRecord.unaccounted w)) s.records, ports := ports } ∧
      ∀ j ∈ l, (s.record j).issuedTo w → ∀ q, (s.port q).role = .depot ∨ (s.port q).role = .observer →
        hasFlag (ports[q]).raised NoticeKind.roster.bit = true := by
  induction l generalizing s with
  | nil => exact ⟨s.ports, rfl, nofun⟩
  | cons a l ih =>
    obtain ⟨before, first, noticed⟩ := h.unaccount w a
    obtain ⟨ports, rest, later⟩ := ih (s := State.unaccount w s a) (h.of_checks (by rw [first]))
    refine ⟨ports, ?_, fun j named issued q office => ?_⟩
    · rw [List.foldl_cons, rest, first]
      rfl
    · have moves := (Evolves.foldl _ (State.unaccount_evolves w) l (State.unaccount w s a)).ports q
      rw [rest] at moves
      by_cases own : j = a
      · subst own
        have raised := noticed issued q office
        rw [first] at moves
        exact moves.raised _ raised
      · have role := ((State.unaccount_evolves w s a).ports q).role
        refine later j ((List.mem_cons.mp named).resolve_left own) ?_ q (by rw [role]; exact office)
        have kept : (State.unaccount w s a).record j = s.record j := by
          rw [first]
          exact (get_set _ _ _ _).trans (if_neg own)
        exact kept.symm ▸ issued

/-- The records once a called pack is issued (R48). -/
def State.recordsIssued (s : State) (i : SlotId) : Vector PackRecord 64 :=
  ((allSlots.filter (· != i)).foldl (applyAt (PackRecord.unaccounted (s.record i).sweeper)) s.records).set i
    { s.record i with lifecycle := .issued, bay := none, seen := s.seenCounter }

theorem State.recordsIssued_get (s : State) (i j : SlotId) :
    (s.recordsIssued i)[j] = if j = i then { s.record i with lifecycle := .issued, bay := none, seen := s.seenCounter }
      else (s.record j).unaccounted (s.record i).sweeper := by
  unfold State.recordsIssued
  rw [get_set]
  split
  · rfl
  · rename_i other
    rw [get_foldl_applyAt _ fun r => r.unaccounted_again _, if_pos (by simp [mem_allSlots, other])]
    rfl

/-- The issue of a called pack, once the other packs of its sweeper are unaccounted (R48, R163). -/
def State.issueAfter (s others : State) (i : SlotId) : State :=
  (others.endDraw i .served).putRecord i { others.record i with lifecycle := .issued, bay := none, seen := s.seenCounter }

/-- A called pack issued on a sound roster, where one sweeper draws it: the records, the draw and its entry, the recall (R48, R163). -/
theorem State.sound.issue {s : State} (h : s.sound) {i : SlotId} {w : SweeperId}
    (only : ∀ v, (s.drawOf v).map (·.slot) = some i ↔ v = w) :
    ∃ ports, s.issue i = { s with
      records := s.recordsIssued i
      draws := s.draws.set w none
      recalls := updateAll s.recalls fun _ q => q.filter fun r => r.slot != i
      entries := s.entriesSettled ((s.drawOf w).bind (·.entry)) .served
      ports := ports } ∧
      ∀ q, (s.port q).role = .depot ∨ (s.port q).role = .observer →
        hasFlag (ports[q]).raised NoticeKind.draw.bit = true ∧
        ∀ j, j ≠ i → (s.record j).issuedTo (s.record i).sweeper → hasFlag (ports[q]).raised NoticeKind.roster.bit = true := by
  obtain ⟨before, others, noticed⟩ := h.unaccountAll (s.record i).sweeper (allSlots.filter (· != i))
  have first := Evolves.foldl _ (State.unaccount_evolves (s.record i).sweeper) (allSlots.filter (· != i)) s
  have taken : s.issue i = State.issueAfter s ((allSlots.filter (· != i)).foldl (State.unaccount (s.record i).sweeper) s) i := rfl
  rw [taken, State.recordsIssued]
  have own : ((allSlots.filter (· != i)).foldl (applyAt (PackRecord.unaccounted (s.record i).sweeper)) s.records)[i] = s.record i := by
    rw [get_foldl_applyAt _ fun r => r.unaccounted_again _, if_neg (by simp)]
    rfl
  generalize (allSlots.filter (· != i)).foldl (applyAt (PackRecord.unaccounted (s.record i).sweeper)) s.records = records at own others ⊢
  generalize (allSlots.filter (· != i)).foldl (State.unaccount (s.record i).sweeper) s = u at others first ⊢
  have ended := u.endDraw_of_unique (i := i) (w := w) .served (by rw [others]; exact only)
  obtain ⟨ports, written⟩ := State.sound.putRecord (s := u.endDraw i .served) (h.of_checks (by rw [ended, others]; rfl)) i
    { u.record i with lifecycle := .issued, bay := none, seen := s.seenCounter }
  have record : u.record i = s.record i := by rw [others]; exact own
  refine ⟨ports, ?_, fun q office => ?_⟩
  · rw [State.issueAfter, written, ended, record, others]
    rfl
  · have drawn : (u.endDraw i .served).port q = (u.port q).deliver .draw .part := by
      rw [ended, State.notify_port]
      rfl
    have last : PortMoves ((u.endDraw i .served).port q) ports[q] := by
      have moves := ((u.endDraw i .served).putRecord_evolves_other i
        { u.record i with lifecycle := .issued, bay := none, seen := s.seenCounter } (by rw [State.endDraw_record])
        (by rw [State.endDraw_record]) (by rw [State.endDraw_record])).ports q
      rw [written] at moves
      exact moves
    refine ⟨(first.ports q).raises (Role.office_takes office .draw .part) (drawn ▸ last), fun j other issued => ?_⟩
    have raised := noticed j (by simp [mem_allSlots, other]) issued q office
    have ports : u.port q = before[q] := by
      rw [others]
      rfl
    exact last.raised _ (((u.endDraw_evolves i .served).ports q).raised _ (ports ▸ raised))

end Sys2Proof.Machine

open Sys2Proof Sys2Proof.Machine

/-- Settles O21. -/
theorem clusterCommandRefusals : Obligations.ClusterCommandRefusals := by
  intro p params s
  refine ⟨fun c row form is accepted above => ?_, fun n b => s.localBay_eq_some p n b, fun b named =>
    ⟨fun accepted => ?_, fun accepted => ?_⟩⟩
  · obtain ⟨write, act, taken⟩ := exec_cluster s form is
    rw [taken, State.clusterCommand_unnamed accepted write (State.localBay_eq_none above)]
  · have taken : exec (.dock p params) s = execDock p params s := rfl
    refine ⟨fun occupied => ?_, fun empty => ⟨fun out => ?_, fun d docking sound engaged => ?_⟩⟩
    · exact congrArg Host.Outcome.next (State.clusterCommand_replies accepted rfl named (if_pos (by simpa using occupied)))
    · refine congrArg Host.Outcome.next (State.clusterCommand_replies accepted rfl named ?_)
      rw [if_neg (by simp [empty]), dockingOf_eq_none out]
    · have known := (dockingOf_fields docking).2.1
      have holds : s.tagEngaged d.tag = true := by
        rcases engaged with ⟨i, tag, engages, only⟩ | ⟨a, stage, tag, copy⟩
        · refine State.tagEngaged_of_record (i := i) (State.slotOfTag_of_unique _ i known tag ?_ fun j present same => ?_) engages
          · rcases engages with e | e | e | ⟨e, _⟩ <;> rw [e] <;> decide
          · by_contra other
            exact only j other present same
        · rw [State.tagEngaged, State.tagInBayCopy_of stage tag copy, Bool.true_or]
      have refused : exec (.dock p params) s = .next _ :=
        congrArg Host.Outcome.next (State.clusterCommand_writes (t := s.notify .roster .part) (r := .conflict) accepted rfl named
          (by
            rw [if_neg (by simp [empty]), docking]
            exact sound.dockTag_conflict b holds)
          ((s.notify_evolves .roster .part).ports p))
      refine ⟨_, refused, rfl, fun q => ?_⟩
      exact State.wrote_port s (s.notify .roster .part) p q (·.deliver .roster .part) params .conflict fun r => s.notify_port _ _ r
  · have taken : exec (.undock p params) s = execUndock p params s := rfl
    refine ⟨fun empty => ?_, fun occupied zero => ?_, fun occupied known unlike sound => ?_⟩
    · exact congrArg Host.Outcome.next (State.clusterCommand_replies accepted rfl named (if_pos (by simpa using empty)))
    · refine congrArg Host.Outcome.next (State.clusterCommand_replies accepted rfl named ?_)
      rw [if_neg (by simpa using occupied), if_pos zero]
    · refine congrArg Host.Outcome.next (State.clusterCommand_replies accepted rfl named ?_)
      rw [if_neg (by simpa using occupied), if_neg known, if_pos (by simpa using unlike), sound.accessDocked]

/-- Settles O22: the record's part for each lifecycle, and the bay's part for all of them. -/
theorem undockStoresThePack : Obligations.UndockStoresThePack := by
  intro p params s b accepted sound named occupied known tag undocked
  have taken := sound.execUndock accepted named occupied known tag
  have seen : s.countSeen.sound := sound
  have whole {records entries readyQueues ports} (e : s.undock b = { s with
      records := records, bays := s.baysWithout b, entries := entries, readyQueues := readyQueues
      pendingList := s.pendingList.filter fun x => x.bay != b
      passMark := true, planMark := true, seenCounter := countTo 4294967295 s.seenCounter, ports := ports }) :
      undocked ((s.undock b).setPort p (((s.undock b).port p).wrote params .ok)) := by
    refine ⟨by rw [e]; rfl, fun a other => ?_, ?_, fun q other => ?_, State.wrote_lastResult _ _ _ _, fun q takes => ?_⟩
    · rw [State.setPort_bay, e]
      exact (s.baysWithout_get b a).trans (if_neg other)
    · rw [State.setPort_bay, e]
      exact (s.baysWithout_get b b).trans (if_pos rfl)
    · rw [State.setPort_port_ne _ _ other]
      exact (s.undock_evolves b).ports q
    · obtain ⟨x, moves, final⟩ := s.undock_port b q
      rw [State.wrote_raised, State.wrote_summary, final]
      exact ⟨moves.raises takes (.refl _), moves.joins takes (.refl _)⟩
  refine ⟨fun i slot lifecycle => ⟨_, taken, ?_⟩, fun unlisted => ⟨_, taken, ?_⟩⟩
  · by_cases stays : (s.record i).lifecycle = .quarantined
    · obtain ⟨before, record⟩ := seen.undockRecord_stays (i := i) stays
      obtain ⟨ports, undock⟩ := State.undock_eq_of_record slot record
      refine ⟨whole undock, fun j other => ?_, fun _ => ⟨?_, by rw [undock]; rfl, by rw [undock]; rfl⟩, fun leaves => absurd stays leaves⟩
      · rw [State.setPort_record, undock]
        exact (get_set _ _ _ _).trans (if_neg other)
      · rw [State.setPort_record, undock]
        exact (get_set _ _ _ _).trans (if_pos rfl)
    · have stored : (s.record i).lifecycle = .docked ∨ (s.record i).lifecycle = .ready := by
        rcases lifecycle with e | e | e
        · exact .inl e
        · exact .inr e
        · exact absurd e stays
      obtain ⟨pass, plan, before, record⟩ := seen.undockRecord_stores (i := i) stored
      obtain ⟨ports, undock⟩ := State.undock_eq_of_record slot record
      refine ⟨whole undock, fun j other => ?_, fun quarantined => absurd quarantined stays, fun _ => ⟨?_, fun e => ?_, fun k j => ?_⟩⟩
      · rw [State.setPort_record, undock]
        exact (get_set _ _ _ _).trans (if_neg other)
      · rw [State.setPort_record, undock]
        exact (get_set _ _ _ _).trans (if_pos rfl)
      · rw [State.setPort_entry, undock]
        exact s.entriesWithout_get _ e
      · rw [State.setPort_queue, undock]
        have dropped := (s.leaveReady_queue i k).symm ▸ hasFlag_dropFlag (s.queue k) i j
        exact dropped.trans (by simp [bne, beq_eq_decide])
  · obtain ⟨ports, undock⟩ := State.undock_eq_unlisted unlisted
    exact ⟨whole undock, by rw [undock]; rfl, by rw [undock]; rfl, by rw [undock]; rfl⟩

/-- Settles O23: the issue (State.sound.issue), then the bay's part as at every UNDOCK. -/
theorem undockIssuesTheCalledPack : Obligations.UndockIssuesTheCalledPack := by
  intro p params s b i w accepted sound named occupied known tag slot called sweeper only unaccounted
  have taken := sound.execUndock accepted named occupied known tag
  have seen : s.countSeen.sound := sound
  have issue : s.countSeen.undockRecord i = s.countSeen.issue i := by
    unfold State.undockRecord
    rw [State.countSeen_record, called]
  obtain ⟨before, issued, noticed⟩ := seen.issue only
  obtain ⟨ports, undock⟩ := State.undock_eq_of_record slot (issue.trans issued)
  have moves (q : PortId) : PortMoves before[q] ((s.undock b).port q) := by
    have emptied := ((s.countSeen.undockRecord i).undockBay_evolves b).ports q
    have same : s.undock b = (s.countSeen.undockRecord i).undockBay b := by
      unfold State.undock
      rw [slot]
    rw [← same, issue, issued] at emptied
    exact emptied
  have record (j : SlotId) : (s.undock b).record j =
      if j = i then { s.record i with lifecycle := .issued, bay := none, seen := (s.undock b).seenCounter }
      else (s.record j).unaccounted (s.record i).sweeper := by
    rw [undock]
    exact s.countSeen.recordsIssued_get i j
  have bay (a : BayId) : (s.undock b).bay a =
      if a = b then ((s.bay b).loweredToZero s.site.confirmTimeout).emptied else s.bay a := by
    rw [undock]
    exact s.baysWithout_get b a
  refine ⟨_, taken, fun j other stays => ?_, fun a other => ?_, fun j leaves => ⟨?_, fun q office => ?_⟩, ?_, ?_, ?_, ?_, ?_, ?_,
    fun v => ?_, fun c => ?_, fun e => ?_, ?_, ?_, fun q other => ?_, State.wrote_lastResult _ _ _ _, fun q office => ?_⟩
  · rw [State.setPort_record, record, if_neg other]
    exact PackRecord.unaccounted_of_other fun holds => stays ⟨other, holds.1, holds.2.trans sweeper⟩
  · rw [State.setPort_bay, bay, if_neg other]
  · obtain ⟨other, lifecycle, holder⟩ := leaves
    rw [State.setPort_record, record, if_neg other]
    exact PackRecord.unaccounted_of_issued ⟨lifecycle, holder.trans sweeper.symm⟩
  · obtain ⟨other, lifecycle, holder⟩ := leaves
    rw [State.wrote_raised]
    exact (moves q).raised _ ((noticed q office).2 j other ⟨lifecycle, holder.trans sweeper.symm⟩)
  · rw [State.setPort_record, record, if_pos rfl]
    rfl
  · rw [State.setPort_bay, bay, if_pos rfl]
    rfl
  · rw [State.setPort_bay, bay, if_pos rfl]
    rfl
  · rw [State.setPort_bay, bay, if_pos rfl]
    rfl
  · rw [State.setPort_bay, bay, if_pos rfl]
    rfl
  · rw [State.setPort_bay, bay, if_pos rfl]
    rfl
  · rw [State.setPort_drawOf, undock]
    exact get_set _ _ _ _
  · rw [State.setPort_recall, undock]
    exact get_updateAll _ _ _
  · rw [State.setPort_entry, undock]
    exact s.countSeen.entriesSettled_get _ _ e
  · rw [undock]
    rfl
  · rw [undock]
    rfl
  · rw [State.setPort_port_ne _ _ other]
    exact (s.undock_evolves b).ports q
  · rw [State.wrote_raised]
    exact (moves q).raised _ (noticed q office).1

end

section
/-!
The operations of a bay, each as one record update: a change of eligibility, an inhibit added or removed, an event counted, a bay
under quarantine. Bands by their breakpoints, and O27.
-/

namespace Sys2Proof.Machine

/-! ### Eligibility and inhibits (R39, R40, R121) -/

/-- A bay changed: the bay, and by R40 a request for a pass where its eligibility changed, its increase dropped where that ceased. -/
theorem State.changeBay_eq (s : State) (b : BayId) (f : Bay → Bay) :
    s.changeBay b f = { s with
      bays := s.bays.set b (f (s.bay b))
      passMark := s.passMark || (f (s.bay b)).eligible != (s.bay b).eligible
      pendingList := if (s.bay b).eligible = true ∧ (f (s.bay b)).eligible = false then
        s.pendingList.filter fun x => x.bay != b else s.pendingList } := by
  have after : (s.modBay b f).bay b = f (s.bay b) := by rw [State.modBay_bay, if_pos rfl]
  unfold State.changeBay State.afterEligibility
  rw [after]
  cases was : (s.bay b).eligible <;> cases is : (f (s.bay b)).eligible <;>
    simp [State.modBay, State.setBay, State.requestPass, State.dropIncrease]

theorem Bay.eligible_of_inhibited {x : Bay} {r : Inhibit} (h : x.carries r = true) : x.eligible = false := by
  have inhibited : x.inhibits ≠ 0 := by
    intro none
    rw [Bay.carries, none, hasFlag_zero] at h
    contradiction
  rw [Bay.eligible, beq_false_of_ne inhibited, Bool.and_false, Bool.false_and]

theorem Inhibit.bit_inj (r a : Inhibit) : r.bit = a.bit ↔ r = a := by
  cases r <;> cases a <;> decide

/-- The reasons of a bay to which one was added. -/
theorem Bay.carries_add (x : Bay) (r a : Inhibit) :
    ({ x with inhibits := addFlag x.inhibits r.bit } : Bay).carries a = (x.carries a || decide (a = r)) := by
  simp [Bay.carries, beq_eq_decide, Inhibit.bit_inj]

/-- The reasons of a bay from which one was removed. -/
theorem Bay.carries_drop (x : Bay) (r a : Inhibit) :
    ({ x with inhibits := dropFlag x.inhibits r.bit } : Bay).carries a = (x.carries a && !decide (a = r)) := by
  simp [Bay.carries, bne, beq_eq_decide, Inhibit.bit_inj]

/-- A bay that gains an inhibit reason: its grant goes to 0 as a reduction (R39). -/
def Bay.inhibited (x : Bay) (r : Inhibit) (timeout : Nat) : Bay :=
  ({ x with inhibits := addFlag x.inhibits r.bit } : Bay).loweredToZero timeout

/-- An inhibit added: the bay, the effects of R40, and the GRANT notice where the grant was above 0. -/
theorem State.addInhibit_eq (s : State) (b : BayId) (r : Inhibit) :
    s.addInhibit b r = { s with
      bays := s.bays.set b ((s.bay b).inhibited r s.site.confirmTimeout)
      passMark := s.passMark || (s.bay b).eligible
      pendingList := if (s.bay b).eligible = true then s.pendingList.filter fun x => x.bay != b else s.pendingList
      ports := (s.addInhibit b r).ports } := by
  have ceased : ({ s.bay b with inhibits := addFlag (s.bay b).inhibits r.bit } : Bay).eligible = false :=
    Bay.eligible_of_inhibited (r := r) (by rw [Bay.carries_add]; simp)
  generalize kept : (s.addInhibit b r).ports = ports
  unfold State.addInhibit at kept ⊢
  rw [State.lower_zero_eq, kept, State.changeBay_eq, ceased]
  cases was : (s.bay b).eligible <;> simp [State.bay, Bay.inhibited, Vector.set_set]

theorem State.addInhibit_bay (s : State) (b a : BayId) (r : Inhibit) :
    (s.addInhibit b r).bay a = if a = b then (s.bay b).inhibited r s.site.confirmTimeout else s.bay a := by
  rw [State.addInhibit_eq]
  exact get_set _ _ _ _

/-- A bay that loses an inhibit reason: its grant stays (R39). -/
def Bay.uninhibited (x : Bay) (r : Inhibit) : Bay := { x with inhibits := dropFlag x.inhibits r.bit }

theorem State.removeInhibit_bay (s : State) (b a : BayId) (r : Inhibit) :
    (s.removeInhibit b r).bay a = if a = b then (s.bay b).uninhibited r else s.bay a := by
  unfold State.removeInhibit
  rw [State.changeBay_eq]
  exact get_set _ _ _ _

theorem Bay.uninhibited_of_not {x : Bay} {r : Inhibit} (h : x.carries r = false) : x.uninhibited r = x := by
  have same : dropFlag x.inhibits r.bit = x.inhibits := by
    apply flags_ext
    intro k
    rw [hasFlag_dropFlag]
    by_cases here : k = r.bit
    · subst here
      rw [Bay.carries] at h
      simp [h]
    · simp [here]
  rw [Bay.uninhibited, same]

theorem Bay.inhibited_carries (x : Bay) (r a : Inhibit) (t : Nat) :
    (x.inhibited r t).carries a = (x.carries a || decide (a = r)) := x.carries_add r a

theorem Bay.uninhibited_carries (x : Bay) (r a : Inhibit) :
    (x.uninhibited r).carries a = (x.carries a && !decide (a = r)) := x.carries_drop r a

/-- An inhibit removed where the bay stays ineligible for another reason: the bay alone (R39, R40). -/
theorem State.removeInhibit_of_carries (s : State) {b : BayId} {r a : Inhibit} (other : a ≠ r)
    (carries : (s.bay b).carries a = true) :
    s.removeInhibit b r = { s with bays := s.bays.set b ((s.bay b).uninhibited r) } := by
  have before := Bay.eligible_of_inhibited carries
  have after : ((s.bay b).uninhibited r).eligible = false :=
    Bay.eligible_of_inhibited (r := a) (by rw [Bay.uninhibited_carries, carries]; simp [other])
  rw [Bay.uninhibited] at after
  unfold State.removeInhibit
  rw [State.changeBay_eq, before, after]
  simp [Bay.uninhibited]

/-! ### A bay whose record enters QUARANTINED (R13) -/

/-- A bay under quarantine: it gains QUARANTINE and loses CALLED, its grant goes to 0 as a reduction. -/
def Bay.quarantined (x : Bay) (timeout : Nat) : Bay := (x.inhibited .quarantine timeout).uninhibited .called

theorem Bay.quarantined_carries (x : Bay) (t : Nat) (a : Inhibit) :
    (x.quarantined t).carries a = ((x.carries a || decide (a = .quarantine)) && !decide (a = .called)) := by
  rw [Bay.quarantined, Bay.uninhibited_carries, Bay.inhibited_carries]

/-- The bays once the one named, if any, is under quarantine. -/
def State.baysQuarantined (s : State) (o : Option BayId) : Vector Bay 16 :=
  match o with
  | some b => s.bays.set b ((s.bay b).quarantined s.site.confirmTimeout)
  | none => s.bays

theorem State.baysQuarantined_get (s : State) (o : Option BayId) (a : BayId) :
    (s.baysQuarantined o)[a] = if o = some a then (s.bay a).quarantined s.site.confirmTimeout else s.bay a := by
  cases o with
  | none => rfl
  | some b =>
    refine (get_set _ _ _ _).trans ?_
    by_cases same : a = b
    · subst same
      rw [if_pos rfl, if_pos rfl]
    · rw [if_neg same, if_neg (by simpa using Ne.symm same)]
      rfl

/-- A bay under quarantine, with the effects of R40. -/
theorem State.quarantineBay_eq (s : State) (o : Option BayId) :
    ∃ pendingList ports, s.quarantineBay o = { s with
      bays := s.baysQuarantined o
      passMark := s.passMark || o.any fun b => (s.bay b).eligible
      pendingList := pendingList
      ports := ports } := by
  cases o with
  | none => exact ⟨s.pendingList, s.ports, by simp [State.quarantineBay, State.baysQuarantined]⟩
  | some b =>
    refine ⟨(s.addInhibit b .quarantine).pendingList, (s.addInhibit b .quarantine).ports, ?_⟩
    have own : (s.addInhibit b .quarantine).bay b = (s.bay b).inhibited .quarantine s.site.confirmTimeout := by
      rw [State.addInhibit_bay, if_pos rfl]
    have carries : ((s.addInhibit b .quarantine).bay b).carries .quarantine = true := by
      rw [own, Bay.inhibited_carries]
      simp
    have removed : s.quarantineBay (some b) = (s.addInhibit b .quarantine).removeInhibit b .called := by
      unfold State.quarantineBay
      dsimp only
      split
      · rfl
      · rename_i absent
        rw [State.removeInhibit_of_carries _ (by decide) carries,
          Bay.uninhibited_of_not (by simpa using absent), State.bay, set_self]
    rw [removed, State.removeInhibit_of_carries _ (by decide) carries, own]
    rw [State.addInhibit_eq]
    simp only [State.baysQuarantined, Bay.quarantined, Vector.set_set, Option.any_some]

/-! ### What hangs on a record, detached from it (R13, R18, R150, R163) -/

/-- A state reached by detaching what hangs on the record of a slot: the record's own fields but its reservation, the other records and
the bays stand. -/
structure State.Detaches (i : SlotId) (s t : State) : Prop where
  bays : t.bays = s.bays
  site : t.site = s.site
  corrected : t.corrected = s.corrected
  freeUses : t.freeUses = s.freeUses
  own : t.record i = { s.record i with reservation := (t.record i).reservation }
  others : ∀ j, j ≠ i → t.record j = s.record j ∧ t.check j = s.check j

theorem State.Detaches.refl (i : SlotId) (s : State) : State.Detaches i s s :=
  ⟨rfl, rfl, rfl, rfl, rfl, fun _ _ => ⟨rfl, rfl⟩⟩

theorem State.Detaches.trans {i : SlotId} {s t u : State} (h : State.Detaches i s t) (g : State.Detaches i t u) :
    State.Detaches i s u := by
  refine ⟨g.bays.trans h.bays, g.site.trans h.site, g.corrected.trans h.corrected, g.freeUses.trans h.freeUses, ?_, fun j other =>
    ⟨(g.others j other).1.trans (h.others j other).1, (g.others j other).2.trans (h.others j other).2⟩⟩
  rw [g.own, h.own]

theorem State.Detaches.bay {i : SlotId} {s t : State} (h : State.Detaches i s t) (b : BayId) : t.bay b = s.bay b := by
  rw [State.bay, h.bays]
  rfl

/-- A change of anything but the records, the check codes and the bays detaches. -/
theorem State.Detaches.of_same {s t : State} (i : SlotId) (bays : t.bays = s.bays) (site : t.site = s.site)
    (corrected : t.corrected = s.corrected) (freeUses : t.freeUses = s.freeUses) (records : t.records = s.records)
    (checks : t.checks = s.checks) : State.Detaches i s t := by
  have record (j : SlotId) : t.record j = s.record j := by
    rw [State.record, records]
    rfl
  have check (j : SlotId) : t.check j = s.check j := by
    rw [State.check, checks]
    rfl
  exact ⟨bays, site, corrected, freeUses, by rw [record], fun j _ => ⟨record j, check j⟩⟩

theorem State.dropReservation_detaches (s : State) (e : EntryId) (i : SlotId) :
    State.Detaches i s (s.dropReservation e i) := by
  obtain ⟨ports, dropped⟩ := s.dropReservation_eq e i
  have record (j : SlotId) : (s.dropReservation e i).record j =
      if j = i then { s.record i with reservation := none } else s.record j := by
    rw [dropped]
    exact get_set _ _ _ _
  have check (j : SlotId) : (s.dropReservation e i).check j = if j = i then .clean else s.check j := by
    rw [dropped]
    exact get_set _ _ _ _
  refine ⟨by rw [dropped], by rw [dropped], by rw [dropped], by rw [dropped], ?_, fun j other => ⟨?_, ?_⟩⟩
  · rw [record, if_pos rfl]
  · rw [record, if_neg other]
  · rw [check, if_neg other]

theorem State.clearReservation_detaches (s : State) (i : SlotId) : State.Detaches i s (s.clearReservation i) := by
  unfold State.clearReservation
  split
  · exact s.dropReservation_detaches _ i
  · exact .refl i s

theorem State.leaveReady_detaches (s : State) (i : SlotId) : State.Detaches i s (s.leaveReady i) :=
  .of_same i rfl rfl rfl rfl rfl rfl

theorem State.endDraw_detaches (s : State) (i : SlotId) (o : EntryStatus) : State.Detaches i s (s.endDraw i o) := by
  have settles (t : State) (e : Option EntryId) : State.Detaches i t (t.settleDrawnEntry e o) := by
    rw [State.settleDrawnEntry_eq]
    exact .of_same i rfl rfl rfl rfl rfl rfl
  unfold State.endDraw
  split
  · rename_i w drawing
    have before : State.Detaches i s ((s.setDraw w none).removeRecall i) := .of_same i rfl rfl rfl rfl rfl rfl
    exact (before.trans (settles _ _)).trans (.of_same i rfl rfl rfl rfl rfl rfl)
  · exact .of_same i rfl rfl rfl rfl rfl rfl

theorem State.voidDraw_detaches (s : State) (i : SlotId) : State.Detaches i s (s.voidDraw i) := by
  unfold State.voidDraw
  split
  · exact (s.endDraw_detaches i .idle).trans (.of_same i rfl rfl rfl rfl rfl rfl)
  · exact s.endDraw_detaches i .idle

theorem State.withdraw_detaches (s : State) (i : SlotId) (l : Lifecycle) : State.Detaches i s (s.withdraw i l) := by
  unfold State.withdraw
  split
  · exact s.clearReservation_detaches i
  · exact (s.clearReservation_detaches i).trans (State.leaveReady_detaches _ i)
  · exact s.voidDraw_detaches i
  · exact .refl i s

theorem State.leaveDamaged_detaches (s : State) (i : SlotId) : State.Detaches i s (s.leaveDamaged i) := by
  unfold State.leaveDamaged
  extract_lets unreserved
  have first : State.Detaches i s unreserved := by
    unfold unreserved
    split
    · exact s.dropReservation_detaches _ i
    · exact .refl i s
  split
  · exact first.trans (State.voidDraw_detaches _ i)
  · exact first.trans (State.leaveReady_detaches _ i)
  · exact first

/-! ### A record that enters QUARANTINED (R13) -/

/-- The record of R13, step by step what it loses. -/
def PackRecord.quarantinedFor (r : PackRecord) (why : Reason) : PackRecord :=
  { r with lifecycle := .quarantined, sweeper := none, reservation := none, readySince := none, reason := some why }

/-- A record that enters QUARANTINED, once what hung on it is detached: its own write, its bay, the plan. -/
theorem State.enterQuarantine_eq (s : State) (i : SlotId) (why : Reason) :
    ∃ pendingList ports, s.enterQuarantine i why = { s.withdraw i (s.record i).lifecycle with
      records := (s.withdraw i (s.record i).lifecycle).records.set i ((s.record i).quarantinedFor why)
      checks := (s.withdraw i (s.record i).lifecycle).checks.set i .clean
      bays := s.baysQuarantined (s.record i).bay
      passMark := (s.withdraw i (s.record i).lifecycle).passMark || (s.record i).bay.any fun b => (s.bay b).eligible
      pendingList := pendingList, planMark := true, ports := ports } := by
  have detached := s.withdraw_detaches i (s.record i).lifecycle
  have taken : s.enterQuarantine i why = (((((s.withdraw i (s.record i).lifecycle).putRecord i
      (((s.withdraw i (s.record i).lifecycle).record i).quarantinedFor why)).quarantineBay (s.record i).bay).notify
        .roster .part).requestPlan) := rfl
  rw [taken, detached.own]
  have bays := detached.bays
  have site := detached.site
  generalize s.withdraw i (s.record i).lifecycle = left at bays site ⊢
  obtain ⟨before, written⟩ := left.putRecord_eq i ((s.record i).quarantinedFor why)
  obtain ⟨pendingList, ports, barred⟩ := (left.putRecord i ((s.record i).quarantinedFor why)).quarantineBay_eq (s.record i).bay
  have quarantined : (left.putRecord i ((s.record i).quarantinedFor why)).baysQuarantined (s.record i).bay =
      s.baysQuarantined (s.record i).bay := by
    apply vector_ext
    intro a
    rw [State.baysQuarantined_get, State.baysQuarantined_get, written]
    simp only [State.bay, bays, site]
  refine ⟨pendingList, updateAll ports fun _ x => x.deliver .roster .part, ?_⟩
  have same : ({ s.record i with reservation := (left.record i).reservation } : PackRecord).quarantinedFor why =
    (s.record i).quarantinedFor why := rfl
  rw [same, barred, quarantined, written]
  simp only [State.bay, bays]
  rfl

/-- A record rebuilt as DAMAGED, once what hung on it is detached: its own write, its bay, the plan (R18). -/
theorem State.rebuild_eq (s : State) (i : SlotId) :
    ∃ pass pendingList ports, s.rebuild i = { s.leaveDamaged i with
      records := (s.leaveDamaged i).records.set i (s.damagedRecord i)
      checks := (s.leaveDamaged i).checks.set i .clean
      bays := s.baysQuarantined (s.bayNaming i), freeUses := s.freeUses + 1
      passMark := pass, pendingList := pendingList, planMark := true, ports := ports } := by
  have detached := s.leaveDamaged_detaches i
  have bays := detached.bays
  have site := detached.site
  unfold State.rebuild
  generalize s.leaveDamaged i = left at bays site ⊢
  extract_lets kept counted
  obtain ⟨pendingList, ports, barred⟩ := counted.quarantineBay_eq (s.bayNaming i)
  have quarantined : counted.baysQuarantined (s.bayNaming i) = s.baysQuarantined (s.bayNaming i) := by
    apply vector_ext
    intro a
    have bay : counted.bay a = s.bay a := by
      change left.bays[a] = s.bays[a]
      rw [bays]
    rw [State.baysQuarantined_get, State.baysQuarantined_get, bay]
    change (if _ then (s.bay a).quarantined left.site.confirmTimeout else _) = _
    rw [site]
  refine ⟨(counted.quarantineBay (s.bayNaming i)).passMark, pendingList, updateAll ports fun _ x => x.deliver .roster .part, ?_⟩
  rw [barred, quarantined]
  rfl

/-! ### Bands (R30, R54) -/

/-- A temperature lies in the band found by the breakpoints (R30). -/
theorem Profile.liesIn_bandOf (pr : Profile) (t : Int) : pr.liesIn t (pr.bandOf t) := by
  unfold Profile.bandOf Profile.liesIn
  simp only [Fin.forall_fin_succ, Fin.forall_fin_zero]
  split_ifs <;> simp_all

/-- A temperature lies in one band alone. -/
theorem Profile.liesIn_unique {pr : Profile} {t : Int} {k m : Fin 6} (h : pr.liesIn t k) (g : pr.liesIn t m) : k = m := by
  have least {a c : Fin 6} (ha : pr.liesIn t a) (hc : pr.liesIn t c) : c ≤ a := by
    by_contra above
    have place : a.val < 5 := by omega
    have below := ha.2 ⟨a.val, place⟩ rfl
    have reached := hc.1 ⟨a.val, place⟩ (by simpa using above)
    omega
  exact le_antisymm (least g h) (least h g)

/-- The candidate of a report, as R54 spells it. -/
theorem Profile.candidateIs_candidateBand (pr : Profile) (k : Fin 6) (t : Int) : pr.candidateIs k t (pr.candidateBand k t) := by
  intro m lies
  have band : pr.bandOf t = m := Profile.liesIn_unique (pr.liesIn_bandOf t) lies
  unfold Profile.candidateBand
  rw [band]
  refine ⟨fun reached => if_neg (by omega), fun j below place => ?_⟩
  have lower : pr.lowerBreakpoint k = some pr.breakpoints[j] := by
    unfold Profile.lowerBreakpoint
    rw [dif_pos (by omega)]
    have same : k.val - 1 = j.val := by omega
    simp [same]
  rw [if_pos below, lower]

/-! ### A change of band (R31, R55, R77, R79) -/

/-- What the heat limit leaves of a bay: all that R54 and R55 have set. -/
structure Bay.Steady (x y : Bay) : Prop where
  band : y.band = x.band
  debounce : y.debounce = x.debounce
  stage : y.stage = x.stage
  slot : y.slot = x.slot
  temperature : y.carries .temperature = x.carries .temperature
  allowance : y.allowance = x.allowance
  heat : y.heat = x.heat
  counters : y.counters = x.counters

theorem Bay.Steady.refl (x : Bay) : Bay.Steady x x := ⟨rfl, rfl, rfl, rfl, rfl, rfl, rfl, rfl⟩

theorem Bay.Steady.trans {x y z : Bay} (h : Bay.Steady x y) (g : Bay.Steady y z) : Bay.Steady x z :=
  ⟨g.band.trans h.band, g.debounce.trans h.debounce, g.stage.trans h.stage, g.slot.trans h.slot,
    g.temperature.trans h.temperature, g.allowance.trans h.allowance, g.heat.trans h.heat, g.counters.trans h.counters⟩

theorem Bay.Steady.inhibited (x : Bay) {r : Inhibit} (t : Nat) (other : r ≠ .temperature) : Bay.Steady x (x.inhibited r t) :=
  ⟨rfl, rfl, rfl, rfl, by rw [Bay.inhibited_carries]; simp [Ne.symm other], rfl, rfl, rfl⟩

theorem Bay.Steady.quarantined (x : Bay) (t : Nat) : Bay.Steady x (x.quarantined t) :=
  ⟨rfl, rfl, rfl, rfl, by rw [Bay.quarantined_carries]; simp, rfl, rfl, rfl⟩

theorem State.baysQuarantined_steady (s : State) (o : Option BayId) (a : BayId) :
    Bay.Steady (s.bay a) ((s.baysQuarantined o)[a]) := by
  rw [State.baysQuarantined_get]
  split
  · exact .quarantined _ _
  · exact .refl _

theorem State.rebuild_bay (s : State) (i : SlotId) (a : BayId) :
    (s.rebuild i).bay a = (s.baysQuarantined (s.bayNaming i))[a] := by
  obtain ⟨pass, pendingList, ports, rebuilt⟩ := s.rebuild_eq i
  rw [rebuilt]
  rfl

theorem State.enterQuarantine_bay (s : State) (i : SlotId) (why : Reason) (a : BayId) :
    (s.enterQuarantine i why).bay a = (s.baysQuarantined (s.record i).bay)[a] := by
  obtain ⟨pendingList, ports, entered⟩ := s.enterQuarantine_eq i why
  rw [entered]
  rfl

theorem State.enterQuarantine_record (s : State) (i : SlotId) (why : Reason) (j : SlotId) :
    (s.enterQuarantine i why).record j = if j = i then (s.record i).quarantinedFor why else s.record j := by
  obtain ⟨pendingList, ports, entered⟩ := s.enterQuarantine_eq i why
  rw [entered]
  refine (get_set _ _ _ _).trans ?_
  split
  · rfl
  · rename_i other
    exact ((s.withdraw_detaches i (s.record i).lifecycle).others j other).1

theorem State.enterQuarantine_planMark (s : State) (i : SlotId) (why : Reason) :
    (s.enterQuarantine i why).planMark = true := rfl

/-- The ROSTER notice of a record that enters QUARANTINED (R13). -/
theorem State.enterQuarantine_noticed (s : State) (i : SlotId) (why : Reason) {q : PortId}
    (office : (s.port q).role = .depot ∨ (s.port q).role = .observer) :
    hasFlag ((s.enterQuarantine i why).port q).raised NoticeKind.roster.bit = true := by
  have last : (s.enterQuarantine i why).port q = Port.deliver _ .roster .part := State.notify_port _ .roster .part q
  exact ((s.enterQuarantine_evolves i why).ports q).raises_last last (Role.office_takes office _ _)

theorem State.access_steady (s : State) (i : SlotId) (a : BayId) : Bay.Steady (s.bay a) ((s.access i).bay a) := by
  unfold State.access State.countCorrection
  split
  · exact .refl _
  · dsimp only
    split <;> exact .refl _
  · rw [State.rebuild_bay]
    exact s.baysQuarantined_steady _ a

theorem State.heatLimit_steady (s : State) (b : BayId) : Bay.Steady (s.bay b) ((s.heatLimit b).bay b) := by
  unfold State.heatLimit
  split
  · rw [State.addFault, State.notify_bay, State.addInhibit_bay, if_pos rfl]
    exact .inhibited _ _ (by decide)
  · extract_lets checked
    have accessed : Bay.Steady (s.bay b) (checked.bay b) := s.access_steady _ b
    split
    · exact accessed
    · rw [State.enterQuarantine_bay]
      exact accessed.trans (checked.baysQuarantined_steady _ b)

/-- A bay whose TEMPERATURE inhibit follows its band's factor (R31). -/
def Bay.followed (x : Bay) (factor timeout : Nat) : Bay :=
  if factor = 0 then x.inhibited .temperature timeout else x.uninhibited .temperature

theorem Bay.followed_carries (x : Bay) (n t : Nat) : (x.followed n t).carries .temperature = true ↔ n = 0 := by
  unfold Bay.followed
  split
  · rename_i zero
    simp [Bay.inhibited_carries, zero]
  · rename_i above
    simp [Bay.uninhibited_carries, above]

/-- The TEMPERATURE inhibit of a bay follows its factor, with the effects of R40. -/
theorem State.followFactor_eq (s : State) (b : BayId) :
    ∃ pass pendingList ports, s.followFactor b = { s with
      bays := s.bays.set b ((s.bay b).followed ((s.bayProfile b).factor (s.bay b).band) s.site.confirmTimeout)
      passMark := pass, pendingList := pendingList, ports := ports } := by
  unfold State.followFactor Bay.followed
  simp only [beq_iff_eq]
  split
  · rw [State.addInhibit_eq]
    exact ⟨_, _, _, rfl⟩
  · split
    · rw [State.removeInhibit, State.changeBay_eq]
      exact ⟨_, _, s.ports, rfl⟩
    · rename_i absent
      rw [Bay.uninhibited_of_not (by simpa using absent), State.bay, set_self]
      exact ⟨s.passMark, s.pendingList, s.ports, rfl⟩

/-- An event counted: the bay's cell, and the ports that its COUNTER notice reaches (R80). -/
theorem State.count_eq (s : State) (b : BayId) (k : EventCounter) :
    ∃ ports, s.count b k = { s with
      bays := s.bays.set b { s.bay b with
        counters := (s.bay b).counters.set k.place ((s.bay b).counters[k.place]).counted }
      ports := ports } := by
  unfold State.count
  dsimp only
  split
  · exact ⟨_, rfl⟩
  · exact ⟨s.ports, rfl⟩

/-- A bay after a heat entry (R77). -/
def Bay.heated (x : Bay) : Bay :=
  { x with
    counters := x.counters.set EventCounter.overtemp.place (x.counters[EventCounter.overtemp.place]).counted
    heat := min 3 (x.heat + 1) }

/-- A heat entry up to its limit: the bay, and the ports of a COUNTER notice (R77). -/
def State.heatCounted (s : State) (b : BayId) : State :=
  (s.count b .overtemp).modBay b fun x => { x with heat := min 3 (x.heat + 1) }

theorem State.heatCounted_eq (s : State) (b : BayId) :
    ∃ ports, s.heatCounted b = { s with bays := s.bays.set b (s.bay b).heated, ports := ports } := by
  obtain ⟨ports, counted⟩ := s.count_eq b .overtemp
  refine ⟨ports, ?_⟩
  unfold State.heatCounted
  rw [counted]
  simp [State.modBay, State.setBay, State.bay, Bay.heated, Vector.set_set]

theorem State.heatEntry_eq (s : State) (b : BayId) :
    s.heatEntry b = if (s.bay b).heat < 2 then s.heatCounted b else (s.heatCounted b).heatLimit b := by
  unfold State.heatEntry State.heatCounted
  simp only [Nat.add_lt_iff_lt_sub_right, Nat.reduceSub]

/-- A bay that takes another band, up to the heat limit (R55, R77). -/
def Bay.rebanded (x : Bay) (k : Fin 6) (factor timeout : Nat) : Bay :=
  let moved := ({ x with band := k, debounce := 0 } : Bay).followed factor timeout
  if k = 5 then moved.heated else moved

/-- A change of band up to the heat limit. -/
def State.bandMoved (s : State) (b : BayId) (k : Fin 6) : State :=
  let moved := ((s.putBand b k).followFactor b).notify .bay (.bay b)
  if k = 5 then moved.heatCounted b else moved

theorem State.bandMoved_eq (s : State) (b : BayId) (k : Fin 6) :
    ∃ pass pendingList ports, s.bandMoved b k = { s with
      bays := s.bays.set b ((s.bay b).rebanded k ((s.bayProfile b).factor k) s.site.confirmTimeout)
      passMark := pass, pendingList := pendingList, ports := ports } := by
  obtain ⟨pass, pendingList, ports, followed⟩ := (s.putBand b k).followFactor_eq b
  have placed : (s.putBand b k).bay b = { s.bay b with band := k, debounce := 0 } := by
    rw [State.putBand, State.modBay_bay, if_pos rfl]
  have profile : (s.putBand b k).bayProfile b = s.bayProfile b := by
    rw [State.bayProfile, placed]
    rfl
  rw [placed, profile] at followed
  unfold State.bandMoved Bay.rebanded
  dsimp only
  split
  · obtain ⟨after, heated⟩ := (((s.putBand b k).followFactor b).notify .bay (.bay b)).heatCounted_eq b
    refine ⟨pass, pendingList, after, ?_⟩
    rw [heated, followed]
    simp [State.putBand, State.modBay, State.setBay, State.notify, State.bay, Vector.set_set]
  · refine ⟨pass, pendingList, updateAll ports fun _ x => x.deliver .bay (.bay b), ?_⟩
    rw [followed]
    simp [State.putBand, State.modBay, State.setBay, State.notify, Vector.set_set]

theorem State.bandMoved_bay (s : State) (b a : BayId) (k : Fin 6) :
    (s.bandMoved b k).bay a =
      if a = b then (s.bay b).rebanded k ((s.bayProfile b).factor k) s.site.confirmTimeout else s.bay a := by
  obtain ⟨pass, pendingList, ports, moved⟩ := s.bandMoved_eq b k
  rw [moved]
  exact get_set _ _ _ _

theorem State.bandMoved_records (s : State) (b : BayId) (k : Fin 6) : (s.bandMoved b k).records = s.records := by
  obtain ⟨pass, pendingList, ports, moved⟩ := s.bandMoved_eq b k
  rw [moved]

/-- The ports at a change of band: its BAY notice, before what a heat entry does to them (R55). -/
theorem State.bandMoved_port (s : State) (b : BayId) (k : Fin 6) (q : PortId) :
    ∃ x, PortMoves (s.port q) x ∧ PortMoves (x.deliver .bay (.bay b)) ((s.bandMoved b k).port q) := by
  refine ⟨((s.putBand b k).followFactor b).port q,
    ((s.putBand_evolves b k).trans (State.followFactor_evolves _ b)).ports q, ?_⟩
  unfold State.bandMoved
  dsimp only
  rw [← State.notify_port]
  split
  · generalize ((s.putBand b k).followFactor b).notify .bay (.bay b) = u
    exact (u.count_evolves b .overtemp).ports q
  · exact .refl _

theorem State.bandMoved_moves (s : State) (b : BayId) (k : Fin 6) (q : PortId) :
    PortMoves (s.port q) ((s.bandMoved b k).port q) := by
  obtain ⟨x, before, after⟩ := s.bandMoved_port b k q
  exact (before.trans (.deliver x _ _)).trans after

/-- A change of band reaches the heat limit at the third heat entry (R79). -/
theorem State.changeBand_eq (s : State) (b : BayId) (k : Fin 6) :
    s.changeBand b k =
      if k = 5 ∧ 2 ≤ (s.bay b).heat then (s.bandMoved b k).heatLimit b else s.bandMoved b k := by
  have heat : ((((s.putBand b k).followFactor b).notify .bay (.bay b)).bay b).heat = (s.bay b).heat := by
    obtain ⟨pass, pendingList, ports, followed⟩ := (s.putBand b k).followFactor_eq b
    rw [State.notify_bay, followed]
    refine (congrArg Bay.heat (get_set _ _ _ _)).trans ?_
    rw [if_pos rfl, State.putBand, State.modBay_bay, if_pos rfl]
    unfold Bay.followed
    split <;> rfl
  unfold State.changeBand State.bandMoved
  by_cases hot : k = 5
  · subst hot
    simp only [if_true, true_and]
    rw [State.heatEntry_eq, heat]
    split
    · rw [if_neg (by omega)]
    · rw [if_pos (by omega)]
  · simp only [hot, if_false, false_and]

/-! ### The heat limit (R79) -/

theorem State.heatLimit_of_noRecord {s : State} {b : BayId} (slot : (s.bay b).slot = none) :
    s.heatLimit b = s.addFault b := by
  unfold State.heatLimit
  rw [slot]

theorem State.sound.heatLimit_of_record {s : State} (h : s.sound) {b : BayId} {i : SlotId} (slot : (s.bay b).slot = some i) :
    s.heatLimit b = if (s.record i).lifecycle = .quarantined then s else s.enterQuarantine i .heat := by
  unfold State.heatLimit
  rw [slot]
  simp only [h.access, beq_iff_eq]

theorem Bay.followed_fields (x : Bay) (n t : Nat) :
    (x.followed n t).band = x.band ∧ (x.followed n t).debounce = x.debounce ∧ (x.followed n t).stage = x.stage ∧
      (x.followed n t).slot = x.slot ∧ (x.followed n t).allowance = x.allowance ∧ (x.followed n t).heat = x.heat ∧
      (x.followed n t).counters = x.counters ∧ (x.followed n t).grant = if n = 0 then 0 else x.grant := by
  unfold Bay.followed
  split
  · exact ⟨rfl, rfl, rfl, rfl, rfl, rfl, rfl, rfl⟩
  · exact ⟨rfl, rfl, rfl, rfl, rfl, rfl, rfl, rfl⟩

/-- The bay of a change of band, up to the heat limit: its fields as R31, R55 and R77 set them. -/
theorem Bay.rebanded_fields (x : Bay) (k : Fin 6) (n t : Nat) :
    (x.rebanded k n t).band = k ∧ (x.rebanded k n t).debounce = 0 ∧ (x.rebanded k n t).stage = x.stage ∧
      (x.rebanded k n t).slot = x.slot ∧ ((x.rebanded k n t).carries .temperature = true ↔ n = 0) ∧
      (x.rebanded k n t).allowance = x.allowance ∧ (x.rebanded k n t).heat = (if k = 5 then min 3 (x.heat + 1) else x.heat) ∧
      (x.rebanded k n t).counters[EventCounter.overtemp.place] = (if k = 5 then
        (x.counters[EventCounter.overtemp.place]).counted else x.counters[EventCounter.overtemp.place]) ∧
      (x.rebanded k n t).grant = if n = 0 then 0 else x.grant := by
  have carries := Bay.followed_carries { x with band := k, debounce := 0 } n t
  have steady := Bay.followed_fields { x with band := k, debounce := 0 } n t
  obtain ⟨band, debounce, stage, slot, allowance, heat, counters, grant⟩ := steady
  unfold Bay.rebanded
  dsimp only
  generalize ({ x with band := k, debounce := 0 } : Bay).followed n t = y at *
  split
  · refine ⟨band, debounce, stage, slot, carries, allowance, ?_, ?_, grant⟩
    · rw [Bay.heated, heat]
    · rw [Bay.heated, counters]
      exact (get_set _ _ _ _).trans (if_pos rfl)
  · exact ⟨band, debounce, stage, slot, carries, allowance, heat, by simp only [counters], grant⟩

end Sys2Proof.Machine

open Sys2Proof Sys2Proof.Machine

/-- Settles O27: the candidate (Profile.candidateIs_candidateBand), the debounce, the change of band up to the heat limit
(State.bandMoved), and the limit by the bay's record. -/
theorem bandTakesThreeReports : Obligations.BandTakesThreeReports := by
  intro s b temperature x pr k t limit
  have track : t = if x.carries .profile then s
      else if k = x.band then s.modBay b fun y => { y with debounce := 0 }
      else if x.debounce + 1 < 3 then s.modBay b fun y => { y with debounce := y.debounce + 1 }
      else s.changeBand b k := rfl
  clear_value t
  refine ⟨pr.liesIn_bandOf _, pr.candidateIs_candidateBand _ _, fun barred => ?_, fun free early => ?_, fun free other third => ?_⟩
  · rw [track, if_pos barred]
  · rw [track, if_neg (by simp [free])]
    by_cases same : k = x.band
    · rw [if_pos same, if_pos same]
      exact ⟨(s.modBay_bay b b _).trans (if_pos rfl), fun a other => (s.modBay_bay b a _).trans (if_neg other), rfl, rfl⟩
    · rw [if_neg same, if_neg same, if_pos (by have := early.resolve_left same; omega)]
      exact ⟨(s.modBay_bay b b _).trans (if_pos rfl), fun a other => (s.modBay_bay b a _).trans (if_neg other), rfl, rfl⟩
  · rw [if_neg (by simp [free]), if_neg other, if_neg (by omega), State.changeBand_eq] at track
    change t = if limit then (s.bandMoved b k).heatLimit b else s.bandMoved b k at track
    obtain ⟨band, debounce, stage, slot, carries, allowance, heat, counters, grant⟩ :=
      x.rebanded_fields k ((s.bayProfile b).factor k) s.site.confirmTimeout
    have moved (a : BayId) := s.bandMoved_bay b a k
    have own := (moved b).trans (if_pos rfl)
    have steady : Bay.Steady (x.rebanded k ((s.bayProfile b).factor k) s.site.confirmTimeout) (t.bay b) := by
      rw [track, ← own]
      split
      · exact State.heatLimit_steady _ b
      · exact .refl _
    have noticed : ∀ q, (s.port q).role.takes .bay (.bay b) = true → hasFlag (t.port q).raised NoticeKind.bay.bit = true := by
      intro q takes
      obtain ⟨y, before, after⟩ := s.bandMoved_port b k q
      refine before.raises takes (after.trans ?_)
      rw [track]
      split
      · exact ((s.bandMoved b k).heatLimit_evolves b).ports q
      · exact .refl _
    refine ⟨steady.band.trans band, steady.debounce.trans debounce, steady.stage.trans stage, steady.slot.trans slot,
      steady.temperature ▸ carries, steady.allowance.trans allowance, steady.heat.trans heat, ?_, noticed, fun below => ?_,
      fun reached unlisted => ?_, fun i reached docked sound names => ?_⟩
    · simp only [steady.counters]
      exact counters
    · rw [track, if_neg below, own]
      exact ⟨grant, fun a other => (moved a).trans (if_neg other), s.bandMoved_records b k⟩
    · have slotless : ((s.bandMoved b k).bay b).slot = none := by rw [own, slot]; exact unlisted
      rw [if_pos reached, State.heatLimit_of_noRecord slotless, State.addFault] at track
      rw [track]
      refine ⟨?_, ?_, fun a other => ?_, ?_, fun q takes => ?_⟩
      · rw [State.notify_bay, State.addInhibit_bay, if_pos rfl, Bay.inhibited_carries]
        simp
      · rw [State.notify_bay, State.addInhibit_bay, if_pos rfl]
        rfl
      · rw [State.notify_bay, State.addInhibit_bay, if_neg other, moved, if_neg other]
      · rw [State.notify_records, State.addInhibit_eq]
        exact s.bandMoved_records b k
      · rw [State.notify_port]
        have added := ((s.bandMoved b k).addInhibit_evolves b .fault).ports q
        exact ((s.bandMoved_moves b k q).trans added).raises takes (.refl _)
    · have holds : ((s.bandMoved b k).bay b).slot = some i := by rw [own, slot]; exact docked
      have record (j : SlotId) : (s.bandMoved b k).record j = s.record j := by
        rw [State.record, s.bandMoved_records]
        rfl
      have same : (s.bandMoved b k).sound := by
        obtain ⟨pass, pendingList, ports, e⟩ := s.bandMoved_eq b k
        exact sound.of_checks (by rw [e])
      rw [if_pos reached, same.heatLimit_of_record holds, record] at track
      by_cases already : (s.record i).lifecycle = .quarantined
      · rw [if_pos already] at track
        rw [track, own]
        exact ⟨fun a other => (moved a).trans (if_neg other), fun j _ => record j, fun _ => ⟨record i, grant⟩, fun not => absurd already not⟩
      · rw [if_neg already] at track
        rw [track]
        have bay (a : BayId) : ((s.bandMoved b k).enterQuarantine i .heat).bay a = if a = b then
            ((s.bandMoved b k).bay b).quarantined (s.bandMoved b k).site.confirmTimeout else s.bay a := by
          rw [State.enterQuarantine_bay, State.baysQuarantined_get, record, names]
          by_cases here : a = b
          · rw [if_pos (by rw [here]), if_pos here, here]
          · rw [if_neg (by simpa using Ne.symm here), if_neg here, moved, if_neg here]
        refine ⟨fun a other => (bay a).trans (if_neg other), fun j other => ?_, fun not => absurd not already,
          fun _ => ⟨?_, ?_, ?_, ?_, rfl, fun q office => ?_⟩⟩
        · rw [State.enterQuarantine_record, if_neg other, record]
        · rw [State.enterQuarantine_record, if_pos rfl, record]
          rfl
        · rw [bay, if_pos rfl, Bay.quarantined_carries]
          simp
        · rw [bay, if_pos rfl, Bay.quarantined_carries]
          simp
        · rw [bay, if_pos rfl]
          rfl
        · refine State.enterQuarantine_noticed _ i .heat ?_
          rw [(s.bandMoved_moves b k q).role]
          exact office

end

section
/-!
DOCK (R42 to R45): the record it leaves, the bay it sets up, and the slot it lists a new tag into. O19, O20.
-/

namespace Sys2Proof.Machine

/-! ### The record of a found pack (R43, R44) -/

/-- A found record put under the bay: what it keeps, and what an ISSUED one takes (R43). -/
theorem PackRecord.redocked_eq (r : PackRecord) (b : BayId)
    (found : r.lifecycle = .stored ∨ r.lifecycle = .issued ∨ r.lifecycle = .quarantined) :
    r.redocked b = { r with
      lifecycle := if r.lifecycle = .quarantined then .quarantined else .docked
      bay := some b
      cycles := if r.lifecycle = .issued then countTo 65535 r.cycles else r.cycles
      sweeper := if r.lifecycle = .issued then none else r.sweeper } := by
  obtain ⟨tag, profile, lifecycle, bay, sweeper, reservation, estimate, residue, capacity, cycles, since, ready, seen, reason⟩ := r
  dsimp only at found
  rcases found with e | e | e <;> subst e <;> rfl

/-- A record that takes a profile: its own, or another with its rated capacity and the estimate lowered to the bound (R43). -/
theorem PackRecord.reprofiled_eq (r : PackRecord) (k : ProfileId) (rated : Nat) :
    r.reprofiled k rated = { r with
      profile := k
      capacity := if r.profile = k then r.capacity else rated
      estimate := if r.profile = k then r.estimate else min (rated * 110 / 100) r.estimate
      residue := if r.profile ≠ k ∧ rated * 110 / 100 < r.estimate then 0 else r.residue } := by
  unfold PackRecord.reprofiled
  by_cases own : r.profile = k
  · subst own
    simp
  · by_cases bound : rated * 110 / 100 < r.estimate
    · simp [own, bound, Nat.min_eq_left bound.le]
    · simp [own, bound, Nat.min_eq_right (Nat.le_of_not_lt bound)]

/-- A record after its charge estimate is set at a dock (R44). -/
theorem PackRecord.gauged_eq (r : PackRecord) (g : Option Nat) (issued : Bool) (pr : Profile) :
    r.gauged g issued pr = { r with
      estimate := match g with
        | some g => r.capacity * g / 100
        | none => if issued = true ∧ pr.valid = true then r.capacity * pr.returnEstimate / 100 else r.estimate
      residue := if g.isSome ∨ issued = true ∧ pr.valid = true then 0 else r.residue } := by
  unfold PackRecord.gauged
  cases g with
  | some g => simp
  | none => cases issued <;> cases pr.valid <;> simp

/-! ### The bay that a dock sets up (R45) -/

/-- The stage of a docking bay by its record, BULK where the record or a valid profile is missing (R45). -/
def State.seatedStage (s : State) (d : Docking) (o : Option SlotId) : Stage :=
  match o with
  | some i =>
    if (s.profile d.profile).valid = true ∧ (s.profile d.profile).absorbAt (s.record i).capacity ≤ (s.record i).estimate then .absorb
    else .bulk
  | none => .bulk

/-- The band of a docking bay (R29, R45). -/
def Profile.dockedBand (pr : Profile) (t : Int) : Fin 6 := if pr.valid then pr.bandOf t else 0

/-- The inhibits of a docking bay, by its record, its profile, the hold and the zone (R11, R29, R31, R45). -/
def State.seatedInhibits (s : State) (b : BayId) (d : Docking) (o : Option SlotId) : FlagSet 9 :=
  addWhen o.isNone .unlisted <| addWhen (o.any fun i => (s.record i).lifecycle == .quarantined) .quarantine <|
    addWhen (!(s.profile d.profile).valid) .profile <|
      addWhen ((s.profile d.profile).valid &&
        (s.profile d.profile).factor ((s.profile d.profile).dockedBand (clampTemperature d.temperature)) == 0) .temperature <|
        addWhen s.supply.holding .hold <| addWhen (s.supply.zoneOn && !s.supply.insideZone b) .restricted 0

/-- The bay as a dock leaves it, but for a heat entry (R45). -/
def State.seated (s : State) (b : BayId) (d : Docking) (o : Option SlotId) : Bay :=
  { (s.bay b).occupied d o with
    band := (s.profile d.profile).dockedBand (clampTemperature d.temperature)
    inhibits := s.seatedInhibits b d o
    stage := s.seatedStage d o }

theorem hasFlag_addWhen (c : Bool) (r a : Inhibit) (f : FlagSet 9) :
    hasFlag (addWhen c r f) a.bit = (hasFlag f a.bit || c && decide (a = r)) := by
  unfold addWhen
  cases c <;> simp [beq_eq_decide, Inhibit.bit_inj]

/-- The reasons of a docking bay (R45). -/
theorem State.seated_carries (s : State) (b : BayId) (d : Docking) (o : Option SlotId) (r : Inhibit) :
    (s.seated b d o).carries r = true ↔
      r = .unlisted ∧ o = none ∨ r = .quarantine ∧ (∃ i, o = some i ∧ (s.record i).lifecycle = .quarantined) ∨
        r = .profile ∧ (s.profile d.profile).valid = false ∨
        r = .temperature ∧ (s.profile d.profile).valid = true ∧
          (s.profile d.profile).factor ((s.profile d.profile).dockedBand (clampTemperature d.temperature)) = 0 ∨
        r = .hold ∧ (s.supply.hold = .windingDown ∨ s.supply.hold = .held) ∨
        r = .restricted ∧ s.supply.zoneOn = true ∧ s.supply.insideZone b = false := by
  rw [Bay.carries]
  simp only [State.seated, State.seatedInhibits, hasFlag_addWhen, hasFlag_zero, Supply.holding]
  cases r <;> cases o <;> simp

theorem State.modBay_setBay (s : State) (b : BayId) (x : Bay) (f : Bay → Bay) :
    (s.setBay b x).modBay b f = s.setBay b (f x) := by
  simp [State.modBay, State.setBay, State.bay, Vector.set_set]

theorem State.setBay_bay_self (s : State) (b : BayId) (x : Bay) : (s.setBay b x).bay b = x := by
  rw [State.setBay_bay, if_pos rfl]

theorem State.dockBand_setBay (s : State) (b : BayId) (x : Bay) :
    (s.setBay b x).dockBand b = (s.profile x.profile).dockedBand x.dockTemperature := by
  unfold State.dockBand State.bayProfile Profile.dockedBand
  rw [State.setBay_bay_self]
  rfl

/-- The inhibits of a docking bay whose slot, profile and band are set. -/
theorem State.dockInhibits_setBay (s : State) (b : BayId) (d : Docking) (o : Option SlotId) :
    (s.setBay b { (s.bay b).occupied d o with
      band := (s.profile d.profile).dockedBand (clampTemperature d.temperature) }).dockInhibits b = s.seatedInhibits b d o := by
  unfold State.dockInhibits State.bayProfile State.holdsQuarantined State.seatedInhibits
  rw [State.setBay_bay_self]
  cases o <;> rfl

/-- The stage of a bay for the record in its slot (R45). -/
theorem State.dockStage_setBay {s : State} {b : BayId} {d : Docking} {o : Option SlotId} {x : Bay} (slot : x.slot = o)
    (profile : x.profile = d.profile) (barred : x.carries .profile = !(s.profile d.profile).valid) :
    (s.setBay b x).dockStage b = s.seatedStage d o := by
  unfold State.dockStage State.stageFor State.seatedStage
  rw [State.setBay_bay_self, slot]
  cases o with
  | none => rfl
  | some i =>
    dsimp only
    rw [barred, profile, State.setBay_record, State.setBay_profile]
    by_cases charged : (s.profile d.profile).absorbAt (s.record i).capacity ≤ (s.record i).estimate
    · cases (s.profile d.profile).valid <;> simp [charged, Nat.not_lt.mpr charged]
    · cases (s.profile d.profile).valid <;> simp [charged, Nat.lt_of_not_le charged]

theorem State.seated_barred (s : State) (b : BayId) (d : Docking) (o : Option SlotId) :
    (s.seated b d o).carries .profile = !(s.profile d.profile).valid := by
  have carries := s.seated_carries b d o .profile
  simp only [reduceCtorEq, false_and, true_and, false_or, or_false] at carries
  rw [Bool.eq_iff_iff, Bool.not_eq_true']
  exact carries

/-- A docking bay set up, before its heat entry and its notice (R45). -/
def State.dockSeat (s : State) (b : BayId) (d : Docking) (o : Option SlotId) : State := s.setBay b (s.seated b d o)

/-- The bay's part of a dock: the bay set up, its heat entry, its notice, both requests (R45, R77). -/
theorem State.dockBay_eq_seat (s : State) (b : BayId) (d : Docking) (o : Option SlotId) :
    s.dockBay b d o = (((if (s.profile d.profile).valid = true ∧ (s.seated b d o).band = 5 then (s.dockSeat b d o).heatEntry b
      else s.dockSeat b d o).notify .bay (.bay b)).requestPass).requestPlan := by
  have placed : (s.modBay b fun x => x.occupied d o) = s.setBay b ((s.bay b).occupied d o) := rfl
  unfold State.dockBay
  extract_lets p1 banded inhibited staged heated
  have band : banded = s.setBay b { (s.bay b).occupied d o with
      band := (s.profile d.profile).dockedBand (clampTemperature d.temperature) } := by
    unfold banded p1
    rw [placed, State.modBay_setBay, State.dockBand_setBay]
    rfl
  have inhibits : inhibited = s.setBay b { (s.bay b).occupied d o with
      band := (s.profile d.profile).dockedBand (clampTemperature d.temperature)
      inhibits := s.seatedInhibits b d o } := by
    unfold inhibited
    rw [band, State.modBay_setBay, State.dockInhibits_setBay]
  have seat : staged = s.dockSeat b d o := by
    unfold staged
    rw [inhibits, State.modBay_setBay, State.dockStage_setBay (d := d) (o := o) rfl rfl]
    · rfl
    · exact s.seated_barred b d o
  have bay : (s.dockSeat b d o).bay b = s.seated b d o := State.setBay_bay_self _ _ _
  unfold heated
  rw [seat, State.bayProfile, bay]
  simp only [Bool.and_eq_true, beq_iff_eq]
  rfl

/-- The bay's part of a dock: the bay and the ports, and both requests (R45, R77). -/
theorem State.dockBay_eq (s : State) (b : BayId) (d : Docking) (o : Option SlotId) :
    ∃ counters ports,
      ((s.profile d.profile).valid = false → counters = (s.bay b).counters) ∧
      s.dockBay b d o = { s with
        bays := s.bays.set b { s.seated b d o with
          heat := if (s.profile d.profile).valid = true ∧ (s.seated b d o).band = 5 then 1 else 0
          counters := counters }
        passMark := true, planMark := true, ports := ports } := by
  have bay : (s.dockSeat b d o).bay b = s.seated b d o := State.setBay_bay_self _ _ _
  rw [State.dockBay_eq_seat]
  by_cases hot : (s.profile d.profile).valid = true ∧ (s.seated b d o).band = 5
  · obtain ⟨ports, heated⟩ := (s.dockSeat b d o).heatCounted_eq b
    have cool : ((s.dockSeat b d o).bay b).heat = 0 := by rw [bay]; rfl
    refine ⟨(s.seated b d o).heated.counters, updateAll ports fun _ x => x.deliver .bay (.bay b),
      fun invalid => absurd (invalid ▸ hot.1) (by decide), ?_⟩
    rw [if_pos hot, if_pos hot, State.heatEntry_eq, if_pos (by omega), heated, bay]
    simp only [State.dockSeat, State.setBay, State.notify, State.requestPass, State.requestPlan, Vector.set_set]
    rfl
  · refine ⟨(s.bay b).counters, updateAll s.ports fun _ x => x.deliver .bay (.bay b), fun _ => rfl, ?_⟩
    rw [if_neg hot, if_neg hot]
    rfl

/-- The BAY notice of a dock (R45). -/
theorem State.dockBay_port (s : State) (b : BayId) (d : Docking) (o : Option SlotId) (q : PortId) :
    ∃ y : Port, (s.dockBay b d o).port q = y.deliver .bay (.bay b) := ⟨_, State.notify_port _ .bay (.bay b) q⟩

/-! ### The roster's part of a dock (R5, R43) -/

/-- The record that a dock puts under the bay, on a sound roster: its slot, the seen counter and the ports. -/
theorem State.sound.dockRoster_some {s : State} (h : s.sound) {b : BayId} {d : Docking} {i : SlotId}
    (slot : s.dockSlot d = some i) :
    ∃ ports, s.dockRoster b d = { s with
      seenCounter := countTo 4294967295 s.seenCounter
      records := s.records.set i { s.dockRecord b d i with seen := countTo 4294967295 s.seenCounter }
      ports := ports } := by
  unfold State.dockRoster
  dsimp only
  rw [slot]
  dsimp only
  split
  · obtain ⟨ports, written⟩ := State.sound.putRecord (s := s.countSeen.notify .roster .part) h i
      { s.dockRecord b d i with seen := s.countSeen.seenCounter }
    exact ⟨ports, written⟩
  · obtain ⟨ports, written⟩ := State.sound.putRecord (s := s.countSeen) h i
      { s.dockRecord b d i with seen := s.countSeen.seenCounter }
    exact ⟨ports, written⟩

/-- A dock that leaves the bay UNLISTED touches no record. -/
theorem State.dockRoster_none {s : State} {b : BayId} {d : Docking} (slot : s.dockSlot d = none) :
    ∃ ports, s.dockRoster b d = { s with seenCounter := countTo 4294967295 s.seenCounter, ports := ports } := by
  unfold State.dockRoster
  dsimp only
  rw [slot]
  dsimp only
  split
  · exact ⟨_, rfl⟩
  · exact ⟨s.ports, rfl⟩

/-- What a taken DOCK leaves, before its transaction ends. -/
def State.docked (s : State) (b : BayId) (d : Docking) : State := (s.dockRoster b d).dockBay b d (s.dockSlot d)

theorem State.docked_moves (s : State) (b : BayId) {d : Docking} (sane : d.sane) (q : PortId) :
    PortMoves (s.port q) ((s.docked b d).port q) :=
  ((s.dockRoster_evolves b d sane).ports q).trans (((s.dockRoster b d).dockBay_evolves b d (s.dockSlot d)).ports q)

/-- The BAY notice of a taken DOCK. -/
theorem State.docked_noticed (s : State) (b : BayId) {d : Docking} (sane : d.sane) (q : PortId)
    (takes : (s.port q).role.takes .bay (.bay b) = true) :
    hasFlag ((s.docked b d).port q).raised NoticeKind.bay.bit = true ∧ hasFlag ((s.docked b d).port q).summary b = true := by
  obtain ⟨y, last⟩ := (s.dockRoster b d).dockBay_port b d (s.dockSlot d) q
  exact ⟨(s.docked_moves b sane q).raises_last last takes, (s.docked_moves b sane q).joins_last last takes⟩

/-- A DOCK that passes its checks, on a sound roster (R42). -/
theorem State.sound.execDock {s : State} (h : s.sound) {p : PortId} {params : List Byte} {b : BayId} {d : Docking}
    (accepted : s.accepts p rowDock params = true) (named : s.localBay p (byteAt params 0) = some b)
    (empty : (s.bay b).stage = .empty) (docking : dockingOf params = some d) (free : s.tagEngaged d.tag = false) :
    exec (.dock p params) s = .next ((s.docked b d).setPort p (((s.docked b d).port p).wrote params .ok)) := by
  refine congrArg Host.Outcome.next (State.clusterCommand_writes accepted rfl named ?_
    (s.docked_moves b (dockingOf_sane params d docking) p))
  rw [if_neg (by simp [empty]), docking]
  change s.dockTag b d = _
  unfold State.dockTag
  dsimp only
  rw [h.accessAll, if_neg (by simp [free])]
  rfl

/-- No bay's copy stands for a tag that no bay with a pack holds. -/
theorem State.tagInBayCopy_eq_false {s : State} {t : Tag} (h : ∀ a, (s.bay a).stage ≠ .empty → (s.bay a).tag ≠ t) :
    s.tagInBayCopy t = false := by
  unfold State.tagInBayCopy
  rw [List.any_eq_false]
  intro a _
  by_cases stage : (s.bay a).stage = .empty
  · simp [stage]
  · simp [h a stage]

/-! ### A dock that finds its record -/

section Found
variable {s : State} {b : BayId} {d : Docking} {i : SlotId}
  (known : d.tag ≠ 0) (tag : (s.record i).tag = d.tag)
  (found : (s.record i).lifecycle = .stored ∨ (s.record i).lifecycle = .issued ∨
    (s.record i).lifecycle = .quarantined ∧ (s.record i).bay = none)
  (only : ∀ j, j ≠ i → (s.record j).lifecycle ≠ .free → (s.record j).tag ≠ d.tag)

include known tag found only in
theorem State.slotOfTag_of_found : s.slotOfTag d.tag = some i := by
  refine State.slotOfTag_of_unique _ i known tag ?_ fun j present same => ?_
  · rcases found with e | e | ⟨e, _⟩ <;> rw [e] <;> decide
  · by_contra other
    exact only j other present same

include known tag found only in
theorem State.tagEngaged_of_found (copies : ∀ a, (s.bay a).stage ≠ .empty → (s.bay a).tag ≠ d.tag) :
    s.tagEngaged d.tag = false := by
  unfold State.tagEngaged
  rw [State.tagInBayCopy_eq_false copies, State.slotOfTag_of_found known tag found only, Bool.false_or]
  rcases found with e | e | ⟨e, undocked⟩
  · simp [e]
  · simp [e]
  · simp [e, undocked]

/-- The record of a found pack as the dock leaves it, but for its seen stamp (R43, R44). -/
def State.foundRecord (s : State) (b : BayId) (d : Docking) (i : SlotId) : PackRecord :=
  let r := s.record i
  let pr := s.profile d.profile
  let capacity := if r.profile = d.profile then r.capacity else pr.rated
  { r with
    lifecycle := if r.lifecycle = .quarantined then .quarantined else .docked
    bay := some b
    cycles := if r.lifecycle = .issued then countTo 65535 r.cycles else r.cycles
    sweeper := if r.lifecycle = .issued then none else r.sweeper
    profile := d.profile
    capacity := capacity
    estimate := match d.gauge with
      | some g => capacity * g / 100
      | none => if r.lifecycle = .issued ∧ pr.valid = true then capacity * pr.returnEstimate / 100
        else if r.profile = d.profile then r.estimate else min (pr.rated * 110 / 100) r.estimate
    residue := if d.gauge.isSome ∨ r.lifecycle = .issued ∧ pr.valid = true then 0
      else if r.profile ≠ d.profile ∧ pr.rated * 110 / 100 < r.estimate then 0 else r.residue }

include known tag found only in
theorem State.dockRecord_of_found : s.dockRecord b d i = s.foundRecord b d i := by
  unfold State.dockRecord State.foundRecord
  rw [State.slotOfTag_of_found known tag found only]
  dsimp only
  rw [PackRecord.redocked_eq _ _ (found.imp_right (Or.imp_right And.left)), PackRecord.reprofiled_eq, PackRecord.gauged_eq]
  simp only [beq_iff_eq]

end Found

/-! ### A taken DOCK as one update -/

/-- The part with another record in a slot. -/
def State.withRecord (s : State) (i : SlotId) (r : PackRecord) : State := { s with records := s.records.set i r }

theorem State.withRecord_record (s : State) (i j : SlotId) (r : PackRecord) :
    (s.withRecord i r).record j = if j = i then r else s.record j := get_set _ _ _ _

/-- The heat count that a dock leaves: 1 where it sets the band to 5 (R77). -/
def State.seatedHeat (s : State) (d : Docking) : Nat :=
  if (s.profile d.profile).valid = true ∧ (s.profile d.profile).dockedBand (clampTemperature d.temperature) = 5 then 1 else 0

/-- A DOCK that puts a record under its bay, on a sound roster (R5, R43, R45). -/
theorem State.sound.docked_some {s : State} (h : s.sound) {b : BayId} {d : Docking} {i : SlotId} {r : PackRecord}
    (slot : s.dockSlot d = some i) (put : s.dockRecord b d i = r) :
    ∃ counters ports,
      ((s.profile d.profile).valid = false → counters = (s.bay b).counters) ∧
      s.docked b d = { s.withRecord i { r with seen := countTo 4294967295 s.seenCounter } with
        seenCounter := countTo 4294967295 s.seenCounter
        bays := s.bays.set b { (s.withRecord i { r with seen := countTo 4294967295 s.seenCounter }).seated b d (some i) with
          heat := s.seatedHeat d, counters := counters }
        passMark := true, planMark := true, ports := ports } := by
  subst put
  obtain ⟨before, roster⟩ := h.dockRoster_some (b := b) slot
  obtain ⟨counters, ports, kept, bay⟩ := (s.dockRoster b d).dockBay_eq b d (some i)
  rw [roster] at kept bay
  refine ⟨counters, ports, kept, ?_⟩
  unfold State.docked
  rw [slot, roster, bay]
  rfl

/-- A DOCK that leaves its bay UNLISTED (R11, R45). -/
theorem State.docked_none {s : State} {b : BayId} {d : Docking} (slot : s.dockSlot d = none) :
    ∃ counters ports,
      ((s.profile d.profile).valid = false → counters = (s.bay b).counters) ∧
      s.docked b d = { s with
        seenCounter := countTo 4294967295 s.seenCounter
        bays := s.bays.set b { s.seated b d none with heat := s.seatedHeat d, counters := counters }
        passMark := true, planMark := true, ports := ports } := by
  obtain ⟨before, roster⟩ := State.dockRoster_none (b := b) slot
  obtain ⟨counters, ports, kept, bay⟩ := (s.dockRoster b d).dockBay_eq b d none
  rw [roster] at kept bay
  refine ⟨counters, ports, kept, ?_⟩
  unfold State.docked
  rw [slot, roster, bay]
  rfl

theorem State.seatedStage_ne_empty (s : State) (d : Docking) (o : Option SlotId) : s.seatedStage d o ≠ .empty := by
  unfold State.seatedStage
  split
  · split <;> decide
  · decide

/-! ### Where a new tag is listed (R9, R10) -/

theorem keyLe_total (a b : List Int) : keyLe a b = true ∨ keyLe b a = true := by
  induction a generalizing b with
  | nil => exact .inl rfl
  | cons x a ih =>
    cases b with
    | nil => exact .inr rfl
    | cons y b =>
      rcases lt_trichotomy x y with below | same | above
      · exact .inl (by simp [keyLe, below])
      · subst same
        simpa [keyLe] using ih b
      · exact .inr (by simp [keyLe, above])

theorem keyLe_trans {a b c : List Int} (h : keyLe a b = true) (g : keyLe b c = true) : keyLe a c = true := by
  induction a generalizing b c with
  | nil => rfl
  | cons x a ih =>
    cases b with
    | nil => cases h
    | cons y b =>
      cases c with
      | nil => cases g
      | cons z c =>
        simp only [keyLe] at h g ⊢
        split at h
        · rename_i xy
          split at g
          · rename_i yz
            rw [if_pos (xy.trans yz)]
          · rename_i yz
            split at g
            · cases g
            · rename_i zy
              rw [if_pos (by omega)]
        · rename_i xy
          split at h
          · cases h
          · rename_i yx
            split at g
            · rename_i yz
              rw [if_pos (by omega)]
            · rename_i yz
              split at g
              · cases g
              · rename_i zy
                rw [if_neg (by omega), if_neg (by omega)]
                exact ih h g

/-- The first of a list in the order of its keys, where no other has a key as small. -/
theorem head?_sortByKey {α : Type} (key : α → List Int) {l : List α} {a : α} (mem : a ∈ l)
    (least : ∀ b ∈ l, keyLe (key b) (key a) = true → b = a) : (sortByKey key l).head? = some a := by
  have total : Std.Total fun a b => keyLe (key a) (key b) = true := ⟨fun a b => keyLe_total _ _⟩
  have trans : IsTrans α fun a b => keyLe (key a) (key b) = true := ⟨fun _ _ _ => keyLe_trans⟩
  have sorted := List.pairwise_insertionSort (fun a b => keyLe (key a) (key b) = true) l
  have same (b : α) : b ∈ sortByKey key l ↔ b ∈ l := List.mem_insertionSort _
  unfold sortByKey at same ⊢
  cases order : l.insertionSort fun a b => keyLe (key a) (key b) = true with
  | nil =>
    rw [order] at same
    exact absurd ((same a).mpr mem) List.not_mem_nil
  | cons b rest =>
    rw [order] at same sorted
    have first : b = a := by
      rcases List.mem_cons.mp ((same a).mpr mem) with here | later
      · exact here.symm
      · exact least b ((same b).mp List.mem_cons_self) ((List.pairwise_cons.mp sorted).1 a later)
    rw [first, List.head?_cons]

/-- The lowest FREE slot (R9). -/
theorem State.freeSlot_eq_some {s : State} {i : SlotId} (free : (s.record i).lifecycle = .free)
    (lowest : ∀ j, j < i → (s.record j).lifecycle ≠ .free) : s.freeSlot = some i :=
  find?_finRange_of_least (by simpa using free) fun j below => by simpa using lowest j below

theorem State.freeSlot_eq_none {s : State} (full : ∀ j, (s.record j).lifecycle ≠ .free) : s.freeSlot = none :=
  find?_finRange_eq_none.mpr fun j => by simpa using full j

/-- The STORED record with the smallest stamp, the lowest slot among equals (R10). -/
theorem State.victim_eq_some {s : State} {i : SlotId} (stored : (s.record i).lifecycle = .stored)
    (oldest : ∀ j, (s.record j).lifecycle = .stored → (s.record i).seen < (s.record j).seen ∨
      (s.record i).seen = (s.record j).seen ∧ i ≤ j) : s.victim = some i := by
  refine head?_sortByKey _ (List.mem_filter.mpr ⟨mem_allSlots i, by simpa using stored⟩) fun j kept small => ?_
  have older := oldest j (by simpa using (List.mem_filter.mp kept).2)
  rw [Fin.le_def] at older
  simp only [keyLe, Nat.cast_lt] at small
  split at small
  · omega
  · split at small
    · cases small
    · split at small
      · omega
      · split at small
        · cases small
        · exact Fin.ext (by omega)

theorem State.victim_eq_none {s : State} (absent : ∀ j, (s.record j).lifecycle ≠ .stored) : s.victim = none := by
  have empty : (allSlots.filter fun i => (s.record i).lifecycle == .stored) = [] :=
    List.filter_eq_nil_iff.mpr fun j _ => by simpa using absent j
  unfold State.victim
  rw [empty]
  rfl

/-! ### A dock of a new tag (R9 to R11) -/

section New
variable {s : State} {b : BayId} {d : Docking} (fresh : ∀ j, (s.record j).lifecycle ≠ .free → (s.record j).tag ≠ d.tag)

include fresh in
theorem State.tagEngaged_of_new (copies : ∀ a, (s.bay a).stage ≠ .empty → (s.bay a).tag ≠ d.tag) :
    s.tagEngaged d.tag = false := by
  unfold State.tagEngaged
  rw [State.tagInBayCopy_eq_false copies, State.slotOfTag_eq_none d.tag fresh]
  rfl

include fresh in
theorem State.dockSlot_of_new : s.dockSlot d = s.listingSlot := by
  unfold State.dockSlot
  rw [State.slotOfTag_eq_none d.tag fresh]

/-- The record of a new tag, but for its seen stamp: fresh values, and the estimate by the gauge (R2, R9, R44). -/
def State.newRecord (s : State) (b : BayId) (d : Docking) : PackRecord :=
  { freeRecord with
    tag := d.tag, profile := d.profile, lifecycle := .docked, bay := some b, capacity := (s.profile d.profile).rated
    estimate := match d.gauge with
      | some g => (s.profile d.profile).rated * g / 100
      | none => 0 }

include fresh in
theorem State.dockRecord_of_new (i : SlotId) : s.dockRecord b d i = s.newRecord b d := by
  unfold State.dockRecord State.newRecord
  rw [State.slotOfTag_eq_none d.tag fresh]
  dsimp only
  rw [PackRecord.gauged_eq]
  cases d.gauge <;> rfl

end New

/-- The group's mark of a record that a dock lists (R7). -/
theorem State.docked_marked {s : State} {b : BayId} {d : Docking} {i : SlotId} (slot : s.dockSlot d = some i)
    (changed : (s.record i).sameMarked { s.dockRecord b d i with seen := countTo 4294967295 s.seenCounter } = false) (q : PortId) :
    hasFlag ((s.docked b d).port q).marks (groupOf i) = true := by
  have marked : hasFlag ((s.dockRoster b d).port q).marks (groupOf i) = true := by
    have write (u : State) (same : u.record i = s.record i) : hasFlag
        ((u.putRecord i { s.dockRecord b d i with seen := countTo 4294967295 s.seenCounter }).port q).marks (groupOf i) = true := by
      rw [State.putRecord_port, same, changed]
      simp
    unfold State.dockRoster
    dsimp only
    rw [slot]
    dsimp only
    split
    · exact write _ rfl
    · exact write _ rfl
  exact ((((s.dockRoster b d).dockBay_evolves b d (s.dockSlot d)).ports q).marks _ marked)

/-- The ROSTER notice of a dock that finds no FREE slot (R10, R11). -/
theorem State.docked_rosterNoticed {s : State} {b : BayId} {d : Docking} (full : s.rosterFull d = true) {q : PortId}
    (office : (s.port q).role = .depot ∨ (s.port q).role = .observer) :
    hasFlag ((s.docked b d).port q).raised NoticeKind.roster.bit = true := by
  have raised : hasFlag ((s.countSeen.notify .roster .part).port q).raised NoticeKind.roster.bit = true := by
    rw [State.notify_port]
    exact Port.deliver_raised (Role.office_takes office _ _)
  have listed : hasFlag ((s.dockRoster b d).port q).raised NoticeKind.roster.bit = true := by
    unfold State.dockRoster
    dsimp only
    rw [if_pos full]
    split
    · rw [State.putRecord_port]
      split
      · exact raised
      · exact raised
    · exact raised
  exact ((((s.dockRoster b d).dockBay_evolves b d (s.dockSlot d)).ports q).raised _ listed)

theorem clampTemperature_eq (t : Int) : clampTemperature t = min 85 (max (-40) t) := by
  unfold clampTemperature clampInt
  split_ifs <;> omega

theorem clampTemperature_ne (t : Int) : (clampTemperature t != t) = true ↔ t < -40 ∨ 85 < t := by
  rw [clampTemperature_eq, bne_iff_ne]
  omega

/-- The zone of R95. -/
theorem Supply.insideZone_iff (x : Supply) (b : BayId) : x.insideZone b = true ↔
    if x.zoneFirst ≤ x.zoneLast then x.zoneFirst ≤ b ∧ b ≤ x.zoneLast else x.zoneFirst ≤ b ∨ b ≤ x.zoneLast := by
  unfold Supply.insideZone
  split <;> simp

/-- The stage of a bay under an invalid profile (R45). -/
theorem State.seatedStage_of_invalid {s : State} {d : Docking} (invalid : (s.profile d.profile).valid = false)
    (o : Option SlotId) : s.seatedStage d o = .bulk := by
  unfold State.seatedStage
  cases o <;> simp [invalid]

end Sys2Proof.Machine

open Sys2Proof Sys2Proof.Machine

/-- Settles O20: the record as State.foundRecord spells it, under the bay that State.seated sets up. -/
theorem dockFindsItsPack : Obligations.DockFindsItsPack := by
  intro p params s b d i accepted sound named empty docking tag found only copies
  have known := (dockingOf_fields docking).2.1
  have taken := sound.execDock accepted named empty docking (State.tagEngaged_of_found known tag found only copies)
  have slot : s.dockSlot d = some i := by
    unfold State.dockSlot
    rw [State.slotOfTag_of_found known tag found only]
  obtain ⟨counters, ports, _, docked⟩ := sound.docked_some slot (State.dockRecord_of_found (b := b) known tag found only)
  have record (j : SlotId) : ((s.docked b d).setPort p (((s.docked b d).port p).wrote params .ok)).record j =
      if j = i then { s.foundRecord b d i with seen := countTo 4294967295 s.seenCounter } else s.record j := by
    rw [State.setPort_record, docked]
    exact s.withRecord_record i j _
  have bay (a : BayId) (other : a ≠ b) : ((s.docked b d).setPort p (((s.docked b d).port p).wrote params .ok)).bay a = s.bay a := by
    rw [State.setPort_bay, docked]
    exact (get_set _ _ _ _).trans (if_neg other)
  have own := (record i).trans (if_pos rfl)
  have under := (s.withRecord_record i i { s.foundRecord b d i with seen := countTo 4294967295 s.seenCounter }).trans (if_pos rfl)
  have seated : ((s.docked b d).setPort p (((s.docked b d).port p).wrote params .ok)).bay b =
      { (s.withRecord i { s.foundRecord b d i with seen := countTo 4294967295 s.seenCounter }).seated b d (some i) with
        heat := s.seatedHeat d, counters := counters } := by
    rw [State.setPort_bay, docked]
    exact (get_set _ _ _ _).trans (if_pos rfl)
  generalize s.withRecord i { s.foundRecord b d i with seen := countTo 4294967295 s.seenCounter } = u at under seated
  have counter : ((s.docked b d).setPort p (((s.docked b d).port p).wrote params .ok)).seenCounter =
      countTo 4294967295 s.seenCounter := by
    rw [docked]
    rfl
  refine ⟨_, taken, fun j other => (record j).trans (if_neg other), bay, ?_, ?_, ?_, ?_, ?_, ?_, ?_, ?_, ?_, ?_, counter,
    fun issued => ?_, fun stays => ?_, ?_, fun g gauge => ?_, fun none issued valid => ?_, fun none stays => ?_, ?_, ?_,
    State.wrote_lastResult _ _ _ _⟩
  · rw [seated]
    rfl
  · rw [seated]
    rfl
  · rw [seated]
    exact u.seatedStage_ne_empty d (some i)
  · rw [seated]
    refine (u.seated_carries b d (some i) .quarantine).trans ?_
    simp [under, State.foundRecord]
  · rw [own]
    exact tag
  · rw [own]
    rfl
  · rw [own]
    rfl
  · rw [own]
    rfl
  · rw [own]
    rfl
  · rw [own, counter]
  · rw [own]
    exact ⟨if_pos issued, if_pos issued⟩
  · rw [own]
    exact ⟨if_neg stays, if_neg stays⟩
  · rw [own]
    rfl
  · rw [own]
    simp [State.foundRecord, gauge]
  · rw [own]
    simp [State.foundRecord, none, issued, valid]
  · rw [own]
    have ungauged : ¬ ((s.record i).lifecycle = .issued ∧ (s.profile d.profile).valid = true) := fun both =>
      stays.elim (fun other => other both.1) fun invalid => absurd (invalid ▸ both.2) (by decide)
    refine ⟨fun same => ?_, fun other => ?_⟩
    · simp [State.foundRecord, none, ungauged, same]
    · simp [State.foundRecord, none, ungauged, other]
  · rw [docked]
    rfl
  · rw [docked]
    rfl

/-- Settles O19: the three places of a new tag, and the bay's set-up for all of them. -/
theorem dockListsANewPack : Obligations.DockListsANewPack := by
  intro p params s b d accepted sound named empty docking fresh copies pr
  have free := State.tagEngaged_of_new fresh copies
  have taken := sound.execDock accepted named empty docking free
  have sane := dockingOf_sane params d docking
  refine ⟨dockingOf_fields docking, s.supply.insideZone_iff b, ?_⟩
  intro placed rosterNoticed
  have whole {u : State} {o : Option SlotId} {counters ports} {absorbing : Bool} (like : u = { s with records := u.records })
      (kept : pr.valid = false → counters = (s.bay b).counters)
      (whole : ∀ i, o = some i → (u.record i).lifecycle ≠ .quarantined)
      (stage : pr.valid = true → u.seatedStage d o = if absorbing then .absorb else .bulk)
      (e : s.docked b d = { u with
        seenCounter := countTo 4294967295 s.seenCounter
        bays := s.bays.set b { u.seated b d o with heat := s.seatedHeat d, counters := counters }
        passMark := true, planMark := true, ports := ports }) :
      placed ((s.docked b d).setPort p (((s.docked b d).port p).wrote params .ok)) o absorbing := by
    have own : ((s.docked b d).setPort p (((s.docked b d).port p).wrote params .ok)).bay b =
        { u.seated b d o with heat := s.seatedHeat d, counters := counters } := by
      rw [State.setPort_bay, e]
      exact (get_set _ _ _ _).trans (if_pos rfl)
    have bays : u.bays = s.bays := by rw [like]
    have bay : u.bay b = s.bay b := by rw [State.bay, bays]; rfl
    have profile : u.profile d.profile = pr := by rw [like]; rfl
    have supply : u.supply = s.supply := by rw [like]
    have band : (u.seated b d o).band = pr.dockedBand (clampTemperature d.temperature) := by rw [← profile]; rfl
    have carries (r : Inhibit) := u.seated_carries b d o r
    rw [profile, supply] at carries
    refine ⟨?_, fun a other => ?_, ?_⟩
    · rw [e, like]
      rfl
    · rw [State.setPort_bay, e]
      refine (get_set _ _ _ _).trans ((if_neg other).trans ?_)
      rfl
    simp only [own]
    refine ⟨rfl, rfl, rfl, clampTemperature_eq _, clampTemperature_ne _, rfl, rfl, rfl, rfl, rfl, rfl, rfl, rfl, rfl, rfl,
      (congrArg Bay.grant bay :), (congrArg Bay.allowance bay :), (congrArg Bay.reduction bay :), (congrArg Bay.confirmTimer bay :),
      fun invalid => ⟨?_, State.seatedStage_of_invalid (by rw [profile]; exact invalid) o, kept invalid⟩,
      fun valid => ⟨?_, ?_, stage valid, ?_⟩, fun r => (carries r).trans ?_,
      fun q other => ?_, State.wrote_lastResult _ _ _ _, fun q takes => ?_⟩
    · exact band.trans (by rw [Profile.dockedBand, invalid]; rfl)
    · exact band.trans (if_pos valid)
    · refine Eq.mpr (congrArg (pr.liesIn _) (band.trans (if_pos valid))) (pr.liesIn_bandOf _)
    · refine Eq.trans ?_ (congrArg (fun k => if k = 5 then 1 else 0) band.symm)
      rw [State.seatedHeat]
      simp [valid, pr]
    · have quiet : ¬ ∃ i, o = some i ∧ (u.record i).lifecycle = .quarantined := fun ⟨i, at_, bad⟩ => whole i at_ bad
      have factor : pr.factors[(u.seated b d o).band] = pr.factor (pr.dockedBand (clampTemperature d.temperature)) := by
        simp only [band, Profile.factor]
      simp only [quiet, and_false, false_or, factor]
    · rw [State.setPort_port_ne _ _ other]
      exact s.docked_moves b sane q
    · rw [State.wrote_raised, State.wrote_summary]
      exact s.docked_noticed b sane q takes
  refine ⟨fun i place => ?_, fun full => ?_⟩
  · have listed : s.dockSlot d = some i := by
      rw [State.dockSlot_of_new fresh, State.listingSlot]
      rcases place with ⟨lifecycle, lowest⟩ | ⟨present, stored, oldest⟩
      · rw [State.freeSlot_eq_some lifecycle lowest]
      · rw [State.freeSlot_eq_none present, State.victim_eq_some stored oldest]
    have undocked : (s.record i).lifecycle ≠ .docked := by
      rcases place with ⟨lifecycle, _⟩ | ⟨_, stored, _⟩
      · rw [lifecycle]
        decide
      · rw [stored]
        decide
    obtain ⟨counters, ports, kept, e⟩ := sound.docked_some (b := b) listed (State.dockRecord_of_new fresh i)
    have under := (s.withRecord_record i i { s.newRecord b d with seen := countTo 4294967295 s.seenCounter }).trans (if_pos rfl)
    have record (j : SlotId) : ((s.docked b d).setPort p (((s.docked b d).port p).wrote params .ok)).record j =
        if j = i then { s.newRecord b d with seen := countTo 4294967295 s.seenCounter } else s.record j := by
      rw [State.setPort_record, e]
      exact s.withRecord_record i j _
    have own := (record i).trans (if_pos rfl)
    refine ⟨_, taken, whole rfl kept ?_ ?_ e, fun j other => (record j).trans (if_neg other), ?_, fun q => ?_, fun stored q office => ?_⟩
    · rintro j ⟨⟩
      rw [under]
      exact (by decide : Lifecycle.docked ≠ .quarantined)
    · intro valid
      unfold State.seatedStage
      dsimp only
      rw [own, under]
      refine if_congr ?_ rfl rfl
      rw [decide_eq_true_eq]
      exact and_iff_right valid
    · rw [own, e]
      rfl
    · rw [State.wrote_marks]
      refine State.docked_marked listed ?_ q
      rw [State.dockRecord_of_new fresh]
      simp [PackRecord.sameMarked, State.newRecord, undocked]
    · rw [State.wrote_raised]
      refine State.docked_rosterNoticed ?_ office
      have present : ∀ j, (s.record j).lifecycle ≠ .free := by
        rcases place with ⟨lifecycle, _⟩ | ⟨present, _⟩
        · rw [lifecycle] at stored
          cases stored
        · exact present
      rw [State.rosterFull, State.slotOfTag_eq_none d.tag fresh, State.freeSlot_eq_none present]
      rfl
  · have present (j : SlotId) := (full j).1
    have unlisted : s.dockSlot d = none := by
      rw [State.dockSlot_of_new fresh, State.listingSlot, State.freeSlot_eq_none present, State.victim_eq_none fun j => (full j).2]
    obtain ⟨counters, ports, kept, e⟩ := State.docked_none (b := b) unlisted
    refine ⟨_, taken, whole (u := s) rfl kept nofun (fun _ => rfl) e, by rw [e]; rfl, fun q office => ?_⟩
    rw [State.wrote_raised]
    refine State.docked_rosterNoticed ?_ office
    rw [State.rosterFull, State.slotOfTag_eq_none d.tag fresh, State.freeSlot_eq_none present]
    rfl

end

section
/-!
QUARANTINE, RELEASE and FORGET (R12 to R16, R46): O43.
-/

namespace Sys2Proof.Machine

/-! ### A command that names a roster slot -/

/-- A slot command whose number names no slot. -/
theorem State.slotCommand_unnamed {s : State} {p : PortId} {row : CommandRow} {params : List Byte} {act : SlotId → State → Reply}
    (h : s.accepts p row params = true) (w : row.take = .selectRise) (above : 64 ≤ byteAt params 0) :
    s.slotCommand p row params act = s.setPort p ((s.port p).wrote params .range) :=
  State.transact_reply h w (by simp only [index_eq_none.mpr above])

/-- A slot command on a sound roster, whose effects on the ports are moves. -/
theorem State.sound.slotCommand_writes {s t : State} {p : PortId} {row : CommandRow} {params : List Byte} {i : SlotId}
    {act : SlotId → State → Reply} {r : ResultCode} (sound : s.sound) (h : s.accepts p row params = true)
    (w : row.take = .selectRise) (named : byteAt params 0 = i.val) (e : act i s = t.reply r)
    (moves : PortMoves (s.port p) (t.port p)) :
    s.slotCommand p row params act = t.setPort p ((t.port p).wrote params r) := by
  refine State.transact_writes h w ?_ moves.lastResult
  simp only [index_eq_some.mpr named, sound.access]
  exact e

/-- A slot command refused on a sound roster. -/
theorem State.sound.slotCommand_replies {s : State} {p : PortId} {row : CommandRow} {params : List Byte} {i : SlotId}
    {act : SlotId → State → Reply} {r : ResultCode} (sound : s.sound) (h : s.accepts p row params = true)
    (w : row.take = .selectRise) (named : byteAt params 0 = i.val) (e : act i s = s.reply r) :
    s.slotCommand p row params act = s.setPort p ((s.port p).wrote params r) :=
  sound.slotCommand_writes h w named e (.refl _)

/-- Each of the three roster commands is one slot command. -/
theorem exec_slot {c : Instr} {p : PortId} {row : CommandRow} {params : List Byte} (s : State)
    (h : c.transaction = some (p, row, params)) (is : row ∈ [rowQuarantine, rowRelease, rowForget]) :
    row.take = .selectRise ∧ ∃ act, exec c s = .next (s.slotCommand p row params act) := by
  cases c with
  | quarantine q ps => cases h; exact ⟨rfl, _, rfl⟩
  | release q ps => cases h; exact ⟨rfl, _, rfl⟩
  | forget q ps => cases h; exact ⟨rfl, _, rfl⟩
  | tableRead q part =>
    cases part with
    | command => cases h; exact absurd is (by decide)
    | nextEntry => cases h
  | _ => cases h <;> exact absurd is (by decide)

/-! ### QUARANTINE: what hung on the record (R13, R150, R163) -/

theorem State.withdraw_stored (s : State) (i : SlotId) {l : Lifecycle} (d : l ≠ .docked) (r : l ≠ .ready) (c : l ≠ .called) :
    s.withdraw i l = s := by
  unfold State.withdraw
  split
  · contradiction
  · contradiction
  · contradiction
  · rfl

/-- The draw of a called record voided, where one sweeper draws it (R161, R163). -/
theorem State.voidDraw_of_unique (s : State) {i : SlotId} {w : SweeperId} (only : ∀ v, (s.drawOf v).map (·.slot) = some i ↔ v = w) :
    ∃ ports, s.voidDraw i = { s with
      draws := s.draws.set w none
      recalls := updateAll s.recalls fun _ q => q.filter fun r => r.slot != i
      entries := s.entriesSettled ((s.drawOf w).bind (·.entry)) .idle
      ports := ports } := by
  unfold State.voidDraw
  rw [s.endDraw_of_unique .idle only]
  split
  · exact ⟨_, rfl⟩
  · exact ⟨_, rfl⟩

/-- The DRAW notice of a voided draw (R163). -/
theorem State.voidDraw_drawNoticed (s : State) (i : SlotId) {q : PortId}
    (office : (s.port q).role = .depot ∨ (s.port q).role = .observer) :
    hasFlag ((s.voidDraw i).port q).raised NoticeKind.draw.bit = true := by
  have ended : hasFlag ((s.endDraw i .idle).port q).raised NoticeKind.draw.bit = true := by
    obtain ⟨y, last⟩ : ∃ y : Port, (s.endDraw i .idle).port q = y.deliver .draw .part := by
      unfold State.endDraw
      split
      · exact ⟨_, State.notify_port _ .draw .part q⟩
      · exact ⟨_, State.notify_port _ .draw .part q⟩
    exact ((s.endDraw_evolves i .idle).ports q).raises_last last (Role.office_takes office _ _)
  unfold State.voidDraw
  split
  · exact ((State.notify_evolves _ _ _).ports q).raised _ ended
  · exact ended

/-- The RECALL notice of a voided draw (R161). -/
theorem State.voidDraw_recallNoticed (s : State) (i : SlotId) {x : Recall} (recalled : s.recallOf i = some x) {q : PortId}
    (takes : (s.port q).role.takes .recall (.cluster (clusterOf x.bay)) = true) :
    hasFlag ((s.voidDraw i).port q).raised NoticeKind.recall.bit = true := by
  unfold State.voidDraw
  rw [recalled, State.notify_port]
  exact ((s.endDraw_evolves i .idle).ports q).raises takes (.refl _)

/-- The notices of a withdrawal stand once the record is QUARANTINED. -/
theorem State.enterQuarantine_moves (s : State) (i : SlotId) (why : Reason) (q : PortId) :
    PortMoves ((s.withdraw i (s.record i).lifecycle).port q) ((s.enterQuarantine i why).port q) := by
  have written := (s.withdraw i (s.record i).lifecycle).putRecord_evolves_other i
    { (s.withdraw i (s.record i).lifecycle).record i with
      lifecycle := .quarantined, sweeper := none, reservation := none, readySince := none, reason := some why } rfl rfl rfl
  exact ((written.trans (State.quarantineBay_evolves _ (s.record i).bay)).trans
    ((State.notify_evolves _ .roster .part).trans (State.requestPlan_evolves _))).ports q

/-- What a record's entry into QUARANTINED leaves of the queues, the draws, the entries and the pass request: what the withdrawal left. -/
theorem State.enterQuarantine_kept (s : State) (i : SlotId) (why : Reason) :
    (s.enterQuarantine i why).readyQueues = (s.withdraw i (s.record i).lifecycle).readyQueues ∧
      (s.enterQuarantine i why).draws = (s.withdraw i (s.record i).lifecycle).draws ∧
      (s.enterQuarantine i why).recalls = (s.withdraw i (s.record i).lifecycle).recalls ∧
      (s.enterQuarantine i why).entries = (s.withdraw i (s.record i).lifecycle).entries ∧
      (s.enterQuarantine i why).passMark =
        ((s.withdraw i (s.record i).lifecycle).passMark || (s.record i).bay.any fun b => (s.bay b).eligible) := by
  obtain ⟨pendingList, ports, entered⟩ := s.enterQuarantine_eq i why
  rw [entered]
  exact ⟨rfl, rfl, rfl, rfl, rfl⟩

/-- A record that enters QUARANTINED from DOCKED or READY gives up its reservation, from READY its place in the queue (R13, R150). -/
theorem State.sound.withdraw_reserved {s : State} (h : s.sound) (i : SlotId) {l : Lifecycle} (reserves : l = .docked ∨ l = .ready) :
    ∃ ports, s.withdraw i l = { s with
      entries := s.entriesWithout (s.record i).reservation
      records := s.records.set i { s.record i with reservation := none }
      readyQueues := if l = .ready then updateAll s.readyQueues fun _ q => dropFlag q i else s.readyQueues
      passMark := s.passMark || (s.record i).reservation.isSome
      planMark := s.planMark || (s.record i).reservation.isSome, ports := ports } := by
  obtain ⟨ports, cleared⟩ := h.clearReservation i
  refine ⟨ports, ?_⟩
  rcases reserves with e | e
  · subst e
    exact cleared
  · subst e
    have taken : s.withdraw i .ready = (s.clearReservation i).leaveReady i := rfl
    rw [taken, cleared]
    rfl

section Quarantined
variable {s : State} (h : s.sound) {i : SlotId} (why : Reason)
  (drawn : (s.record i).lifecycle = .called → ∃ w, ∀ v, (s.drawOf v).map (·.slot) = some i ↔ v = w)

include h drawn in
theorem State.sound.enterQuarantine_queue (n : ProfileId) (j : SlotId) : hasFlag ((s.enterQuarantine i why).queue n) j =
    (hasFlag (s.queue n) j && !decide ((s.record i).lifecycle = .ready ∧ j = i)) := by
  obtain ⟨queues, -⟩ := s.enterQuarantine_kept i why
  rw [State.queue, queues]
  by_cases reserves : (s.record i).lifecycle = .docked ∨ (s.record i).lifecycle = .ready
  · obtain ⟨ports, left⟩ := h.withdraw_reserved i reserves
    rw [left]
    dsimp only
    split
    · rename_i ready
      rw [get_updateAll, hasFlag_dropFlag]
      simp [State.queue, ready, bne, beq_eq_decide]
    · rename_i unready
      simp [State.queue, unready]
  · obtain ⟨undocked, unready⟩ := not_or.mp reserves
    by_cases called : (s.record i).lifecycle = .called
    · obtain ⟨w, only⟩ := drawn called
      obtain ⟨ports, left⟩ := s.voidDraw_of_unique only
      rw [called]
      change hasFlag (s.voidDraw i).readyQueues[n] j = _
      rw [left]
      simp [State.queue]
    · rw [s.withdraw_stored i undocked unready called]
      simp [State.queue, unready]

include h drawn in
theorem State.sound.enterQuarantine_passMark : (s.enterQuarantine i why).passMark = (s.passMark ||
    decide (((s.record i).lifecycle = .docked ∨ (s.record i).lifecycle = .ready) ∧ (s.record i).reservation.isSome = true) ||
      (s.record i).bay.any fun b => (s.bay b).eligible) := by
  obtain ⟨-, -, -, -, pass⟩ := s.enterQuarantine_kept i why
  rw [pass]
  by_cases reserves : (s.record i).lifecycle = .docked ∨ (s.record i).lifecycle = .ready
  · obtain ⟨ports, left⟩ := h.withdraw_reserved i reserves
    rw [left]
    simp [reserves]
  · obtain ⟨undocked, unready⟩ := not_or.mp reserves
    have same : (s.withdraw i (s.record i).lifecycle).passMark = s.passMark := by
      by_cases called : (s.record i).lifecycle = .called
      · obtain ⟨w, only⟩ := drawn called
        obtain ⟨ports, left⟩ := s.voidDraw_of_unique only
        rw [called]
        change (s.voidDraw i).passMark = _
        rw [left]
      · rw [s.withdraw_stored i undocked unready called]
    rw [same]
    simp [undocked, unready]

include h in
theorem State.sound.enterQuarantine_undrawn (uncalled : (s.record i).lifecycle ≠ .called) :
    (s.enterQuarantine i why).draws = s.draws ∧ (s.enterQuarantine i why).recalls = s.recalls ∧
      ∀ e, (s.enterQuarantine i why).entry e =
        if (((s.record i).lifecycle = .docked ∨ (s.record i).lifecycle = .ready) ∧ (s.record i).reservation.isSome = true) ∧
          (s.record i).reservation = some e then { s.entry e with reserved := none } else s.entry e := by
  obtain ⟨-, draws, recalls, entries, -⟩ := s.enterQuarantine_kept i why
  simp only [State.entry]
  rw [draws, recalls, entries]
  by_cases reserves : (s.record i).lifecycle = .docked ∨ (s.record i).lifecycle = .ready
  · obtain ⟨ports, left⟩ := h.withdraw_reserved i reserves
    rw [left]
    refine ⟨rfl, rfl, fun e => (s.entriesWithout_get _ e).trans ?_⟩
    refine if_congr ⟨fun held => ⟨⟨reserves, by rw [held]; rfl⟩, held⟩, And.right⟩ rfl rfl
  · obtain ⟨undocked, unready⟩ := not_or.mp reserves
    rw [s.withdraw_stored i undocked unready uncalled]
    exact ⟨rfl, rfl, fun e => (if_neg fun both => reserves both.1.1).symm⟩

theorem State.enterQuarantine_drawn (called : (s.record i).lifecycle = .called) {w : SweeperId}
    (only : ∀ v, (s.drawOf v).map (·.slot) = some i ↔ v = w) :
    (∀ v, (s.enterQuarantine i why).drawOf v = if (s.drawOf v).map (·.slot) = some i then none else s.drawOf v) ∧
      (∀ c, (s.enterQuarantine i why).recall c = (s.recall c).filter fun x => x.slot != i) ∧
      ∀ e, (s.enterQuarantine i why).entry e = if (∃ v, s.drawOf v = some ⟨i, some e⟩) ∧ (s.entry e).status = .called then
        { s.entry e with status := .idle } else s.entry e := by
  obtain ⟨-, draws, recalls, entries, -⟩ := s.enterQuarantine_kept i why
  obtain ⟨ports, left⟩ := s.voidDraw_of_unique only
  have withdrawn : s.withdraw i (s.record i).lifecycle = s.voidDraw i := by rw [called]; rfl
  rw [withdrawn, left] at draws recalls entries
  refine ⟨fun v => ?_, fun c => ?_, fun e => ?_⟩
  · rw [State.drawOf, draws]
    exact (get_set _ _ _ _).trans (if_congr (only v).symm rfl rfl)
  · rw [State.recall, recalls]
    exact get_updateAll _ _ _
  · rw [State.entry, entries]
    refine (s.entriesSettled_get _ _ e).trans (if_congr (and_congr_left' ?_) rfl rfl)
    refine ⟨fun settles => ⟨w, ?_⟩, fun ⟨v, draw⟩ => ?_⟩
    · obtain ⟨draw, holds, entry⟩ := Option.bind_eq_some_iff.mp settles
      have slot := (only w).mpr rfl
      rw [holds] at slot ⊢
      obtain ⟨drawnSlot, drawnEntry⟩ := draw
      cases slot
      cases entry
      rfl
    · have here : v = w := (only v).mp (by rw [draw]; rfl)
      rw [← here, draw]
      rfl

end Quarantined

/-! ### RELEASE (R15) -/

/-- A record made READY on a sound roster (R15, R60). -/
theorem State.sound.makeReady {s : State} (h : s.sound) {i : SlotId} {r : PackRecord} (own : s.record i = r) :
    ∃ ports, s.makeReady i = { s with
      records := s.records.set i { r with lifecycle := .ready, readySince := some s.minuteNow }
      readyQueues := s.readyQueues.set r.profile (addFlag (s.queue r.profile) i)
      ports := ports } := by
  subst own
  obtain ⟨ports, written⟩ := h.putRecord i { s.record i with lifecycle := .ready, readySince := some s.minuteNow }
  refine ⟨ports, ?_⟩
  unfold State.makeReady
  rw [written]
  rfl

/-- The record of a released pack, by where it stands (R15). -/
def State.releasedRecord (s : State) (i : SlotId) : PackRecord :=
  match (s.record i).bay with
  | some b =>
    if (s.bay b).stage = .done then
      { s.record i with lifecycle := .ready, reason := none, readySince := some s.minuteNow }
    else { s.record i with lifecycle := .docked, reason := none }
  | none => { s.record i with lifecycle := .stored, reason := none }

/-- The ready queues once a pack is released in a DONE bay (R15). -/
def State.releasedQueues (s : State) (i : SlotId) : Vector (FlagSet 64) 8 :=
  match (s.record i).bay with
  | some b =>
    if (s.bay b).stage = .done then
      s.readyQueues.set (s.record i).profile (addFlag (s.queue (s.record i).profile) i)
    else s.readyQueues
  | none => s.readyQueues

theorem State.sound.releaseRecord {s : State} (h : s.sound) (i : SlotId) :
    ∃ ports, s.releaseRecord i = { s with
      records := s.records.set i (s.releasedRecord i), readyQueues := s.releasedQueues i, ports := ports } := by
  unfold State.releaseRecord State.releasedRecord State.releasedQueues
  cases place : (s.record i).bay with
  | none => exact h.putRecord i _
  | some b =>
    simp only [beq_iff_eq]
    obtain ⟨before, docked⟩ := h.putRecord i { s.record i with lifecycle := .docked, reason := none }
    split
    · have own : (s.putRecord i { s.record i with lifecycle := .docked, reason := none }).record i =
          { s.record i with lifecycle := .docked, reason := none } := by rw [State.putRecord_record, if_pos rfl]
      obtain ⟨ports, ready⟩ := State.sound.makeReady (h.of_checks (by rw [docked])) own
      refine ⟨ports, ?_⟩
      rw [ready, docked]
      simp only [Vector.set_set]
      rfl
    · exact ⟨before, docked⟩

theorem State.sound.releaseQuarantine {s : State} (h : s.sound) (i : SlotId) :
    ∃ bays pass pendingList ports,
      (∀ a, bays[a] = if (s.record i).bay = some a then (s.bay a).uninhibited .quarantine else s.bay a) ∧
      ((s.record i).bay = none → bays = s.bays) ∧
      s.releaseQuarantine i = { s with
        records := s.records.set i (s.releasedRecord i), readyQueues := s.releasedQueues i
        bays := bays, passMark := pass, pendingList := pendingList, planMark := true, ports := ports } := by
  obtain ⟨before, released⟩ := h.releaseRecord i
  unfold State.releaseQuarantine
  cases place : (s.record i).bay with
  | none =>
    refine ⟨s.bays, s.passMark, s.pendingList, updateAll before fun _ x => x.deliver .roster .part, fun a => (if_neg nofun).symm,
      fun _ => rfl, ?_⟩
    dsimp only
    rw [released]
    rfl
  | some b =>
    dsimp only
    rw [State.removeInhibit, State.changeBay_eq, released]
    refine ⟨_, _, _, updateAll before fun _ x => x.deliver .roster .part, fun a => ?_, nofun, rfl⟩
    refine (get_set _ _ _ _).trans ?_
    by_cases here : a = b
    · subst here
      rw [if_pos rfl, if_pos rfl]
      rfl
    · rw [if_neg here, if_neg (by simpa using Ne.symm here)]
      rfl

/-! ### FORGET (R12, R16, R46) -/

/-- A bay whose record is forgotten: UNLISTED, without its session and its timers, its grant gone to 0 (R46). -/
def Bay.unlisted (x : Bay) (timeout : Nat) : Bay :=
  (({ x with slot := none, stage := .bulk, restEnd := none, equaliseEnd := none, session := 0 } : Bay).inhibited .unlisted
    timeout).uninhibited .quarantine

theorem Bay.unlisted_carries (x : Bay) (t : Nat) (a : Inhibit) :
    (x.unlisted t).carries a = ((x.carries a || decide (a = .unlisted)) && !decide (a = .quarantine)) := by
  rw [Bay.unlisted, Bay.uninhibited_carries, Bay.inhibited_carries]
  rfl

theorem State.unlistBay_eq (s : State) (b : BayId) :
    ∃ pendingList ports pass, s.unlistBay b = { s with
      bays := s.bays.set b ((s.bay b).unlisted s.site.confirmTimeout)
      passMark := pass, pendingList := pendingList, ports := ports } := by
  have own (t : State) (x : Bay) : ((t.setBay b x).addInhibit b .unlisted).bay b = x.inhibited .unlisted t.site.confirmTimeout := by
    rw [State.addInhibit_bay, if_pos rfl, State.setBay_bay, if_pos rfl]
    rfl
  have carries (t : State) (x : Bay) : (((t.setBay b x).addInhibit b .unlisted).bay b).carries .unlisted = true := by
    rw [own, Bay.inhibited_carries]
    simp
  unfold State.unlistBay State.modBay
  dsimp only
  rw [State.removeInhibit_of_carries _ (by decide) (carries _ _), own, State.addInhibit_eq]
  simp only [State.setBay_bays, Vector.set_set]
  exact ⟨_, _, _, rfl⟩

/-- The bays once the bay of a forgotten record, if any, is UNLISTED. -/
def State.baysForgotten (s : State) (o : Option BayId) : Vector Bay 16 :=
  match o with
  | some b => s.bays.set b ((s.bay b).unlisted s.site.confirmTimeout)
  | none => s.bays

theorem State.baysForgotten_get (s : State) (o : Option BayId) (a : BayId) :
    (s.baysForgotten o)[a] = if o = some a then (s.bay a).unlisted s.site.confirmTimeout else s.bay a := by
  cases o with
  | none => rfl
  | some b =>
    refine (get_set _ _ _ _).trans ?_
    by_cases same : a = b
    · subst same
      rw [if_pos rfl, if_pos rfl]
    · rw [if_neg same, if_neg (by simpa using Ne.symm same)]
      rfl

/-- A forgotten record's slot before it is relisted: FREE, its bay UNLISTED (R16). -/
def State.forgotten (s : State) (i : SlotId) : State :=
  (match (s.record i).bay with
    | some b => s.unlistBay b
    | none => s).putRecord i freeRecord

theorem State.forgetRecord_eq (s : State) (i : SlotId) : s.forgetRecord i = (s.forgotten i).relist i := rfl

theorem State.forgotten_eq (s : State) (i : SlotId) :
    ∃ pendingList ports pass checks, s.forgotten i = { s with
      records := s.records.set i freeRecord, checks := checks
      bays := s.baysForgotten (s.record i).bay
      passMark := pass, pendingList := pendingList, ports := ports } := by
  unfold State.forgotten
  cases place : (s.record i).bay with
  | none =>
    obtain ⟨ports, written⟩ := s.putRecord_eq i freeRecord
    exact ⟨_, ports, _, _, written⟩
  | some b =>
    obtain ⟨ports, written⟩ := (s.unlistBay b).putRecord_eq i freeRecord
    obtain ⟨pendingList, before, pass, unlisted⟩ := s.unlistBay_eq b
    dsimp only
    rw [written, unlisted]
    exact ⟨pendingList, ports, pass, _, rfl⟩

theorem State.stageFor_charging (s : State) (b : BayId) (r : PackRecord) : (s.stageFor b r).charging = true := by
  unfold State.stageFor
  split
  · rfl
  · split <;> rfl

/-- A bay that enters a charging stage: the bay in that stage (R40). -/
theorem State.enterStage_of_charging (s : State) (b : BayId) {st : Stage} (charging : st.charging = true) :
    ∃ pass pendingList ports, s.enterStage b st = { s with
      bays := s.bays.set b { s.bay b with stage := st }
      passMark := pass, pendingList := pendingList, ports := ports } := by
  unfold State.enterStage
  dsimp only
  rw [if_pos charging, State.changeBay_eq]
  exact ⟨_, _, _, rfl⟩

/-- A slot for which no bay waits is not relisted. -/
theorem State.relist_of_none {s : State} (i : SlotId) (idle : s.unlistedBay = none) : s.relist i = s := by
  unfold State.relist
  rw [idle]

/-- The record that lists an UNLISTED bay's pack (R2, R12). -/
def State.relistedRecord (s : State) (u : BayId) : PackRecord :=
  { s.listedRecord (s.bay u).tag (s.bay u).profile u with seen := s.seenCounter }

theorem State.unlistedBay_ne_none {s : State} {u : BayId} (h : (s.bay u).carries .unlisted = true) : s.unlistedBay ≠ none := by
  intro idle
  exact List.find?_eq_none.mp idle u (mem_allBays u) h

theorem State.unlistedBay_eq_none {s : State} (h : ∀ a, (s.bay a).carries .unlisted = false) : s.unlistedBay = none :=
  List.find?_eq_none.mpr fun a _ => by simp [h a]

/-- The ROSTER notice of a slot relisted (R12). -/
theorem State.relist_port (s : State) (i : SlotId) (waits : s.unlistedBay ≠ none) (q : PortId) :
    ∃ y : Port, (s.relist i).port q = y.deliver .roster .part := by
  unfold State.relist
  split
  · rename_i idle
    exact absurd idle waits
  · extract_lets r listed staged
    rw [State.requestPlan_port, State.notify_port]
    exact ⟨_, rfl⟩

/-- A slot relisted for the lowest UNLISTED bay: the record, the bay in the stage of its record (R12, R46). -/
theorem State.relist_of_some {s : State} {i : SlotId} {u : BayId} (waits : s.unlistedBay = some u) :
    ∃ pass pendingList checks ports, s.relist i = { s with
      records := s.records.set i (s.relistedRecord u), checks := checks
      bays := s.bays.set u
        (({ s.bay u with slot := some i, stage := s.stageFor u (s.relistedRecord u) } : Bay).uninhibited .unlisted)
      passMark := pass, planMark := true, pendingList := pendingList, ports := ports } := by
  obtain ⟨before, written⟩ := s.putRecord_eq i (s.relistedRecord u)
  have staged : ∃ pass pendingList ports, (if s.stageFor u (s.relistedRecord u) == (s.bay u).stage then
        (s.putRecord i (s.relistedRecord u)).modBay u fun x => { x with slot := some i }
      else ((s.putRecord i (s.relistedRecord u)).modBay u fun x => { x with slot := some i }).enterStage u
        (s.stageFor u (s.relistedRecord u))) = { s with
      records := s.records.set i (s.relistedRecord u), checks := s.checks.set i .clean
      bays := s.bays.set u { s.bay u with slot := some i, stage := s.stageFor u (s.relistedRecord u) }
      passMark := pass, pendingList := pendingList, ports := ports } := by
    split
    · rename_i same
      rw [beq_iff_eq.mp same, written]
      exact ⟨_, _, _, rfl⟩
    · obtain ⟨pass, pendingList, ports, entered⟩ := ((s.putRecord i (s.relistedRecord u)).modBay u fun x =>
        { x with slot := some i }).enterStage_of_charging u (s.stageFor_charging u (s.relistedRecord u))
      refine ⟨pass, pendingList, ports, ?_⟩
      rw [entered, written]
      simp [State.modBay, State.setBay, State.bay, Vector.set_set]
  obtain ⟨pass, pendingList, ports, placed⟩ := staged
  have taken : s.relist i = ((((if s.stageFor u (s.relistedRecord u) == (s.bay u).stage then
        (s.putRecord i (s.relistedRecord u)).modBay u fun x => { x with slot := some i }
      else ((s.putRecord i (s.relistedRecord u)).modBay u fun x => { x with slot := some i }).enterStage u
        (s.stageFor u (s.relistedRecord u))).removeInhibit u .unlisted).notify .roster .part).requestPlan) := by
    unfold State.relist
    rw [waits]
    rfl
  rw [taken, placed, State.removeInhibit, State.changeBay_eq]
  have own : ({ s with
      records := s.records.set i (s.relistedRecord u), checks := s.checks.set i .clean
      bays := s.bays.set u { s.bay u with slot := some i, stage := s.stageFor u (s.relistedRecord u) }
      passMark := pass, pendingList := pendingList, ports := ports } : State).bay u =
      { s.bay u with slot := some i, stage := s.stageFor u (s.relistedRecord u) } := (get_set _ _ _ _).trans (if_pos rfl)
  rw [own]
  dsimp only
  rw [Vector.set_set]
  exact ⟨_, _, s.checks.set i .clean, updateAll ports fun _ x => x.deliver .roster .part, rfl⟩

/-- To what FORGET applies (R16). -/
theorem PackRecord.forgettable_iff (r : PackRecord) : r.forgettable = true ↔
    r.lifecycle = .stored ∨ r.lifecycle = .quarantined ∧ (r.bay = none ∨ r.reason = some .damaged) := by
  unfold PackRecord.forgettable
  cases r.lifecycle <;> simp

theorem State.forgotten_bay (s : State) (i : SlotId) (a : BayId) : (s.forgotten i).bay a =
    if (s.record i).bay = some a then (s.bay a).unlisted s.site.confirmTimeout else s.bay a := by
  obtain ⟨pendingList, ports, pass, checks, forgotten⟩ := s.forgotten_eq i
  rw [forgotten]
  exact s.baysForgotten_get _ a

theorem State.forgotten_record (s : State) (i j : SlotId) :
    (s.forgotten i).record j = if j = i then freeRecord else s.record j := by
  obtain ⟨pendingList, ports, pass, checks, forgotten⟩ := s.forgotten_eq i
  rw [forgotten]
  exact get_set _ _ _ _

theorem State.forgotten_profile (s : State) (i : SlotId) (k : ProfileId) : (s.forgotten i).profile k = s.profile k := by
  obtain ⟨pendingList, ports, pass, checks, forgotten⟩ := s.forgotten_eq i
  rw [forgotten]
  rfl

theorem State.forgotten_seenCounter (s : State) (i : SlotId) : (s.forgotten i).seenCounter = s.seenCounter := by
  obtain ⟨pendingList, ports, pass, checks, forgotten⟩ := s.forgotten_eq i
  rw [forgotten]

/-- A bay waits for a slot once the record is forgotten: it did before, or it held the record (R12, R16). -/
theorem State.forgotten_unlisted (s : State) (i : SlotId) (a : BayId) :
    ((s.forgotten i).bay a).carries .unlisted = true ↔ (s.bay a).carries .unlisted = true ∨ (s.record i).bay = some a := by
  rw [State.forgotten_bay]
  split
  · rename_i held
    simp [Bay.unlisted_carries, held]
  · rename_i other
    simp [other]

/-- A record forgotten while a bay waits: the lowest of them is listed into the slot (R12, R16, R46). -/
theorem State.forgetRecord_of_waiting {s : State} {i : SlotId} {u : BayId}
    (waits : (s.bay u).carries .unlisted = true ∨ (s.record i).bay = some u)
    (lowest : ∀ a, a < u → ¬ ((s.bay a).carries .unlisted = true ∨ (s.record i).bay = some a)) :
    (∀ j, (s.forgetRecord i).record j = if j = i then { freeRecord with
        tag := (s.bay u).tag, profile := (s.bay u).profile, lifecycle := .docked, bay := some u
        capacity := (s.profile (s.bay u).profile).rated, seen := s.seenCounter } else s.record j) ∧
      (∀ a, (s.forgetRecord i).bay a = if a = u then ({ (s.forgotten i).bay u with
          slot := some i
          stage := if (s.bay u).carries .profile = true ∨ 0 < (s.profile (s.bay u).profile).rated *
            (s.profile (s.bay u).profile).absorbPoint / 100 then .bulk else .absorb } : Bay).uninhibited .unlisted
        else (s.forgotten i).bay a) ∧
      (s.forgetRecord i).planMark = true ∧ (s.forgetRecord i).seenCounter = s.seenCounter := by
  have found : (s.forgotten i).unlistedBay = some u :=
    find?_finRange_of_least ((s.forgotten_unlisted i u).mpr waits) fun a below => by
      simpa using fun carries => lowest a below ((s.forgotten_unlisted i a).mp carries)
  obtain ⟨pass, pendingList, checks, ports, listed⟩ := State.relist_of_some (i := i) found
  have copies : ((s.forgotten i).bay u).tag = (s.bay u).tag ∧ ((s.forgotten i).bay u).profile = (s.bay u).profile ∧
      ((s.forgotten i).bay u).carries .profile = (s.bay u).carries .profile := by
    rw [State.forgotten_bay]
    split
    · exact ⟨rfl, rfl, by rw [Bay.unlisted_carries]; simp⟩
    · exact ⟨rfl, rfl, rfl⟩
  obtain ⟨tag, profile, barred⟩ := copies
  have record : (s.forgotten i).relistedRecord u = { freeRecord with
      tag := (s.bay u).tag, profile := (s.bay u).profile, lifecycle := .docked, bay := some u
      capacity := (s.profile (s.bay u).profile).rated, seen := s.seenCounter } := by
    unfold State.relistedRecord State.listedRecord State.freshRecord
    rw [tag, profile, State.forgotten_profile, State.forgotten_seenCounter]
  have stage : (s.forgotten i).stageFor u ((s.forgotten i).relistedRecord u) =
      if (s.bay u).carries .profile = true ∨ 0 < (s.profile (s.bay u).profile).rated *
        (s.profile (s.bay u).profile).absorbPoint / 100 then .bulk else .absorb := by
    unfold State.stageFor Profile.absorbAt
    rw [record, profile, State.forgotten_profile, barred]
    by_cases c : (s.bay u).carries .profile = true
    · rw [if_pos c, if_pos (.inl c)]
    · rw [if_neg c]
      exact if_congr (by simp [c, freeRecord]) rfl rfl
  rw [stage, record] at listed
  rw [State.forgetRecord_eq, listed]
  refine ⟨fun j => ?_, fun a => ?_, rfl, s.forgotten_seenCounter i⟩
  · refine (get_set _ _ _ _).trans ?_
    split
    · rfl
    · rename_i other
      exact (s.forgotten_record i j).trans (if_neg other)
  · refine (get_set _ _ _ _).trans ?_
    rfl

/-- The ROSTER notice of a slot relisted (R12). -/
theorem State.forgetRecord_noticed {s : State} {i : SlotId} {u : BayId}
    (waits : (s.bay u).carries .unlisted = true ∨ (s.record i).bay = some u) {q : PortId}
    (office : (s.port q).role = .depot ∨ (s.port q).role = .observer) :
    hasFlag ((s.forgetRecord i).port q).raised NoticeKind.roster.bit = true := by
  obtain ⟨y, last⟩ := (s.forgotten i).relist_port i (State.unlistedBay_ne_none ((s.forgotten_unlisted i u).mpr waits)) q
  exact ((s.forgetRecord_evolves i).ports q).raises_last last (Role.office_takes office _ _)

end Sys2Proof.Machine

open Sys2Proof Sys2Proof.Machine

/-- Settles O43: each command by the lifecycle of its record, what hung on it detached (State.withdraw), and a freed slot relisted. -/
theorem rosterCommandsMoveTheRecord : Obligations.RosterCommandsMoveTheRecord := by
  intro p params s
  refine ⟨fun above c row form is accepted => ?_, ?_⟩
  · obtain ⟨write, act, taken⟩ := exec_slot s form is
    rw [taken, State.slotCommand_unnamed accepted write above]
  intro i sound named r rosterNoticed
  refine ⟨fun accepted => ⟨fun refused => ?_, ?_⟩, fun accepted => ⟨fun refused => ?_, fun quarantined known => ?_⟩,
    fun accepted => ?_⟩
  · refine congrArg Host.Outcome.next (sound.slotCommand_replies accepted rfl named ?_)
    rcases refused with e | e <;> rw [e]
  · intro present unquarantined drawn held
    have moves (q : PortId) := (s.enterQuarantine_evolves i .operator).ports q
    have taken : exec (.quarantine p params) s = .next _ := congrArg Host.Outcome.next
      (sound.slotCommand_writes (t := s.enterQuarantine i .operator) (r := .ok) accepted rfl named
        (by
          change (match (s.record i).lifecycle with
            | .free | .quarantined => s.reply .state
            | _ => (s.enterQuarantine i .operator).reply .ok) = _
          split
          · contradiction
          · contradiction
          · rfl) (moves p))
    have bay (a : BayId) : (s.enterQuarantine i .operator).bay a =
        if r.bay = some a then (s.bay a).quarantined s.site.confirmTimeout else s.bay a :=
      (s.enterQuarantine_bay i .operator a).trans (s.baysQuarantined_get _ a)
    refine ⟨_, taken, fun j other => ?_, ?_, fun a other => ?_, fun b docked => ?_,
      fun n j => sound.enterQuarantine_queue .operator drawn n j, fun uncalled => sound.enterQuarantine_undrawn .operator uncalled,
      fun called => ?_, sound.enterQuarantine_passMark .operator drawn, rfl, State.wrote_lastResult _ _ _ _, fun q office => ?_⟩
    · rw [State.setPort_record, State.enterQuarantine_record, if_neg other]
    · rw [State.setPort_record, State.enterQuarantine_record, if_pos rfl]
      rfl
    · rw [State.setPort_bay, bay, if_neg other]
    · rw [State.setPort_bay, bay, if_pos docked, Bay.quarantined_carries, Bay.quarantined_carries]
      exact ⟨by simp, by simp, rfl, rfl, rfl⟩
    · obtain ⟨w, only⟩ := drawn called
      obtain ⟨draws, recalls, entries⟩ := State.enterQuarantine_drawn .operator called only
      have voided : s.withdraw i (s.record i).lifecycle = s.voidDraw i := by rw [called]; rfl
      refine ⟨draws, recalls, entries, fun q => ⟨fun office => ?_, fun x recalled takes => ?_⟩⟩
      · rw [State.wrote_raised]
        exact (s.enterQuarantine_moves i .operator q).raised _ (voided ▸ s.voidDraw_drawNoticed i office)
      · rw [State.wrote_raised]
        exact (s.enterQuarantine_moves i .operator q).raised _ (voided ▸ s.voidDraw_recallNoticed i recalled takes)
    · rw [State.wrote_raised]
      exact s.enterQuarantine_noticed i .operator office
  · refine congrArg Host.Outcome.next (sound.slotCommand_replies accepted rfl named ?_)
    refine if_neg fun both => ?_
    obtain ⟨quarantined, known⟩ : r.lifecycle = .quarantined ∧ r.reason ≠ some .damaged := by simpa using both
    exact refused.elim (fun other => other quarantined) fun damaged => known damaged
  · have moves (q : PortId) := (s.releaseQuarantine_evolves i).ports q
    have taken : exec (.release p params) s = .next _ := congrArg Host.Outcome.next
      (sound.slotCommand_writes (t := s.releaseQuarantine i) (r := .ok) accepted rfl named
        (if_pos (by simpa using And.intro quarantined known)) (moves p))
    obtain ⟨bays, pass, pendingList, ports, bay, kept, released⟩ := sound.releaseQuarantine i
    have place (a : BayId) : ((s.releaseQuarantine i).setPort p (((s.releaseQuarantine i).port p).wrote params .ok)).bay a =
        if r.bay = some a then (s.bay a).uninhibited .quarantine else s.bay a := by
      rw [State.setPort_bay, released]
      exact bay a
    have record (j : SlotId) : ((s.releaseQuarantine i).setPort p (((s.releaseQuarantine i).port p).wrote params .ok)).record j =
        if j = i then s.releasedRecord i else s.record j := by
      rw [State.setPort_record, released]
      exact get_set _ _ _ _
    have own := (record i).trans (if_pos rfl)
    refine ⟨_, taken, fun j other => (record j).trans (if_neg other), ?_, fun undocked => ⟨?_, ?_⟩, fun b docked =>
      ⟨fun a other => (place a).trans (if_neg (by rw [docked]; simpa using Ne.symm other)), ?_, ?_, fun charging => ?_, fun done => ⟨?_, ?_, ?_⟩⟩,
      rfl, State.wrote_lastResult _ _ _ _, fun q office => ?_⟩
    · rw [own, State.releasedRecord]
      split
      · split <;> rfl
      · rfl
    · rw [own, State.releasedRecord, undocked]
    · rw [State.setPort_bays, released]
      exact kept undocked
    · rw [place, if_pos docked, Bay.uninhibited_carries]
      simp
    · rw [place, if_pos docked]
      rfl
    · rw [own, State.releasedRecord, docked]
      exact congrArg PackRecord.lifecycle (if_neg charging)
    · rw [own, State.releasedRecord, docked]
      exact congrArg PackRecord.lifecycle (if_pos done)
    · rw [own, State.releasedRecord, docked]
      refine (congrArg PackRecord.readySince (if_pos done)).trans ?_
      unfold State.minuteNow
      cases s.clock <;> rfl
    · rw [State.setPort_queue, released, State.queue, State.releasedQueues, docked]
      dsimp only
      rw [if_pos done, get_set, if_pos rfl, hasFlag_addFlag]
      simp
    · rw [State.wrote_raised]
      have last : (s.releaseQuarantine i).port q = Port.deliver _ .roster .part := State.notify_port _ .roster .part q
      exact (moves q).raises_last last (Role.office_takes office _ _)
  · intro forgettable waits
    have applies := PackRecord.forgettable_iff r
    have moves (q : PortId) := (s.forgetRecord_evolves i).ports q
    have taken (holds : forgettable) : exec (.forget p params) s = .next _ := congrArg Host.Outcome.next
      (sound.slotCommand_writes (t := s.forgetRecord i) (r := .ok) accepted rfl named (if_pos (applies.mpr holds)) (moves p))
    refine ⟨fun refused => ?_, fun holds idle => ⟨_, taken holds, ?_⟩, fun u holds waiting lowest => ⟨_, taken holds, ?_⟩⟩
    · exact congrArg Host.Outcome.next (sound.slotCommand_replies accepted rfl named
        (if_neg fun is => refused (applies.mp is)))
    · have undocked : (s.record i).bay = none := Option.eq_none_iff_forall_ne_some.mpr fun a held => idle a (.inr held)
      have forgotten : s.forgotten i = s.putRecord i freeRecord := by rw [State.forgotten, undocked]
      have unlisted : (s.forgotten i).unlistedBay = none := State.unlistedBay_eq_none fun a =>
        Bool.eq_false_iff.mpr fun carries => idle a ((s.forgotten_unlisted i a).mp carries)
      have whole : s.forgetRecord i = s.putRecord i freeRecord := by
        rw [State.forgetRecord_eq, State.relist_of_none i unlisted, forgotten]
      have changed : (s.record i).sameMarked freeRecord = false := by
        rcases holds with e | ⟨e, _⟩
        · simp [PackRecord.sameMarked, freeRecord, show (s.record i).lifecycle = .stored from e]
        · simp [PackRecord.sameMarked, freeRecord, show (s.record i).lifecycle = .quarantined from e]
      obtain ⟨ports, written⟩ := sound.putRecord i freeRecord
      rw [whole]
      refine ⟨by rw [written]; rfl, fun j other => ?_, ?_, fun q => ?_⟩
      · rw [State.setPort_record, State.putRecord_record, if_neg other]
      · rw [State.setPort_record, State.putRecord_record, if_pos rfl]
      · refine State.wrote_port s (s.putRecord i freeRecord) p q _ params .ok fun a => ?_
        rw [State.putRecord_port, changed]
        rfl
    · obtain ⟨record, bay, plan, counter⟩ := State.forgetRecord_of_waiting waiting lowest
      refine ⟨fun j other => (record j).trans (if_neg other), fun a other unheld => ?_, (record i).trans (if_pos rfl), ?_, ?_, ?_,
        ?_, fun b held => ?_, counter, plan, State.wrote_lastResult _ _ _ _, fun q office => ?_⟩
      · exact (bay a).trans ((if_neg other).trans ((s.forgotten_bay i a).trans (if_neg unheld)))
      · rw [State.setPort_bay, bay, if_pos rfl]
        rfl
      · rw [State.setPort_bay, bay, if_pos rfl, Bay.uninhibited_carries]
        simp
      · rw [State.setPort_bay, bay, if_pos rfl, State.forgotten_bay]
        split <;> rfl
      · rw [State.setPort_bay, bay, if_pos rfl]
        rfl
      · have place := (s.forgotten_bay i b).trans (if_pos held)
        have free : ((s.bay b).unlisted s.site.confirmTimeout).carries .quarantine = false := by
          rw [Bay.unlisted_carries]
          simp
        rw [State.setPort_bay, bay]
        by_cases here : b = u
        · subst here
          rw [if_pos rfl, place]
          refine ⟨?_, rfl, rfl, rfl, rfl, fun other => absurd rfl other⟩
          rw [Bay.uninhibited_carries]
          exact Bool.and_eq_false_imp.mpr fun carries => absurd (free.symm.trans carries) (by decide)
        · rw [if_neg here, place]
          refine ⟨free, rfl, rfl, rfl, rfl, fun _ => ⟨rfl, ?_, rfl, rfl⟩⟩
          rw [Bay.unlisted_carries]
          simp
      · rw [State.wrote_raised]
        exact State.forgetRecord_noticed waiting office

end

section
/-!
Record integrity and the timebase (R17 to R19, R133): the rebuild of a damaged record and the scrub's visit, O50; the second of the
timebase with its upsets, O45.
-/

namespace Sys2Proof.Machine

/-! ### The rebuild of a damaged record (R18) -/

theorem State.rebuild_record (s : State) (i j : SlotId) :
    (s.rebuild i).record j = if j = i then s.damagedRecord i else s.record j := by
  obtain ⟨pass, pendingList, ports, rebuilt⟩ := s.rebuild_eq i
  rw [rebuilt]
  refine (get_set _ _ _ _).trans ?_
  split
  · rfl
  · rename_i other
    exact ((s.leaveDamaged_detaches i).others j other).1

theorem State.rebuild_check (s : State) (i j : SlotId) :
    (s.rebuild i).check j = if j = i then .clean else s.check j := by
  obtain ⟨pass, pendingList, ports, rebuilt⟩ := s.rebuild_eq i
  rw [rebuilt]
  refine (get_set _ _ _ _).trans ?_
  split
  · rfl
  · rename_i other
    exact ((s.leaveDamaged_detaches i).others j other).2

theorem State.rebuild_bays (s : State) (i : SlotId) : (s.rebuild i).bays = s.baysQuarantined (s.bayNaming i) := by
  obtain ⟨pass, pendingList, ports, rebuilt⟩ := s.rebuild_eq i
  rw [rebuilt]

theorem State.rebuild_corrected (s : State) (i : SlotId) : (s.rebuild i).corrected = s.corrected := by
  obtain ⟨pass, pendingList, ports, rebuilt⟩ := s.rebuild_eq i
  rw [rebuilt]
  exact (s.leaveDamaged_detaches i).corrected

theorem State.rebuild_planMark (s : State) (i : SlotId) : (s.rebuild i).planMark = true := rfl

/-- A draw's end changes no reservation. -/
theorem State.endDraw_reserved (s : State) (i : SlotId) (o : EntryStatus) (e : EntryId) :
    ((s.endDraw i o).entry e).reserved = (s.entry e).reserved := by
  have settles (t : State) (d : Option EntryId) : ((t.settleDrawnEntry d o).entry e).reserved = (t.entry e).reserved := by
    rw [State.settleDrawnEntry_eq]
    refine (congrArg Entry.reserved (t.entriesSettled_get d o e)).trans ?_
    split <;> rfl
  unfold State.endDraw
  split
  · exact settles _ _
  · rfl

theorem State.voidDraw_reserved (s : State) (i : SlotId) (e : EntryId) :
    ((s.voidDraw i).entry e).reserved = (s.entry e).reserved := by
  unfold State.voidDraw
  split
  · exact s.endDraw_reserved i .idle e
  · exact s.endDraw_reserved i .idle e

/-- A rebuild clears the reservation of an entry that reserves the slot, and no other (R18, step 3). -/
theorem State.leaveDamaged_reserved (s : State) (i : SlotId) (e : EntryId) (other : (s.entry e).reserved ≠ some i) :
    ((s.leaveDamaged i).entry e).reserved = (s.entry e).reserved := by
  unfold State.leaveDamaged
  extract_lets unreserved
  have first : (unreserved.entry e).reserved = (s.entry e).reserved := by
    unfold unreserved
    split
    · rename_i holder reserving
      have holds : (s.entry holder).reserved = some i := by simpa using List.find?_some reserving
      obtain ⟨ports, dropped⟩ := s.dropReservation_eq holder i
      rw [dropped]
      refine (congrArg Entry.reserved (get_set _ _ _ _)).trans ?_
      rw [if_neg fun same : e = holder => other (same ▸ holds)]
      rfl
    · rfl
  split
  · exact (State.voidDraw_reserved _ i e).trans first
  · exact first
  · exact first

theorem State.rebuild_reserved (s : State) (i : SlotId) (e : EntryId) (other : (s.entry e).reserved ≠ some i) :
    ((s.rebuild i).entry e).reserved = (s.entry e).reserved := by
  obtain ⟨pass, pendingList, ports, rebuilt⟩ := s.rebuild_eq i
  rw [rebuilt]
  exact s.leaveDamaged_reserved i e other

/-- The change mark of a rebuilt record's group, at every port (R7, R18). -/
theorem State.rebuild_marked (s : State) (i : SlotId) (q : PortId) :
    hasFlag ((s.rebuild i).port q).marks (groupOf i) = true := by
  unfold State.rebuild
  extract_lets kept counted
  have marked : hasFlag (counted.port q).marks (groupOf i) = true := by
    change hasFlag (((s.leaveDamaged i).storeRecord i (s.damagedRecord i)).markGroup (groupOf i) |>.port q).marks (groupOf i) = true
    rw [State.markGroup_port]
    simp
  exact (((State.quarantineBay_evolves counted (s.bayNaming i)).trans (State.notify_evolves _ .roster .part)).ports q).marks _ marked

/-- The ROSTER notice of a rebuilt record (R18). -/
theorem State.rebuild_noticed (s : State) (i : SlotId) {q : PortId}
    (office : (s.port q).role = .depot ∨ (s.port q).role = .observer) :
    hasFlag ((s.rebuild i).port q).raised NoticeKind.roster.bit = true := by
  obtain ⟨y, last⟩ : ∃ y : Port, (s.rebuild i).port q = y.deliver .roster .part := by
    unfold State.rebuild
    dsimp only
    rw [State.requestPlan_port, State.notify_port]
    exact ⟨_, rfl⟩
  exact ((s.rebuild_evolves i).ports q).raises_last last (Role.office_takes office _ _)

/-- The bay that names a slot, where one alone does (R18, step 1). -/
theorem State.bayNaming_of_unique {s : State} {i : SlotId} {b : BayId} (names : (s.bay b).slot = some i)
    (only : ∀ a, (s.bay a).slot = some i → a = b) : s.bayNaming i = some b :=
  find?_finRange_of_unique (beq_iff_eq.mpr names) fun a named => only a (beq_iff_eq.mp named)

theorem State.bayNaming_eq_none {s : State} {i : SlotId} (unnamed : ∀ b, (s.bay b).slot ≠ some i) : s.bayNaming i = none :=
  find?_finRange_eq_none.mpr fun b => by simpa using unnamed b

/-! ### The visit of the scrub (R19) -/

theorem State.access_of_clean {s : State} {i : SlotId} (clean : s.check i = .clean) : s.access i = s := by
  unfold State.access
  rw [clean]

theorem State.access_of_oneBit {s : State} {i : SlotId} (struck : s.check i = .oneBit) :
    s.access i = ({ s with checks := s.checks.set i .clean } : State).countCorrection := by
  unfold State.access
  rw [struck]

theorem State.access_of_twoBits {s : State} {i : SlotId} (struck : s.check i = .twoBits) : s.access i = s.rebuild i := by
  unfold State.access
  rw [struck]

/-- One bad bit corrected and counted, with a ROSTER notice as the count reaches its end (R17). -/
theorem State.access_of_oneBit_eq {s : State} {i : SlotId} (struck : s.check i = .oneBit) :
    ∃ ports, s.access i = { s with
      checks := s.checks.set i .clean, ports := ports
      corrected := if s.corrected < 65535 then s.corrected + 1 else s.corrected } ∧
      ∀ q : PortId, ports[q] = if s.corrected = 65534 then (s.port q).deliver .roster .part else s.port q := by
  rw [State.access_of_oneBit struck]
  unfold State.countCorrection
  simp only [beq_iff_eq, Nat.reduceEqDiff]
  split
  · exact ⟨_, rfl, fun q => get_updateAll _ _ _⟩
  · exact ⟨s.ports, rfl, fun q => rfl⟩

theorem State.access_check (s : State) (i j : SlotId) : (s.access i).check j = if j = i then .clean else s.check j := by
  cases struck : s.check i with
  | clean =>
    rw [State.access_of_clean struck]
    split
    · rename_i here
      rw [here, struck]
    · rfl
  | oneBit =>
    obtain ⟨ports, corrected, _⟩ := State.access_of_oneBit_eq struck
    rw [corrected]
    exact get_set _ _ _ _
  | twoBits =>
    rw [State.access_of_twoBits struck]
    exact s.rebuild_check i j

theorem State.access_record_ne (s : State) {i j : SlotId} (other : j ≠ i) : (s.access i).record j = s.record j := by
  cases struck : s.check i with
  | clean => rw [State.access_of_clean struck]
  | oneBit =>
    obtain ⟨ports, corrected, _⟩ := State.access_of_oneBit_eq struck
    rw [corrected]
    rfl
  | twoBits => rw [State.access_of_twoBits struck, State.rebuild_record, if_neg other]

/-! ### Upsets (R17) -/

/-- The upsets of a second that strike one record, as its check code takes them. -/
def CheckCode.struck (c : CheckCode) (hits : List (SlotId × Upset)) : CheckCode := hits.foldl (fun c u => c.upset u.2) c

/-- The check codes after the upsets of a second: each record's by the upsets that strike it; nothing else changes. -/
theorem State.sufferUpsets_eq (upsets : List (SlotId × Upset)) (s : State) :
    ∃ checks, upsets.foldl State.sufferUpset s = { s with checks := checks } ∧
      ∀ i : SlotId, checks[i] = (s.check i).struck (upsets.filter fun u => u.1 = i) := by
  induction upsets generalizing s with
  | nil => exact ⟨s.checks, rfl, fun i => rfl⟩
  | cons u rest ih =>
    obtain ⟨checks, suffered, codes⟩ := ih (s.sufferUpset u)
    refine ⟨checks, ?_, fun i => ?_⟩
    · rw [List.foldl_cons, suffered]
      rfl
    · have first : (s.sufferUpset u).check i = if i = u.1 then (s.check i).upset u.2 else s.check i := by
        refine (get_set _ _ _ _).trans ?_
        split
        · rename_i here
          rw [here]
        · rfl
      rw [codes, first, List.filter_cons]
      by_cases here : u.1 = i
      · rw [if_pos here.symm, if_pos (by simpa using here)]
        rfl
      · rw [if_neg (Ne.symm here), if_neg (by simpa using here)]

/-- One upset leaves two bad bits, unless it is the first and strikes one (R17). -/
theorem CheckCode.upset_cases (c : CheckCode) (w : Upset) : c.upset w = .twoBits ∨ c = .clean ∧ w = .oneBit := by
  cases c with
  | clean =>
    cases w with
    | oneBit => exact .inr ⟨rfl, rfl⟩
    | twoBits => exact .inl rfl
  | oneBit => exact .inl rfl
  | twoBits => exact .inl rfl

theorem CheckCode.struck_twoBits (hits : List (SlotId × Upset)) : CheckCode.twoBits.struck hits = .twoBits := by
  induction hits with
  | nil => rfl
  | cons u rest ih => exact ih

/-- A record struck where a bit was bad already, or struck twice, holds two bad bits (R17). -/
theorem CheckCode.struck_again (c : CheckCode) (hits : List (SlotId × Upset)) (some : hits ≠ [])
    (twice : c ≠ .clean ∨ 2 ≤ hits.length) : c.struck hits = .twoBits := by
  cases hits with
  | nil => contradiction
  | cons u rest =>
    rcases c.upset_cases u.2 with first | ⟨rfl, one⟩
    · exact (congrArg (CheckCode.struck · rest) first).trans (CheckCode.struck_twoBits rest)
    · cases rest with
      | nil => simp at twice
      | cons v rest =>
        have second : (CheckCode.clean.upset u.2).upset v.2 = .twoBits := by rw [one]; rfl
        exact (congrArg (CheckCode.struck · rest) second).trans (CheckCode.struck_twoBits rest)

/-! ### The second of the timebase (R20, R37, R64, R87, R94, R119, R133) -/

/-- The part after a second, but for the pass request of a ramp (R90). -/
def State.ticked (s : State) : State :=
  { s with
    clock := s.clock.map Clock.next
    minuteDue := match s.clock with
      | some c => if c.next.second = 0 then some c.next.minute else s.minuteDue
      | none => s.minuteDue
    bays := updateAll s.bays fun _ x => x.tick
    supply := s.supply.tick s.site.rampTime
    scrubDue := true
    periodTimer := s.periodTimer.map Nat.pred }

theorem State.ticked_minuteDue_of_none {s : State} (unset : s.clock = none) : s.ticked.minuteDue = s.minuteDue := by
  unfold State.ticked
  rw [unset]

theorem State.ticked_minuteDue_of_some {s : State} {c : Clock} (set : s.clock = some c) :
    s.ticked.minuteDue = if c.next.second = 0 then some c.next.minute else s.minuteDue := by
  unfold State.ticked
  rw [set]

/-- A second of the running part: every count and timer, and a ramp's second judged against the pass figure. -/
theorem State.tick_eq (s : State) : s.tick = { s.ticked with
    passMark := s.passMark || (decide (s.supply.hold = .ramping) && decide (s.ticked.budget < s.supply.passFigure)) } := by
  have advanced : s.advanceClock = { s with
      clock := s.clock.map Clock.next
      minuteDue := match s.clock with
        | some c => if c.next.second = 0 then some c.next.minute else s.minuteDue
        | none => s.minuteDue } := by
    unfold State.advanceClock
    cases unset : s.clock with
    | none =>
      have same : ({ s with clock := none } : State) = s := by rw [← unset]
      exact same.symm
    | some c => rfl
  have ticked : { s.advanceClock with
      bays := updateAll s.bays fun _ x => x.tick, supply := s.supply.tick s.site.rampTime, scrubDue := true
      periodTimer := s.periodTimer.map Nat.pred } = s.ticked := by
    rw [advanced]
    rfl
  unfold State.tick
  rw [ticked]
  by_cases ramping : s.supply.hold = .ramping
  · rw [if_pos (by simpa using ramping), State.checkBudget_eq, decide_eq_true ramping, Bool.true_and]
    rfl
  · rw [if_neg (by simpa using ramping), decide_eq_false ramping, Bool.false_and, Bool.or_false]
    rfl

/-- A bay's counts and timers one second on, as R37, R64 and R119 spell them. -/
theorem Bay.tick_eq (x : Bay) : x.tick = { x with
    sinceReport := if x.last.isSome = true ∧ x.sinceReport < 65535 then x.sinceReport + 1 else x.sinceReport
    silence := if x.stage ≠ .empty ∧ x.silence < 65535 then x.silence + 1 else x.silence
    restEnd := x.restEnd.map fun n => n - 1
    equaliseEnd := x.equaliseEnd.map fun n => n - 1
    confirmTimer := x.confirmTimer.map fun n => n - 1
    holdEnd := x.holdEnd.map fun n => n - 1 } := by
  have report : (if x.last.isSome then countTo 65535 x.sinceReport else x.sinceReport) =
      if x.last.isSome = true ∧ x.sinceReport < 65535 then x.sinceReport + 1 else x.sinceReport := by
    unfold countTo
    cases x.last.isSome <;> simp
  have silence : (if x.stage == .empty then x.silence else countTo 65535 x.silence) =
      if x.stage ≠ .empty ∧ x.silence < 65535 then x.silence + 1 else x.silence := by
    unfold countTo
    by_cases empty : x.stage = .empty <;> simp [empty]
  unfold Bay.tick
  rw [report, silence]
  rfl

theorem Supply.tick_eq (x : Supply) (n : Nat) : x.tick n = { x with
    age := x.age.map fun k => if k < 65535 then k + 1 else k
    windDown := x.windDown.map fun k => k - 1
    elapsed := if x.hold = .ramping then x.elapsed.map fun k => if k < n then k + 1 else k else x.elapsed } := by
  unfold Supply.tick Supply.elapsedTick
  simp only [beq_iff_eq]
  rfl

/-- A second before the last of a minute (R133). -/
theorem Clock.next_of_lt {c : Clock} (h : c.second < 59) : c.next = { c with second := c.second + 1 } := if_pos h

theorem Clock.next_of_le {c : Clock} (h : 59 ≤ c.second) : c.next = ⟨if c.minute < 10079 then c.minute + 1 else 0, 0⟩ :=
  if_neg (Nat.not_lt.mpr h)

/-! The clock and the frame of a second. -/

theorem State.tick_clock (s : State) : s.tick.clock = s.clock.map Clock.next := by
  rw [State.tick_eq]
  rfl

theorem State.tick_minuteDue (s : State) : s.tick.minuteDue = s.ticked.minuteDue := by
  rw [State.tick_eq]

theorem State.tick_clock_of_unset {s : State} (unset : s.clock = none) : s.tick.clock = none ∧ s.tick.minuteDue = s.minuteDue := by
  rw [State.tick_clock, State.tick_minuteDue, State.ticked_minuteDue_of_none unset, unset]
  exact ⟨rfl, rfl⟩

theorem State.tick_clock_of_lt {s : State} {c : Clock} (set : s.clock = some c) (early : c.second < 59) :
    s.tick.clock = some { c with second := c.second + 1 } ∧ s.tick.minuteDue = s.minuteDue := by
  rw [State.tick_clock, State.tick_minuteDue, State.ticked_minuteDue_of_some set, set, Option.map_some, Clock.next_of_lt early]
  exact ⟨rfl, if_neg (Nat.succ_ne_zero _)⟩

theorem State.tick_clock_of_le {s : State} {c : Clock} (set : s.clock = some c) (late : 59 ≤ c.second) :
    s.tick.clock = some ⟨if c.minute < 10079 then c.minute + 1 else 0, 0⟩ ∧
      s.tick.minuteDue = some (if c.minute < 10079 then c.minute + 1 else 0) := by
  rw [State.tick_clock, State.tick_minuteDue, State.ticked_minuteDue_of_some set, set, Option.map_some, Clock.next_of_le late]
  exact ⟨rfl, if_pos rfl⟩

theorem State.tick_bay (s : State) (b : BayId) : s.tick.bay b = (s.bay b).tick := by
  rw [State.tick_eq]
  exact get_updateAll _ _ _

/-- What a second leaves of the part. -/
theorem State.tick_frame (s : State) : s.tick = { s with
    clock := s.tick.clock, minuteDue := s.tick.minuteDue, bays := s.tick.bays, passMark := s.tick.passMark
    scrubDue := true, supply := s.supply.tick s.site.rampTime, periodTimer := s.periodTimer.map fun n => n - 1 } := by
  rw [State.tick_eq]
  rfl

theorem State.tick_passMark (s : State) : s.tick.passMark = (s.passMark ||
    (decide (s.supply.hold = .ramping) && decide (s.tick.budget < s.supply.passFigure))) := by
  rw [State.tick_eq]
  rfl


end Sys2Proof.Machine

open Sys2Proof Sys2Proof.Machine

/-- Settles O50, by the check code of the record at the scrub position. -/
theorem scrubVisitChecksARecord : Obligations.ScrubVisitChecksARecord := by
  intro s i
  have taken : exec .scrubVisit s = .next (if s.phase == .running && s.scrubDue then s.visit else s) := rfl
  refine ⟨fun idle => ?_, fun running due => ⟨s.visit, ?_, rfl, rfl, ?_, fun j other => ⟨?_, ?_⟩, fun clean => ?_, fun struck => ?_, fun struck => ?_⟩⟩
  · rw [taken, if_neg]
    intro both
    obtain ⟨running, due⟩ : s.phase = .running ∧ s.scrubDue = true := by simpa using both
    exact idle.elim (fun stands => stands running) fun visited => absurd (visited.symm.trans due) (by decide)
  · rw [taken, if_pos (by simp [running, due])]
  · exact (s.access_check i i).trans (if_pos rfl)
  · exact (s.access_check i j).trans (if_neg other)
  · exact s.access_record_ne other
  · rw [State.visit, State.access_of_clean clean]
  · obtain ⟨ports, corrected, noticed⟩ := State.access_of_oneBit_eq struck
    rw [State.visit, corrected]
    exact ⟨rfl, noticed⟩
  · have visited : s.visit = { s.rebuild i with scrub := nextSlot s.scrub, scrubDue := false } := by
      rw [State.visit, State.access_of_twoBits struck]
    have record : s.visit.record i = s.damagedRecord i := by
      rw [visited]
      exact (s.rebuild_record i i).trans (if_pos rfl)
    have bays : s.visit.bays = s.baysQuarantined (s.bayNaming i) := by
      rw [visited]
      exact s.rebuild_bays i
    have port (q : PortId) : s.visit.port q = (s.rebuild i).port q := by rw [visited]; rfl
    refine ⟨by rw [record]; rfl, fun b names only => ?_, fun unnamed => ?_, fun e other => ?_, by rw [visited]; rfl, ?_, fun q =>
      ⟨?_, ?_, fun office => ?_⟩⟩
    · have naming := State.bayNaming_of_unique names only
      have bay (a : BayId) : s.visit.bay a = if some b = some a then (s.bay a).quarantined s.site.confirmTimeout else s.bay a := by
        rw [State.bay, bays, naming]
        exact s.baysQuarantined_get _ a
      rw [record, bay, if_pos rfl]
      refine ⟨naming, ?_, ?_, rfl, names, fun a other => ?_⟩
      · unfold State.damagedRecord State.profileOfDamaged
        rw [naming]
        rfl
      · rw [Bay.quarantined_carries]
        simp
      · rw [bay, if_neg (by simpa using Ne.symm other)]
    · have naming := State.bayNaming_eq_none unnamed
      rw [record, bays, naming]
      refine ⟨naming, ?_, rfl⟩
      unfold State.damagedRecord State.profileOfDamaged
      rw [naming]
      rfl
    · rw [visited]
      exact (s.rebuild_reserved i e other).symm
    · rw [visited]
      exact s.rebuild_corrected i
    · rw [port]
      exact (s.rebuild_evolves i).ports q
    · rw [port]
      exact s.rebuild_marked i q
    · rw [port]
      exact s.rebuild_noticed i office

/-- Settles O45: the upsets strike the check codes alone (State.sufferUpsets_eq); a running part then ticks (State.tick_eq). -/
theorem secondMovesEveryTimer : Obligations.SecondMovesEveryTimer := by
  intro upsets s
  obtain ⟨checks, suffered, codes⟩ := s.sufferUpsets_eq upsets
  have taken : exec (.timebaseSecond upsets) s = .next (if s.phase = .running then ({ s with checks := checks } : State).tick
      else { s with checks := checks }) := by
    have shape : exec (.timebaseSecond upsets) s = execTimebaseSecond upsets s := rfl
    rw [shape, execTimebaseSecond, suffered]
    simp only [beq_iff_eq]
  have code (t : State) (same : t.checks = checks) (i : SlotId) :
      let hits := upsets.filter fun u => u.1 = i
      (hits = [] → t.check i = s.check i) ∧
        (∀ u, hits = [u] → s.check i = .clean → t.check i = (match u.2 with
          | .oneBit => .oneBit
          | .twoBits => .twoBits)) ∧
        (hits ≠ [] → s.check i ≠ .clean ∨ 2 ≤ hits.length → t.check i = .twoBits) := by
    intro hits
    have struck : t.check i = (s.check i).struck hits := by
      rw [State.check, same]
      exact codes i
    refine ⟨fun none => by rw [struck, none]; rfl, fun u one clean => ?_, fun some twice => struck.trans (CheckCode.struck_again _ _ some twice)⟩
    rw [struck, one, clean]
    obtain ⟨j, strike⟩ := u
    cases strike <;> rfl
  by_cases running : s.phase = .running
  · rw [if_pos running] at taken
    generalize atClock : ({ s with checks := checks } : State) = u at taken
    have clock : u.clock = s.clock := by rw [← atClock]
    have due : u.minuteDue = s.minuteDue := by rw [← atClock]
    refine ⟨_, taken, fun stands => absurd running stands, fun _ => ⟨?_, fun b => ?_, fun unset => ?_, fun c set early => ?_,
      fun c set late => ?_, ?_⟩, code _ ?_⟩
    · rw [State.tick_frame, Supply.tick_eq, ← atClock]
    · have bay : u.bay b = s.bay b := by rw [← atClock]; rfl
      rw [State.tick_bay, bay, Bay.tick_eq]
    · exact due ▸ State.tick_clock_of_unset (clock.trans unset)
    · exact due ▸ State.tick_clock_of_lt (clock.trans set) early
    · exact State.tick_clock_of_le (clock.trans set) late
    · rw [State.tick_passMark, ← atClock]
    · rw [State.tick_frame, ← atClock]
  · rw [if_neg running] at taken
    exact ⟨_, taken, fun _ => rfl, fun runs => absurd runs running, code _ rfl⟩

end

section
/-!
The scan after a hard reset (R18, R20, R36, R152): each record in its turn rebuilt or restored, O17. The records are scanned one by
one, and a rebuild takes its record out of the comparison of tags; which records lose their tag is settled by the state before the scan
all the same (State.Scanned.losesTag_iff).
-/

namespace Sys2Proof.Machine

/-! ### Which record of two loses a tag (R20) -/

/-- The record is in the roster. -/
def State.present (s : State) (i : SlotId) : Prop := (s.record i).lifecycle ≠ .free

/-- A record holds the same tag with a greater stamp, or with as great a stamp in a lower slot (R20). -/
def State.outstamps (s : State) (j i : SlotId) : Prop :=
  j ≠ i ∧ s.present j ∧ (s.record j).tag = (s.record i).tag ∧
    ((s.record i).seen < (s.record j).seen ∨ (s.record i).seen = (s.record j).seen ∧ j < i)

/-- A record that the scan rebuilds: without a tag, or the lesser of two of one tag (R20). -/
def State.rebuilds (s : State) (i : SlotId) : Prop :=
  s.present i ∧ (s.record i).reason ≠ some .damaged ∧ ((s.record i).tag = 0 ∨ ∃ j, s.outstamps j i)

theorem State.losesTag_iff (s : State) (i : SlotId) : s.losesTag i = true ↔ ∃ j, s.outstamps j i := by
  unfold State.losesTag
  rw [List.any_eq_true]
  refine exists_congr fun j => ?_
  simp only [Bool.and_eq_true, bne_iff_ne, beq_iff_eq, Bool.or_eq_true, decide_eq_true_eq, mem_allSlots, true_and]
  exact ⟨fun ⟨⟨⟨other, present⟩, tag⟩, stamp⟩ => ⟨other, present, tag, stamp⟩,
    fun ⟨other, present, tag, stamp⟩ => ⟨⟨⟨other, present⟩, tag⟩, stamp⟩⟩

/-- The rank of a record among those of its tag: its stamp, then the lower slot. -/
def State.rank (s : State) (i : SlotId) : Nat := (s.record i).seen * 64 + (63 - i.val)

theorem State.rank_lt_of_outstamps {s : State} {i j : SlotId} (h : s.outstamps j i) : s.rank i < s.rank j := by
  obtain ⟨other, present, tag, stamp⟩ := h
  unfold State.rank
  rcases stamp with less | ⟨same, lower⟩
  · omega
  · rw [Fin.lt_def] at lower
    omega

theorem State.outstamps_of_rank_lt {s : State} {i j : SlotId} (present : s.present j)
    (tag : (s.record j).tag = (s.record i).tag) (rank : s.rank i < s.rank j) : s.outstamps j i := by
  have other : j ≠ i := fun same => by
    subst same
    omega
  refine ⟨other, present, tag, ?_⟩
  unfold State.rank at rank
  rw [Fin.lt_def]
  omega

/-- A record that is outstamped is so by one that none outstamps. -/
theorem State.outstamps_by_greatest {s : State} {i j : SlotId} (h : s.outstamps j i) :
    ∃ m, s.outstamps m i ∧ ¬ ∃ k, s.outstamps k m := by
  classical
  obtain ⟨m, member, greatest⟩ := (Finset.univ.filter fun k => s.outstamps k i).exists_max_image s.rank ⟨j, by simpa using h⟩
  have best : s.outstamps m i := by simpa using member
  refine ⟨m, best, fun ⟨k, better⟩ => ?_⟩
  have above := State.rank_lt_of_outstamps better
  obtain ⟨_, present, tag, _⟩ := better
  have outstamps : s.outstamps k i :=
    State.outstamps_of_rank_lt present (tag.trans best.2.2.1) ((State.rank_lt_of_outstamps best).trans above)
  exact absurd (greatest k (by simpa using outstamps)) (by omega)

/-! ### One record rebuilt where no block names its slot (R18) -/

/-- The record that a rebuild leaves where no block names the slot, its stamp left open (R18, notes/assumptions/8.md). -/
def State.damagedAlone (s : State) (seen : Nat) : PackRecord :=
  { freeRecord with lifecycle := .quarantined, reason := some .damaged, capacity := (s.profile 0).rated, seen := seen }

theorem State.recallOf_eq_none {s : State} (i : SlotId) (empty : ∀ c, s.recall c = []) : s.recallOf i = none := by
  unfold State.recallOf
  rw [List.findSome?_eq_none_iff]
  intro c _
  rw [empty]
  rfl

theorem State.entryReserving_eq_none {s : State} {i : SlotId} (free : ∀ e, (s.entry e).reserved ≠ some i) :
    s.entryReserving i = none :=
  find?_finRange_eq_none.mpr fun e => by simpa using free e

/-- A rebuild where no block names the slot: the record, its place in a ready queue, the plan and the ports. -/
theorem State.sound.rebuild_alone {s : State} (h : s.sound) {i : SlotId} (bays : ∀ b, (s.bay b).slot ≠ some i)
    (entries : ∀ e, (s.entry e).reserved ≠ some i) (recalls : ∀ c, s.recall c = []) :
    ∃ seen readyQueues freeUses ports, s.rebuild i = { s with
      records := s.records.set i (s.damagedAlone seen), readyQueues := readyQueues, freeUses := freeUses
      planMark := true, ports := ports } := by
  have naming := State.bayNaming_eq_none bays
  have damaged : s.damagedRecord i = s.damagedAlone (s.damagedRecord i).seen := by
    unfold State.damagedRecord State.profileOfDamaged State.freshRecord State.damagedAlone
    rw [naming]
    rfl
  have left : ∃ readyQueues, s.leaveDamaged i = { s with readyQueues := readyQueues } := by
    unfold State.leaveDamaged
    rw [State.entryReserving_eq_none entries]
    dsimp only
    unfold State.priorOfDamaged
    rw [State.recallOf_eq_none i recalls, naming]
    cases s.inReadyQueue i
    · exact ⟨s.readyQueues, rfl⟩
    · exact ⟨_, rfl⟩
  obtain ⟨readyQueues, left⟩ := left
  have written : (s.leaveDamaged i).storeRecord i (s.damagedRecord i) = { s with
      readyQueues := readyQueues, records := s.records.set i (s.damagedAlone (s.damagedRecord i).seen) } := by
    rw [left, damaged, State.storeRecord, h.checks_set]
    rfl
  refine ⟨(s.damagedRecord i).seen, readyQueues, s.freeUses + 1, (s.rebuild i).ports, ?_⟩
  unfold State.rebuild
  dsimp only
  rw [naming, written]
  rfl

/-- A record's charge fields once restored (R2, R20): the other fields stand. -/
theorem PackRecord.restored_eq (r : PackRecord) (pr : Profile) : r.restored pr = { r with
    capacity := if pr.valid then min (pr.rated * 11 / 10) (max (pr.rated / 2) r.capacity) else r.capacity
    estimate := min ((r.restored pr).capacity * 110 / 100) r.estimate
    residue := if (r.restored pr).estimate < r.estimate ∨ 3599999 < r.residue then 0 else r.residue } := by
  have clamped : clampNat (pr.rated / 2) (pr.rated * 11 / 10) r.capacity = min (pr.rated * 11 / 10) (max (pr.rated / 2) r.capacity) := by
    unfold clampNat
    split_ifs <;> omega
  unfold PackRecord.restored
  rw [clamped]
  generalize (if pr.valid = true then min (pr.rated * 11 / 10) (max (pr.rated / 2) r.capacity) else r.capacity) = capacity
  dsimp only
  by_cases bound : capacity * 110 / 100 < r.estimate
  · simp [bound, Nat.min_eq_left bound.le]
  · simp [bound, Nat.min_eq_right (Nat.le_of_not_lt bound)]

theorem PackRecord.restored_frame (r : PackRecord) (pr : Profile) : r.restored pr = { r with
    capacity := (r.restored pr).capacity, estimate := (r.restored pr).estimate, residue := (r.restored pr).residue } := by
  unfold PackRecord.restored
  generalize (if pr.valid = true then clampNat (pr.rated / 2) (pr.rated * 11 / 10) r.capacity else r.capacity) = capacity
  dsimp only
  by_cases bound : capacity * 110 / 100 < r.estimate
  · simp only [if_pos bound]
  · simp only [if_neg bound]

/-- A rebuilt record keeps the laws of charge as it is (R2). -/
theorem State.damagedAlone_restored (s : State) (seen : Nat) {pr : Profile} (rated : pr.rated = (s.profile 0).rated) :
    (s.damagedAlone seen).restored pr = s.damagedAlone seen := by
  have capacity : (if pr.valid then min (pr.rated * 11 / 10) (max (pr.rated / 2) (s.profile 0).rated) else (s.profile 0).rated) =
      (s.profile 0).rated := by
    rw [rated]
    split <;> omega
  rw [PackRecord.restored_eq]
  simp only [State.damagedAlone, freeRecord] at capacity ⊢
  simp [capacity]

/-! ### The records scanned one by one (R20) -/

/-- What the scan of records leaves alone: the codes, the bays and the queues that name slots, and what no operation of an event touches. -/
structure State.ScanKeeps (s u : State) : Prop where
  evolves : Evolves s u
  checks : u.checks = s.checks
  bays : u.bays = s.bays
  pendingList : u.pendingList = s.pendingList
  entries : u.entries = s.entries
  recalls : u.recalls = s.recalls

theorem State.ScanKeeps.refl (s : State) : State.ScanKeeps s s := ⟨.refl s, rfl, rfl, rfl, rfl, rfl⟩

theorem State.ScanKeeps.trans {s u v : State} (h : State.ScanKeeps s u) (g : State.ScanKeeps u v) : State.ScanKeeps s v :=
  ⟨h.evolves.trans g.evolves, g.checks.trans h.checks, g.bays.trans h.bays, g.pendingList.trans h.pendingList,
    g.entries.trans h.entries, g.recalls.trans h.recalls⟩

theorem State.ScanKeeps.profile {s u : State} (h : State.ScanKeeps s u) (k : ProfileId) : u.profile k = s.profile k := by
  unfold State.profile
  rw [h.evolves.frame.profiles]

/-- No block names a slot: no bay, no reservation, no recall (R20). -/
structure State.NamesNoSlot (s : State) : Prop where
  bays : ∀ b, (s.bay b).slot = none
  entries : ∀ e, (s.entry e).reserved = none
  recalls : ∀ c, s.recall c = []

theorem State.ScanKeeps.namesNoSlot {s u : State} (h : State.ScanKeeps s u) (unnamed : s.NamesNoSlot) : u.NamesNoSlot := by
  refine ⟨fun b => ?_, fun e => ?_, fun c => ?_⟩
  · simpa only [State.bay, h.bays] using unnamed.bays b
  · simpa only [State.entry, h.entries] using unnamed.entries e
  · simpa only [State.recall, h.recalls] using unnamed.recalls c

/-- The plan mark, the group's change mark and the ROSTER notice of a rebuilt record (R7, R18). -/
structure State.TellsRebuild (s : State) (i : SlotId) : Prop where
  plan : s.planMark = true
  marked : ∀ q, hasFlag (s.port q).marks (groupOf i) = true
  noticed : ∀ q, (s.port q).role = .depot ∨ (s.port q).role = .observer → hasFlag (s.port q).raised NoticeKind.roster.bit = true

/-- What is told of a rebuilt record stands. -/
theorem State.TellsRebuild.evolves {s u : State} {i : SlotId} (h : s.TellsRebuild i) (evolves : Evolves s u)
    (plan : s.planMark = true → u.planMark = true) : u.TellsRebuild i where
  plan := plan h.plan
  marked q := (evolves.ports q).marks _ (h.marked q)
  noticed q office := (evolves.ports q).raised _ (h.noticed q ((evolves.ports q).role ▸ office))

theorem State.rebuild_tells (s : State) (i : SlotId) : (s.rebuild i).TellsRebuild i where
  plan := s.rebuild_planMark i
  marked := s.rebuild_marked i
  noticed q office := s.rebuild_noticed i (((s.rebuild_evolves i).ports q).role ▸ office)

/-- A record that the scan does not rebuild, after it (R20): a FREE one as it was, another with its charge restored. -/
def State.scannedRecord (s : State) (i : SlotId) : PackRecord :=
  if (s.record i).lifecycle = .free then s.record i else (s.record i).restored (s.profile (s.record i).profile)

/-- The fields by which the scan compares two records. -/
def PackRecord.SameName (r x : PackRecord) : Prop := r.lifecycle = x.lifecycle ∧ r.tag = x.tag ∧ r.seen = x.seen

theorem State.scannedRecord_sameName (s : State) (i : SlotId) : (s.scannedRecord i).SameName (s.record i) := by
  unfold State.scannedRecord
  split
  · exact ⟨rfl, rfl, rfl⟩
  · rw [PackRecord.restored_eq]
    exact ⟨rfl, rfl, rfl⟩

/-- What the scan of some records of s leaves (R20): which of them are rebuilt hangs on s alone. -/
structure State.Scanned (s u : State) (done : List SlotId) : Prop where
  keeps : State.ScanKeeps s u
  waiting : ∀ i, i ∉ done → u.record i = s.record i
  standing : ∀ i ∈ done, ¬ s.rebuilds i → u.record i = s.scannedRecord i
  rebuilt : ∀ i ∈ done, s.rebuilds i → (∃ seen, u.record i = s.damagedAlone seen) ∧ u.TellsRebuild i

section Scanned
variable {s u : State} {done : List SlotId} (h : State.Scanned s u done)
include h

/-- A record that is not rebuilt keeps its place among those of its tag. -/
theorem State.Scanned.sameName {i : SlotId} (stands : ¬ s.rebuilds i) : (u.record i).SameName (s.record i) := by
  by_cases member : i ∈ done
  · rw [h.standing i member stands]
    exact s.scannedRecord_sameName i
  · rw [h.waiting i member]
    exact ⟨rfl, rfl, rfl⟩

/-- A record that holds a tag during the scan is one that is not rebuilt, or not yet. -/
theorem State.Scanned.sameName_of_tag {i : SlotId} (tagged : (u.record i).tag ≠ 0) : (u.record i).SameName (s.record i) := by
  by_cases rebuilds : s.rebuilds i
  · by_cases member : i ∈ done
    · obtain ⟨⟨seen, record⟩, _⟩ := h.rebuilt i member rebuilds
      rw [record] at tagged
      exact absurd rfl tagged
    · rw [h.waiting i member]
      exact ⟨rfl, rfl, rfl⟩
  · exact h.sameName rebuilds

/-- Whether a waiting record loses its tag is as it was before the scan: the record that outstamps all of that tag is not rebuilt. -/
theorem State.Scanned.losesTag_iff {i : SlotId} (waits : i ∉ done) (tagged : (s.record i).tag ≠ 0) :
    u.losesTag i = true ↔ ∃ j, s.outstamps j i := by
  rw [State.losesTag_iff]
  have same := h.waiting i waits
  constructor
  · rintro ⟨j, other, present, tag, stamp⟩
    rw [same] at tag stamp
    obtain ⟨lifecycle, sameTag, seen⟩ := h.sameName_of_tag (tag ▸ tagged)
    refine ⟨j, other, ?_, sameTag ▸ tag, seen ▸ stamp⟩
    unfold State.present at present ⊢
    exact lifecycle ▸ present
  · rintro ⟨j, outstamps⟩
    obtain ⟨m, ⟨other, present, tag, stamp⟩, greatest⟩ := State.outstamps_by_greatest outstamps
    have stands : ¬ s.rebuilds m := fun ⟨_, _, loses⟩ => loses.elim (tag ▸ tagged) greatest
    obtain ⟨lifecycle, sameTag, seen⟩ := h.sameName stands
    refine ⟨m, other, ?_, ?_, ?_⟩
    · unfold State.present at present ⊢
      rwa [lifecycle]
    · rw [sameTag, same, tag]
    · rwa [seen, same]

/-- The scan's test of a waiting record. -/
theorem State.Scanned.test_iff {i : SlotId} (waits : i ∉ done) (present : s.present i) :
    ((u.record i).reason != some .damaged && ((u.record i).tag == 0 || u.losesTag i)) = true ↔ s.rebuilds i := by
  rw [Bool.and_eq_true, bne_iff_ne, Bool.or_eq_true, beq_iff_eq, h.waiting i waits]
  unfold State.rebuilds
  by_cases tagged : (s.record i).tag = 0
  · simp [tagged, present]
  · simp [tagged, present, h.losesTag_iff waits tagged]

/-- A state that differs by the next record's write alone. -/
theorem State.Scanned.next {v : State} {i : SlotId} (waits : i ∉ done) (keeps : State.ScanKeeps u v)
    (plan : u.planMark = true → v.planMark = true) (others : ∀ j, j ≠ i → v.record j = u.record j)
    (stands : ¬ s.rebuilds i → v.record i = s.scannedRecord i)
    (rebuilds : s.rebuilds i → (∃ seen, v.record i = s.damagedAlone seen) ∧ v.TellsRebuild i) :
    State.Scanned s v (done ++ [i]) where
  keeps := h.keeps.trans keeps
  waiting j outside := by
    rw [List.mem_append, List.mem_singleton, not_or] at outside
    rw [others j outside.2, h.waiting j outside.1]
  standing j member := by
    rcases List.mem_append.mp member with before | last
    · rw [others j fun same => waits (same ▸ before)]
      exact h.standing j before
    · rw [List.mem_singleton.mp last]
      exact stands
  rebuilt j member which := by
    rcases List.mem_append.mp member with before | last
    · obtain ⟨record, tells⟩ := h.rebuilt j before which
      rw [others j fun same => waits (same ▸ before)]
      exact ⟨record, tells.evolves keeps.evolves plan⟩
    · rw [List.mem_singleton.mp last] at which ⊢
      exact rebuilds which

end Scanned

/-- A record's write with its charge restored, on a sound roster. -/
theorem State.sound.putRestored {s : State} (h : s.sound) (i : SlotId) (pr : Profile) :
    State.ScanKeeps s (s.putRecord i ((s.record i).restored pr)) := by
  have evolves := s.putRecord_evolves i ((s.record i).restored pr) fun _ _ => PackRecord.restored_lawful _ _
  obtain ⟨ports, written⟩ := h.putRecord i ((s.record i).restored pr)
  rw [written] at evolves ⊢
  exact ⟨evolves, rfl, rfl, rfl, rfl, rfl⟩

theorem State.putRecord_planMark (s : State) (i : SlotId) (r : PackRecord) : (s.putRecord i r).planMark = s.planMark := by
  obtain ⟨ports, written⟩ := s.putRecord_eq i r
  rw [written]

/-- A rebuild where no block names the slot, said by what it keeps and the record it leaves. -/
theorem State.sound.rebuild_keeps {s : State} (h : s.sound) (i : SlotId) (unnamed : s.NamesNoSlot) :
    State.ScanKeeps s (s.rebuild i) ∧ (∃ seen, (s.rebuild i).record i = s.damagedAlone seen) ∧
      ∀ j, j ≠ i → (s.rebuild i).record j = s.record j := by
  have evolves := s.rebuild_evolves i
  have others (j : SlotId) (other : j ≠ i) : (s.rebuild i).record j = s.record j := by rw [State.rebuild_record, if_neg other]
  obtain ⟨seen, readyQueues, freeUses, ports, rebuilt⟩ := h.rebuild_alone (i := i) (fun b => by simp [unnamed.bays b])
    (fun e => by simp [unnamed.entries e]) unnamed.recalls
  rw [rebuilt] at evolves others ⊢
  exact ⟨⟨evolves, rfl, rfl, rfl, rfl, rfl⟩, ⟨seen, (get_set _ _ _ _).trans (if_pos rfl)⟩, others⟩

/-- One more record scanned, where records are rebuilt only with no block that names a slot. -/
theorem State.Scanned.step {s u : State} {done : List SlotId} (h : State.Scanned s u done) (sound : s.sound) {i : SlotId}
    (waits : i ∉ done) (quiet : s.rebuilds i → s.NamesNoSlot) : State.Scanned s (u.scanRecord i) (done ++ [i]) := by
  have soundNow : u.sound := sound.of_checks h.keeps.checks
  have same := h.waiting i waits
  unfold State.scanRecord
  by_cases free : (s.record i).lifecycle = .free
  · rw [if_pos (by rw [same, free]; rfl)]
    refine h.next waits (.refl u) id (fun _ _ => rfl) (fun _ => ?_) (fun rebuilds => absurd free rebuilds.1)
    rw [same, State.scannedRecord, if_pos free]
  · rw [if_neg (by rw [same, beq_iff_eq]; exact free)]
    dsimp only
    by_cases rebuilds : s.rebuilds i
    · rw [if_pos ((h.test_iff waits free).mpr rebuilds)]
      obtain ⟨kept, ⟨seen, record⟩, others⟩ := soundNow.rebuild_keeps i (h.keeps.namesNoSlot (quiet rebuilds))
      have written := (soundNow.of_checks kept.checks).putRestored i ((u.rebuild i).profile ((u.rebuild i).record i).profile)
      have damaged : u.damagedAlone seen = s.damagedAlone seen := by
        unfold State.damagedAlone
        rw [h.keeps.profile]
      have restored : ((u.rebuild i).record i).restored ((u.rebuild i).profile ((u.rebuild i).record i).profile) =
          s.damagedAlone seen := by
        rw [record, damaged]
        exact s.damagedAlone_restored seen (congrArg Profile.rated ((h.keeps.trans kept).profile 0))
      rw [restored] at written ⊢
      have plan : ((u.rebuild i).putRecord i (s.damagedAlone seen)).planMark = true := State.putRecord_planMark _ _ _
      refine h.next waits (kept.trans written) (fun _ => plan) (fun j other => ?_) (fun stands => absurd rebuilds stands)
        (fun _ => ⟨⟨seen, ?_⟩, (u.rebuild_tells i).evolves written.evolves fun _ => plan⟩)
      · rw [State.putRecord_record, if_neg other, others j other]
      · rw [State.putRecord_record, if_pos rfl]
    · rw [if_neg (mt (h.test_iff waits free).mp rebuilds)]
      refine h.next waits (soundNow.putRestored i _) (fun plan => (State.putRecord_planMark _ _ _).trans plan) (fun j other => ?_)
        (fun _ => ?_) (fun which => absurd which rebuilds)
      · rw [State.putRecord_record, if_neg other]
      · rw [State.putRecord_record, if_pos rfl, h.keeps.profile, same, State.scannedRecord, if_neg free]

/-- The records of a list scanned in their turn. -/
theorem State.Scanned.foldl {s : State} (sound : s.sound) (quiet : ∀ i, s.rebuilds i → s.NamesNoSlot) (l : List SlotId) {u : State}
    {done : List SlotId} (h : State.Scanned s u done) (once : (done ++ l).Nodup) :
    State.Scanned s (l.foldl State.scanRecord u) (done ++ l) := by
  induction l generalizing u done with
  | nil => simpa using h
  | cons i l ih =>
    have waits : i ∉ done := fun member => List.disjoint_of_nodup_append once member List.mem_cons_self
    have step := h.step sound waits (quiet i)
    have both : done ++ i :: l = done ++ [i] ++ l := by simp
    rw [both] at once ⊢
    exact ih step once

/-- Every record scanned in its turn (R20). -/
def State.scanned (s : State) : State := allSlots.foldl State.scanRecord s

theorem State.scanned_all {s : State} (sound : s.sound) (quiet : ∀ i, s.rebuilds i → s.NamesNoSlot) :
    State.Scanned s s.scanned allSlots :=
  State.Scanned.foldl sound quiet allSlots (done := []) ⟨.refl s, fun _ _ => rfl, nofun, nofun⟩ (List.nodup_finRange 64)

/-! ### The greatest stamp (R20) -/

theorem foldl_max_greatest (l : List Nat) (a : Nat) : l.foldl max a ∈ a :: l ∧ ∀ x ∈ a :: l, x ≤ l.foldl max a :=
  List.max?_eq_some_iff'.mp List.max?_cons'

theorem State.le_greatestStamp (s : State) {i : SlotId} (present : s.present i) : (s.record i).seen ≤ s.greatestStamp :=
  (foldl_max_greatest _ 0).2 _ (List.mem_cons_of_mem _
    (List.mem_map.mpr ⟨i, mem_allSlots i, if_neg (by rw [beq_iff_eq]; exact present)⟩))

/-- The greatest stamp is 0, or that of a record in the roster. -/
theorem State.greatestStamp_eq (s : State) : s.greatestStamp = 0 ∨ ∃ i, s.present i ∧ s.greatestStamp = (s.record i).seen := by
  rcases List.mem_cons.mp (foldl_max_greatest (allSlots.map fun i => if (s.record i).lifecycle == .free then 0 else (s.record i).seen) 0).1
    with none | found
  · exact .inl none
  · obtain ⟨j, _, stamp⟩ := List.mem_map.mp found
    by_cases free : (s.record j).lifecycle = .free
    · rw [if_pos (by rw [free]; rfl)] at stamp
      exact .inl stamp.symm
    · rw [if_neg (by rwa [beq_iff_eq])] at stamp
      exact .inr ⟨j, free, stamp.symm⟩

/-- The greatest stamp is that of a record, or 0 in an empty roster. -/
theorem State.greatestStamp_attained (s : State) :
    (∀ i, ¬ s.present i) ∧ s.greatestStamp = 0 ∨ ∃ i, s.present i ∧ s.greatestStamp = (s.record i).seen := by
  rcases s.greatestStamp_eq with zero | found
  · by_cases empty : ∀ i, ¬ s.present i
    · exact .inl ⟨empty, zero⟩
    · obtain ⟨i, present⟩ := not_forall_not.mp empty
      exact .inr ⟨i, present, zero.trans (Nat.le_zero.mp (zero ▸ s.le_greatestStamp present)).symm⟩
  · exact .inr found

/-! ### The whole scan -/

theorem Role.takes_supply {role : Role} (on : role ≠ .off) : role.takes .supply .part = true := by
  cases role with
  | off => exact absurd rfl on
  | _ => rfl


theorem State.scanRejects_iff (s : State) : s.scanRejects = true ↔
    (∃ k, (s.profile k).valid = true ∧ (s.profile k).passes = false) ∨ ∃ e, (s.entry e).valid = true ∧ (s.entry e).inRange = false := by
  simp [State.scanRejects, Profile.failsScan, Entry.failsScan, allEntries]

/-- A departure entry after the scan's checks (R152). -/
theorem State.scanTables_entry (s : State) (e : EntryId) : s.scanTables.entry e =
    if (s.entry e).valid = true ∧ (s.entry e).inRange = false then { s.entry e with valid := false, status := .idle } else s.entry e := by
  have fails : (s.entry e).failsScan = true ↔ (s.entry e).valid = true ∧ (s.entry e).inRange = false := by simp [Entry.failsScan]
  exact (get_updateAll _ _ e).trans (if_congr fails rfl rfl)

theorem State.scanTables_namesNoSlot {s : State} (bays : ∀ b, (s.bay b).slot = none) (entries : ∀ e, (s.entry e).reserved = none)
    (recalls : ∀ c, s.recall c = []) : s.scanTables.NamesNoSlot where
  bays := bays
  entries e := by
    rw [State.scanTables_entry]
    split <;> exact entries e
  recalls := recalls

/-- The scan of a sound roster: its records scanned, the seen counter set, and the PROFILE notice. -/
theorem State.sound.scanAfterReset {s : State} (h : s.sound) : ∃ ports,
    s.scanAfterReset = { s.scanTables.scanned with seenCounter := s.scanTables.scanned.greatestStamp, ports := ports } ∧
      ∀ q : PortId, PortMoves (s.scanTables.scanned.port q) ports[q] ∧
        (s.scanRejects = true → ports[q] = (s.scanTables.scanned.port q).deliver .profile .part) := by
  have checked : s.scanTables.accessAll allSlots = s.scanTables := State.sound.accessAll (s := s.scanTables) h allSlots
  have folded : allSlots.foldl State.scanRecord s.scanTables = s.scanTables.scanned := rfl
  unfold State.scanAfterReset
  rw [checked]
  dsimp only
  rw [folded]
  generalize s.scanTables.scanned = u
  by_cases rejects : s.scanRejects = true
  · refine ⟨updateAll u.ports fun _ x => x.deliver .profile .part, if_pos rejects, fun q => ?_⟩
    rw [get_updateAll]
    exact ⟨.deliver _ _ _, fun _ => rfl⟩
  · exact ⟨u.ports, if_neg rejects, fun q => ⟨.refl _, fun which => absurd which rejects⟩⟩

/-- A record after the scan is in the roster where it was before. -/
theorem State.Scanned.present_iff {s u : State} (h : State.Scanned s u allSlots) (i : SlotId) : u.present i ↔ s.present i := by
  unfold State.present
  by_cases rebuilds : s.rebuilds i
  · obtain ⟨⟨seen, record⟩, _⟩ := h.rebuilt i (mem_allSlots i) rebuilds
    rw [record]
    exact ⟨fun _ => rebuilds.1, fun _ => nofun⟩
  · rw [(h.sameName rebuilds).1]

/-- The end of a scan: the period timer, the ramp and the SUPPLY notice (R20, R99, R117). -/
theorem State.endScan_eq (s : State) : ∃ pass, s.endScan = { s with
    phase := .running, periodTimer := some s.site.period, supply := s.supply.startingRamp s.site.rampTime, passMark := pass
    ports := (s.notify .supply .part).ports } := by
  unfold State.endScan
  rw [State.startRamp_eq]
  exact ⟨_, rfl⟩

/-- What SCAN_COMPLETE after a hard reset leaves of a sound roster: the scanned state, its counter, the ramp, and the notices. -/
theorem State.sound.scanComplete {s : State} (h : s.sound) (phase : s.phase = .scanAfterHardReset) {u : State}
    (scanned : s.scanTables.scanned = u) : ∃ pass ports,
    exec .scanComplete s = .next { u with
      phase := .running, seenCounter := u.greatestStamp, periodTimer := some s.site.period
      supply := s.supply.startingRamp s.site.rampTime, passMark := pass, ports := ports } ∧
    ∀ q : PortId, PortMoves (u.port q) ports[q] ∧
      ((u.port q).role ≠ .off → hasFlag ports[q].raised NoticeKind.supply.bit = true) ∧
      (s.scanRejects = true → (u.port q).role = .depot ∨ (u.port q).role = .observer →
        hasFlag ports[q].raised NoticeKind.profile.bit = true) := by
  have evolves : Evolves s.scanTables u := scanned ▸ Evolves.foldl _ State.scanRecord_evolves allSlots s.scanTables
  have site : u.site = s.site := evolves.frame.site
  have supply : u.supply = s.supply := evolves.frame.supply
  obtain ⟨before, scan, delivered⟩ := h.scanAfterReset
  rw [scanned] at scan delivered
  have taken : exec .scanComplete s = .next s.scanAfterReset.endScan := by
    change execScanComplete s = _
    rw [execScanComplete, phase]
  obtain ⟨pass, ended⟩ := s.scanAfterReset.endScan_eq
  refine ⟨pass, updateAll before fun _ x => x.deliver .supply .part, ?_, fun q => ?_⟩
  · rw [taken, ended, scan]
    dsimp only
    rw [site, supply]
    rfl
  · obtain ⟨moves, told⟩ := delivered q
    rw [get_updateAll]
    refine ⟨moves.trans (.deliver _ _ _), fun on => (moves.trans (.deliver _ _ _)).raises_last rfl (Role.takes_supply on),
      fun rejects office => ?_⟩
    rw [told rejects]
    exact (PortMoves.refl _).raises (Role.office_takes office _ _) (.deliver _ _ _)

end Sys2Proof.Machine

open Sys2Proof Sys2Proof.Machine

/-- Settles O17: which records are rebuilt is settled before the first of them is (State.Scanned.losesTag_iff), and each record is
scanned once (State.scanned_all). -/
theorem scanAfterHardResetRestoresTheLaws : Obligations.ScanAfterHardResetRestoresTheLaws := by
  intro s phase sound present rebuilt rejected unnamed
  have quiet (i : SlotId) (rebuilds : s.scanTables.rebuilds i) : s.scanTables.NamesNoSlot :=
    unnamed.elim (fun none => absurd rebuilds (none i)) fun ⟨bays, entries, recalls⟩ => State.scanTables_namesNoSlot bays entries recalls
  have scanned := State.scanned_all (s := s.scanTables) sound quiet
  obtain ⟨u, run⟩ : ∃ u, s.scanTables.scanned = u := ⟨_, rfl⟩
  rw [run] at scanned
  obtain ⟨pass, ports, next, told⟩ := sound.scanComplete phase run
  have keeps := scanned.keeps
  have role (q : PortId) : (u.port q).role = (s.port q).role := (keeps.evolves.ports q).role
  refine ⟨_, next, rfl, keeps.bays, keeps.pendingList, rfl, rfl, fun k => ?_, fun e => ?_, fun i absent => ?_, fun i which => ?_,
    fun i here stands => ?_, fun i here => ?_, ?_, fun q => ?_⟩
  · exact (keeps.profile k).trans (s.scanTables_profile k)
  · exact (congrArg (·[e]) keeps.entries).trans (s.scanTables_entry e)
  · have record := scanned.standing i (mem_allSlots i) fun rebuilds => absent rebuilds.1
    exact record.trans (if_pos (not_not.mp absent))
  · obtain ⟨⟨seen, record⟩, tells⟩ := scanned.rebuilt i (mem_allSlots i) which
    have record : u.record i = { freeRecord with
        lifecycle := .quarantined, reason := some .damaged, capacity := (s.profile 0).rated, seen := (u.record i).seen } := by
      rw [record, State.damagedAlone, State.scanTables_profile]
    exact ⟨tells.plan, record, fun q => ⟨(told q).1.marks _ (tells.marked q),
      fun office => (told q).1.raised _ (tells.noticed q (role q ▸ office))⟩⟩
  · have record : u.record i = (s.record i).restored (u.profile (s.record i).profile) := by
      rw [keeps.profile]
      exact (scanned.standing i (mem_allSlots i) stands).trans (if_neg here)
    have rated : (u.profile (s.record i).profile).rated = (s.profile (s.record i).profile).rated := by
      rw [keeps.profile, State.scanTables_profile]
    have fields := (s.record i).restored_eq (u.profile (s.record i).profile)
    rw [← record, rated] at fields
    exact ⟨record ▸ PackRecord.restored_lawful _ _, record ▸ PackRecord.restored_frame _ _,
      congrArg PackRecord.capacity fields, congrArg PackRecord.estimate fields, congrArg PackRecord.residue fields⟩
  · exact u.le_greatestStamp ((scanned.present_iff i).mpr here)
  · refine u.greatestStamp_attained.imp (fun ⟨empty, zero⟩ => ⟨fun i here => ?_, zero⟩) fun ⟨i, here, stamp⟩ => ⟨i, ?_, stamp⟩
    · exact empty i ((scanned.present_iff i).mpr here)
    · exact (scanned.present_iff i).mp here
  · obtain ⟨moves, supply, profile⟩ := told q
    rw [role] at supply profile
    exact ⟨(keeps.evolves.ports q).trans moves, supply, fun rejects office => profile (s.scanRejects_iff.mpr rejects) office⟩

end

section
/-!
Stalls and probation (R65, R72 to R74, R76): O29.
-/

namespace Sys2Proof.Machine

/-! ### A stall declared (R73, R74) -/

/-- A declaration: STALL is counted, the bay changed, barred for a reason, and the FAULT notice raised. -/
def State.declaration (s : State) (b : BayId) (f : Bay → Bay) (r : Inhibit) : State :=
  (((s.count b .stall).modBay b f).addInhibit b r).notify .fault (.bay b)

/-- A bay held by a declaration (R73). -/
def Bay.stallHeld (x : Bay) : Bay :=
  { x with declarations := x.declarations + 1, stall := .holding, holdEnd := some 60, probation := none, stallStreak := 0 }

/-- A bay faulted by a declaration (R74). -/
def Bay.stallFaulted (x : Bay) : Bay :=
  { x with declarations := min 3 (x.declarations + 1), stall := .clear, probation := none, stallStreak := 0 }

theorem State.declareStall_eq (s : State) (b : BayId) :
    s.declareStall b = if (s.bay b).declarations < 2 then s.declaration b Bay.stallHeld .stallHold
      else s.declaration b Bay.stallFaulted .fault := rfl

/-- A bay with one more stall counted (R80). -/
def Bay.stallCounted (x : Bay) : Bay :=
  { x with counters := x.counters.set EventCounter.stall.place (x.counters[EventCounter.stall.place]).counted }

theorem State.declaration_bay (s : State) (b a : BayId) (f : Bay → Bay) (r : Inhibit) :
    (s.declaration b f r).bay a =
      if a = b then (f (s.bay b).stallCounted).inhibited r s.site.confirmTimeout else s.bay a := by
  obtain ⟨ports, counted⟩ := s.count_eq b .stall
  have bay (d : BayId) : (s.count b .stall).bay d = if d = b then (s.bay b).stallCounted else s.bay d := by
    rw [counted]
    exact get_set _ _ _ _
  have site : (s.count b .stall).site = s.site := by rw [counted]
  rw [State.declaration, State.notify_bay, State.addInhibit_bay, State.modBay_bay, State.modBay_bay, if_pos rfl, bay, bay, if_pos rfl,
    State.modBay_site, site]
  by_cases own : a = b
  · rw [if_pos own, if_pos own]
  · rw [if_neg own, if_neg own, if_neg own, if_neg own]

/-- A declaration at an eligible bay requests a pass (R40, R101). -/
theorem State.declaration_passMark (s : State) (b : BayId) (f : Bay → Bay) (r : Inhibit)
    (eligible : (f (s.bay b).stallCounted).eligible = true) : (s.declaration b f r).passMark = true := by
  obtain ⟨ports, counted⟩ := s.count_eq b .stall
  have own : ((s.count b .stall).modBay b f).bay b = f (s.bay b).stallCounted := by
    rw [State.modBay_bay, if_pos rfl, counted]
    exact congrArg f ((get_set _ _ _ _).trans (if_pos rfl))
  rw [State.declaration, State.notify_passMark, State.addInhibit_eq, own, eligible, Bool.or_true]

/-- The FAULT notice of a declaration (R69, R73). -/
theorem State.declareStall_noticed (s : State) (b : BayId) {q : PortId} (takes : (s.port q).role.takes .fault (.bay b) = true) :
    hasFlag ((s.declareStall b).port q).raised NoticeKind.fault.bit = true := by
  have last : ∃ y : Port, (s.declareStall b).port q = y.deliver .fault (.bay b) := by
    rw [State.declareStall_eq]
    split <;> exact ⟨_, State.notify_port _ _ _ _⟩
  obtain ⟨y, last⟩ := last
  exact ((s.declareStall_evolves b).ports q).raises_last last takes

/-- A stall declared at an eligible bay requests a pass. -/
theorem State.declareStall_passMark (s : State) (b : BayId) (eligible : (s.bay b).eligible = true) :
    (s.declareStall b).passMark = true := by
  rw [State.declareStall_eq]
  split
  · exact s.declaration_passMark b _ _ eligible
  · exact s.declaration_passMark b _ _ eligible

theorem State.declareStall_bay_ne (s : State) {b a : BayId} (other : a ≠ b) : (s.declareStall b).bay a = s.bay a := by
  rw [State.declareStall_eq]
  split <;> rw [State.declaration_bay, if_neg other]

/-- A declaration counts one stall, whatever its kind (R80). -/
theorem State.declareStall_counters (s : State) (b : BayId) :
    ((s.declareStall b).bay b).counters = (s.bay b).stallCounted.counters := by
  rw [State.declareStall_eq]
  split <;> rw [State.declaration_bay, if_pos rfl] <;> rfl

/-! ### The judgements of a report (R72, R76) -/

theorem State.stallTrigger_iff (s : State) (b : BayId) (current : Nat) : s.stallTrigger b current = true ↔
    (s.bay b).eligible = true ∧ (s.bayProfile b).minCurrent ≤ (s.bay b).grant ∧ current < (s.bay b).grant / 4 := by
  simp [State.stallTrigger, and_assoc]

/-- The report counts toward the end of a probation (R76). -/
def State.provesGood (s : State) (b : BayId) : Prop :=
  (s.bay b).stall = .probation ∧ (s.bayProfile b).valid = true ∧ (s.bayProfile b).minCurrent ≤ (s.bay b).grant

/-- A current below half of a grant, rounded up. -/
theorem lt_ceilDiv_two {n g : Nat} : n < ceilDiv g 2 ↔ n * 2 < g := by
  unfold ceilDiv
  omega

theorem State.judgeProbation_of_not {s : State} {b : BayId} (current : Nat) (h : ¬ s.provesGood b) : s.judgeProbation b current = s := by
  unfold State.provesGood at h
  exact if_neg (by simpa [and_assoc] using h)

theorem State.judgeProbation_of_good {s : State} {b : BayId} (current : Nat) (h : s.provesGood b) :
    s.judgeProbation b current =
      if current * 2 < (s.bay b).grant then s.modBay b fun y => { y with probation := some 0 }
      else if (s.bay b).probation.getD 0 < 3 then s.modBay b fun y => { y with probation := some (y.probation.getD 0 + 1) }
      else s.clearStall b := by
  unfold State.provesGood at h
  refine (if_pos (by simpa [and_assoc] using h)).trans ?_
  simp only [lt_ceilDiv_two, Nat.add_lt_iff_lt_sub_right, Nat.reduceSub]

theorem State.clearStall_bay (s : State) (b a : BayId) :
    (s.clearStall b).bay a = if a = b then { s.bay b with stall := .clear, probation := none } else s.bay a :=
  s.modBay_bay b a fun x => { x with stall := .clear, probation := none }

end Sys2Proof.Machine

open Sys2Proof Sys2Proof.Machine

/-- Settles O29: the stall streak by the trigger (State.stallTrigger_iff) and the criterion's demand, the declaration by its count
(State.declareStall_eq), the probation by the good reports (State.judgeProbation_of_good). -/
theorem stallsAreDeclaredAndCleared : Obligations.StallsAreDeclaredAndCleared := by
  intro s b current x min' t u triggers demand lowered good
  have judged : t = if s.stallTrigger b current then
      (if x.stallStreak + 1 < s.site.criterion.demand then s.modBay b fun y => { y with stallStreak := y.stallStreak + 1 }
        else s.declareStall b)
      else s.modBay b fun y => { y with stallStreak := 0 } := rfl
  have demanded : s.site.criterion.demand = demand := by
    unfold demand
    cases s.site.criterion <;> rfl
  have own (f : Bay → Bay) : (s.modBay b f).bay b = f x := (s.modBay_bay b b f).trans (if_pos rfl)
  have others (f : Bay → Bay) (a : BayId) (other : a ≠ b) : (s.modBay b f).bay a = s.bay a := (s.modBay_bay b a f).trans (if_neg other)
  refine ⟨fun a other => ⟨?_, ?_⟩, fun not => ?_, fun does early => ?_, fun does reached => ?_, State.judgeProbation_of_not current,
    fun holds poor => ?_, fun holds fair early => ?_, fun holds fair fourth => ?_⟩
  · rw [judged]
    split
    · split
      · exact others _ a other
      · exact s.declareStall_bay_ne other
    · exact others _ a other
  · by_cases holds : s.provesGood b
    · change (s.judgeProbation b current).bay a = _
      rw [State.judgeProbation_of_good current holds]
      split
      · exact others _ a other
      · split
        · exact others _ a other
        · rw [State.clearStall_bay, if_neg other]
    · exact congrArg (·.bay a) (State.judgeProbation_of_not current holds)
  · rw [judged, if_neg (mt (s.stallTrigger_iff b current).mp not)]
    exact ⟨own _, rfl⟩
  · rw [judged, if_pos ((s.stallTrigger_iff b current).mpr does), demanded, if_pos early]
    exact ⟨own _, rfl⟩
  · rw [if_pos ((s.stallTrigger_iff b current).mpr does), demanded, if_neg (Nat.not_lt.mpr reached)] at judged
    have counters : (t.bay b).counters = x.stallCounted.counters := judged ▸ s.declareStall_counters b
    have counter (k : Fin 5) : (t.bay b).counters[k] =
        if k = EventCounter.stall.place then (x.counters[EventCounter.stall.place]).counted else x.counters[k] := by
      simp only [counters]
      exact get_set _ _ _ _
    refine ⟨(counter _).trans (if_pos rfl), fun k other => (counter k).trans (if_neg other), judged ▸ s.declareStall_passMark b does.1,
      fun q takes => judged ▸ s.declareStall_noticed b takes, fun held => ?_, fun faulted => ?_⟩
    · unfold lowered
      rw [counters, judged, State.declareStall_eq, if_pos held, State.declaration_bay, if_pos rfl]
      simp only [Bay.inhibited, Bay.loweredToZero, Bay.stallHeld, Bay.stallCounted, addFlag]
      rfl
    · unfold lowered
      rw [counters, judged, State.declareStall_eq, if_neg (Nat.not_lt.mpr faulted), State.declaration_bay, if_pos rfl]
      simp only [Bay.inhibited, Bay.loweredToZero, Bay.stallFaulted, Bay.stallCounted, addFlag]
      rfl
  all_goals
    change s.provesGood b at holds
    have proved : u = if current * 2 < x.grant then s.modBay b fun y => { y with probation := some 0 }
        else if x.probation.getD 0 < 3 then s.modBay b fun y => { y with probation := some (y.probation.getD 0 + 1) }
        else s.clearStall b := State.judgeProbation_of_good current holds
  · rw [proved, if_pos poor]
    exact ⟨own _, rfl⟩
  · rw [proved, if_neg (Nat.not_lt.mpr fair), if_pos early]
    exact ⟨own _, rfl⟩
  · rw [proved, if_neg (Nat.not_lt.mpr fair), if_neg (Nat.not_lt.mpr fourth)]
    refine ⟨(s.clearStall_bay b b).trans (if_pos rfl), rfl, fun q => ?_⟩
    refine (State.notifyFaultClear_port _ b q).trans ?_
    simp only [beq_iff_eq, State.modBay_port]

end

section
/-!
A profile entry taken at its last byte (R25 to R28, R33 to R35, R179): the checks of the entry, its records and its bays each in their
turn, O38.
-/

namespace Sys2Proof.Machine

/-! ### The checks of an entry (R26) -/

theorem Profile.ascending_iff (pr : Profile) :
    pr.ascending = true ↔ ∀ j k : Fin 5, j < k → pr.breakpoints[j] < pr.breakpoints[k] := by
  simp only [Profile.ascending, Bool.and_eq_true, decide_eq_true_eq]
  constructor
  · rintro ⟨⟨⟨first, second⟩, third⟩, fourth⟩
    simp only [Fin.forall_fin_succ, Fin.forall_fin_zero]
    refine ⟨?_, ?_, ?_, ?_, ?_⟩ <;> simp <;> omega
  · intro ascends
    exact ⟨⟨⟨ascends 0 1 (by decide), ascends 1 2 (by decide)⟩, ascends 2 3 (by decide)⟩, ascends 3 4 (by decide)⟩

theorem Profile.equalisePasses_iff (pr : Profile) : pr.equalisePasses = true ↔
    (pr.family ≠ 0 → pr.equaliseInterval = 0 ∧ pr.equaliseCurrent = 0 ∧ pr.equaliseMinutes = 0) ∧
    (pr.family = 0 → 0 < pr.equaliseInterval →
      pr.minCurrent ≤ pr.equaliseCurrent ∧ pr.equaliseCurrent ≤ pr.maxCurrent ∧ 1 ≤ pr.equaliseMinutes ∧ pr.equaliseMinutes ≤ 240) := by
  unfold Profile.equalisePasses familyFloodedLead
  by_cases flooded : pr.family = 0
  · simp [flooded, Nat.pos_iff_ne_zero, or_iff_not_imp_left, and_assoc]
  · simp [flooded, and_assoc]

/-- The checks of an entry, row by row of R26. -/
theorem Profile.passes_iff (pr : Profile) : pr.passes = true ↔ pr.meetsChecks := by
  simp only [Profile.passes, Profile.currentsPass, Bool.and_eq_true, decide_eq_true_eq, beq_iff_eq, Profile.ascending_iff,
    Profile.equalisePasses_iff, List.all_eq_true, List.mem_finRange, true_implies]
  unfold familyLithiumPhosphate Profile.factor
  constructor
  · rintro ⟨⟨⟨⟨⟨⟨⟨⟨⟨⟨⟨family, voltage⟩, rated⟩, ⟨⟨⟨min', max'⟩, most⟩, five⟩, finish⟩, absorb⟩, acceptance⟩, efficiency⟩, rest⟩,
      estimate⟩, ascends⟩, factors⟩, other, flooded⟩
    exact ⟨by omega, voltage, rated, ⟨min', max', most, five⟩, finish, absorb, acceptance, efficiency, rest, estimate, ascends, factors,
      other, flooded⟩
  · rintro ⟨family, voltage, rated, ⟨min', max', most, five⟩, finish, absorb, acceptance, efficiency, rest, estimate, ascends, factors,
      other, flooded⟩
    exact ⟨⟨⟨⟨⟨⟨⟨⟨⟨⟨⟨by omega, voltage⟩, rated⟩, ⟨⟨⟨min', max'⟩, most⟩, five⟩, finish⟩, absorb⟩, acceptance⟩, efficiency⟩, rest⟩,
      estimate⟩, ascends⟩, factors⟩, other, flooded⟩

/-- The entry that 32 bytes leave in the table (R25): valid where requested and its checks pass. -/
def takenProfile (bytes : Vector Byte 32) : Profile :=
  { profileOfBytes bytes with valid := decide (bytes[0] ≠ 0) && (profileOfBytes bytes).passes }

theorem takenProfile_valid_iff (bytes : Vector Byte 32) :
    (takenProfile bytes).valid = true ↔ bytes[0] ≠ 0 ∧ (profileOfBytes bytes).meetsChecks := by
  rw [takenProfile, Bool.and_eq_true, decide_eq_true_eq, Profile.passes_iff]

/-! ### Tables whose places are visited in their turn -/

theorem get_ofFn {α : Type} {n : Nat} (f : Fin n → α) (i : Fin n) : (Vector.ofFn f)[i] = f i := Vector.getElem_ofFn i.isLt

/-- A fold over every place of a table, each visit of which writes its own place alone, writes every place. -/
theorem foldl_writes {σ α : Type} {n : Nat} {Holds : Vector α n → σ → Prop} {visit : σ → Fin n → σ} {g : Fin n → α} {v : Vector α n}
    {s : σ} (start : Holds v s)
    (writes : ∀ w t (i : Fin n), Holds w t → w[i] = v[i] → Holds (w.set i (g i)) (visit t i)) :
    Holds (Vector.ofFn g) ((List.finRange n).foldl visit s) := by
  have walk (l : List (Fin n)) (once : l.Nodup) (w : Vector α n) (t : σ) (holds : Holds w t) (waits : ∀ i ∈ l, w[i] = v[i]) :
      ∃ u, Holds u (l.foldl visit t) ∧ ∀ i : Fin n, u[i] = if i ∈ l then g i else w[i] := by
    induction l generalizing w t with
    | nil => exact ⟨w, holds, fun i => by simp⟩
    | cons a l ih =>
      obtain ⟨fresh, rest⟩ := List.nodup_cons.mp once
      obtain ⟨u, after, places⟩ := ih rest (w.set a (g a)) (visit t a) (writes w t a holds (waits a List.mem_cons_self)) fun i member => by
        rw [get_set, if_neg (ne_of_mem_of_not_mem member fresh)]
        exact waits i (List.mem_cons_of_mem a member)
      refine ⟨u, after, fun i => ?_⟩
      rw [places, get_set]
      by_cases own : i = a
      · rw [if_neg (own ▸ fresh), if_pos own, if_pos (own ▸ List.mem_cons_self), own]
      · simp [own]
  obtain ⟨u, holds, places⟩ := walk _ (List.nodup_finRange n) v s start fun _ _ => rfl
  have every : u = Vector.ofFn g := vector_ext fun i => by
    rw [places, if_pos (List.mem_finRange i), get_ofFn]
  exact every ▸ holds

/-! ### The records of the entry's profile (R33) -/

theorem clampNat_eq {low high : Nat} (h : low ≤ high) (n : Nat) : clampNat low high n = min high (max low n) := by
  unfold clampNat
  split_ifs <;> omega

theorem PackRecord.within_eq (r : PackRecord) (pr : Profile) : r.within pr = { r with
    capacity := min (pr.rated * 11 / 10) (max (pr.rated / 2) r.capacity)
    estimate := min (min (pr.rated * 11 / 10) (max (pr.rated / 2) r.capacity) * 110 / 100) r.estimate
    residue := if min (pr.rated * 11 / 10) (max (pr.rated / 2) r.capacity) * 110 / 100 < r.estimate then 0 else r.residue } := by
  unfold PackRecord.within
  rw [clampNat_eq (by omega)]
  generalize min (pr.rated * 11 / 10) (max (pr.rated / 2) r.capacity) = capacity
  dsimp only
  by_cases exceeds : capacity * 110 / 100 < r.estimate
  · rw [if_pos exceeds, if_pos exceeds, Nat.min_eq_left exceeds.le]
  · rw [if_neg exceeds, if_neg exceeds, Nat.min_eq_right (Nat.le_of_not_lt exceeds)]

theorem PackRecord.names_iff (r : PackRecord) (k : ProfileId) : r.names k = true ↔ r.lifecycle ≠ .free ∧ r.profile = k := by
  simp [PackRecord.names]

/-- A record once a valid entry of the profile is taken (R33). -/
def State.retakenRecord (s : State) (k : ProfileId) (i : SlotId) : PackRecord :=
  if (s.record i).names k then (s.record i).within (s.profile k) else s.record i

/-- A change of capacity is marked (R7). -/
theorem PackRecord.sameMarked_of_capacity {r x : PackRecord} (h : x.capacity ≠ r.capacity) : r.sameMarked x = false := by
  simp [PackRecord.sameMarked, Ne.symm h]

/-- A state that differs in its records and its ports alone, the group of each record whose capacity changed being marked (R7). -/
structure State.RecordsAre (s : State) (records : Vector PackRecord 64) (t : State) : Prop where
  same : t = { s with records := records, ports := t.ports }
  marked : ∀ i : SlotId, (records[i]).capacity ≠ (s.record i).capacity → ∀ q, hasFlag (t.port q).marks (groupOf i) = true

theorem State.RecordsAre.refl (s : State) : s.RecordsAre s.records s := ⟨rfl, fun _ changed => absurd rfl changed⟩

/-- One more record written, of a sound roster. -/
theorem State.RecordsAre.putRecord {s t : State} {records : Vector PackRecord 64} (h : s.RecordsAre records t) (sound : s.sound)
    {i : SlotId} (waits : records[i] = s.record i) (r : PackRecord) : s.RecordsAre (records.set i r) (t.putRecord i r) := by
  have now : t.sound := sound.of_checks (by rw [h.same])
  have record : t.record i = s.record i := by
    rw [h.same]
    exact waits
  have kept (q : PortId) (g : GroupId) (marked : hasFlag (t.port q).marks g = true) :
      hasFlag ((t.putRecord i r).port q).marks g = true := by
    rw [State.putRecord_port]
    split
    · exact marked
    · exact (PortMoves.marked _ _).marks _ marked
  refine ⟨?_, fun j changed q => ?_⟩
  · obtain ⟨ports, written⟩ := now.putRecord i r
    rw [written, h.same]
  · rw [get_set] at changed
    by_cases own : j = i
    · subst own
      rw [if_pos rfl] at changed
      rw [State.putRecord_port, record, PackRecord.sameMarked_of_capacity changed]
      simp
    · rw [if_neg own] at changed
      exact kept q _ (h.marked j changed q)

theorem State.RecordsAre.retakeRecord {s t : State} {records : Vector PackRecord 64} {k : ProfileId} (h : s.RecordsAre records t)
    (sound : s.sound) {i : SlotId} (waits : records[i] = s.record i) :
    s.RecordsAre (records.set i (s.retakenRecord k i)) (State.retakeRecord k t i) := by
  have now : t.sound := sound.of_checks (by rw [h.same])
  have record : t.record i = s.record i := by
    rw [h.same]
    exact waits
  have profile : t.profile k = s.profile k := by
    rw [h.same]
    rfl
  unfold State.retakeRecord State.retakenRecord
  simp only [now.access, record, profile]
  split
  · exact h.putRecord sound waits _
  · rw [← waits]
    simpa only [Fin.getElem_fin, Vector.set_getElem_self] using h

/-- Every record of a sound roster, once a valid entry is taken. -/
theorem State.sound.retakeRecords {s : State} (h : s.sound) (k : ProfileId) :
    s.RecordsAre (Vector.ofFn (s.retakenRecord k)) (allSlots.foldl (State.retakeRecord k) s) :=
  foldl_writes (Holds := s.RecordsAre) (.refl s) fun _ _ _ holds waits => holds.retakeRecord h waits

/-! ### A bay changed by an event -/

/-- A state that differs in its bays, the request for a pass, the pending increases and the ports alone. -/
def State.BaysAre (s : State) (bays : Vector Bay 16) (t : State) : Prop :=
  ∃ pass pendingList ports, t = { s with bays := bays, passMark := pass, pendingList := pendingList, ports := ports }

theorem State.BaysAre.refl (s : State) : s.BaysAre s.bays s := ⟨s.passMark, s.pendingList, s.ports, rfl⟩

theorem State.BaysAre.trans {s t u : State} {v w : Vector Bay 16} (h : s.BaysAre v t) (g : t.BaysAre w u) : s.BaysAre w u := by
  obtain ⟨_, _, _, first⟩ := h
  obtain ⟨pass, pendingList, ports, second⟩ := g
  exact ⟨pass, pendingList, ports, by rw [second, first]⟩

theorem State.BaysAre.bay {s t : State} {v : Vector Bay 16} (h : s.BaysAre v t) (a : BayId) : t.bay a = v[a] := by
  obtain ⟨_, _, _, same⟩ := h
  rw [same]
  rfl

theorem State.BaysAre.record {s t : State} {v : Vector Bay 16} (h : s.BaysAre v t) (i : SlotId) : t.record i = s.record i := by
  obtain ⟨_, _, _, same⟩ := h
  rw [same]
  rfl

theorem State.BaysAre.profile {s t : State} {v : Vector Bay 16} (h : s.BaysAre v t) (k : ProfileId) : t.profile k = s.profile k := by
  obtain ⟨_, _, _, same⟩ := h
  rw [same]
  rfl

theorem State.BaysAre.site {s t : State} {v : Vector Bay 16} (h : s.BaysAre v t) : t.site = s.site := by
  obtain ⟨_, _, _, same⟩ := h
  rw [same]

/-- The same of one bay. -/
def State.BayIs (s : State) (b : BayId) (x : Bay) (t : State) : Prop := s.BaysAre (s.bays.set b x) t

theorem State.BayIs.own {s t : State} {b : BayId} {x : Bay} (h : s.BayIs b x t) : t.bay b = x := by
  rw [State.BaysAre.bay h, get_set, if_pos rfl]

theorem State.BayIs.trans {s t u : State} {b : BayId} {x y : Bay} (h : s.BayIs b x t) (g : t.BayIs b y u) : s.BayIs b y u := by
  have bays : t.bays.set b y = s.bays.set b y := by
    obtain ⟨_, _, _, same⟩ := h
    rw [same, Vector.set_set]
  exact State.BaysAre.trans h (bays ▸ g)

theorem State.BayIs.refl (s : State) (b : BayId) : s.BayIs b (s.bay b) s := by
  unfold State.BayIs State.bay
  rw [set_self]
  exact .refl s

theorem State.addInhibit_bayIs (s : State) (b : BayId) (r : Inhibit) :
    s.BayIs b ((s.bay b).inhibited r s.site.confirmTimeout) (s.addInhibit b r) := ⟨_, _, _, s.addInhibit_eq b r⟩

theorem State.removeInhibit_bayIs (s : State) (b : BayId) (r : Inhibit) :
    s.BayIs b ((s.bay b).uninhibited r) (s.removeInhibit b r) := by
  unfold State.removeInhibit
  rw [State.changeBay_eq]
  exact ⟨_, _, s.ports, rfl⟩

/-! ### The bays of the entry's profile, the entry being valid (R34) -/

/-- The temperature of the last report, or of the dock (R34, step 2). -/
def Bay.lastTemperature (x : Bay) : Int :=
  match x.last with
  | some l => l.temperature
  | none => x.dockTemperature

/-- A bay that takes the band of its last temperature without debounce, up to the heat limit (R34 steps 2 and 3, R77). -/
def Bay.retakenBand (x : Bay) (pr : Profile) (timeout : Nat) : Bay :=
  if pr.bandOf x.lastTemperature = x.band then
    ({ x with band := pr.bandOf x.lastTemperature, debounce := 0 } : Bay).followed (pr.factor (pr.bandOf x.lastTemperature)) timeout
  else x.rebanded (pr.bandOf x.lastTemperature) (pr.factor (pr.bandOf x.lastTemperature)) timeout

/-- The bay at the band's retake, short of the heat limit. -/
theorem State.retakeBand_bayIs (s : State) (b : BayId) (cool : (s.bay b).heat ≤ 1) :
    s.BayIs b ((s.bay b).retakenBand (s.bayProfile b) s.site.confirmTimeout) (s.retakeBand b) := by
  have taken : s.retakeBand b = if (s.bayProfile b).bandOf (s.bay b).lastTemperature = (s.bay b).band then
      (s.putBand b ((s.bayProfile b).bandOf (s.bay b).lastTemperature)).followFactor b
      else s.changeBand b ((s.bayProfile b).bandOf (s.bay b).lastTemperature) := rfl
  rw [taken]
  unfold Bay.retakenBand
  generalize (s.bayProfile b).bandOf (s.bay b).lastTemperature = k
  split
  · have put : s.BayIs b { s.bay b with band := k, debounce := 0 } (s.putBand b k) := ⟨s.passMark, s.pendingList, s.ports, rfl⟩
    have followed : (s.putBand b k).BayIs b _ ((s.putBand b k).followFactor b) := (s.putBand b k).followFactor_eq b
    rw [State.bayProfile, put.own] at followed
    exact put.trans followed
  · rw [State.changeBand_eq, if_neg (by omega)]
    exact s.bandMoved_eq b k

/-- What no retake of a band touches. -/
structure Bay.SamePack (x y : Bay) : Prop where
  stage : y.stage = x.stage
  slot : y.slot = x.slot
  tag : y.tag = x.tag
  profile : y.profile = x.profile
  barred : y.carries .profile = x.carries .profile

theorem Bay.followed_samePack (x : Bay) (n t : Nat) : x.SamePack (x.followed n t) := by
  unfold Bay.followed
  split
  · exact ⟨rfl, rfl, rfl, rfl, by simp [Bay.inhibited_carries]⟩
  · exact ⟨rfl, rfl, rfl, rfl, by simp [Bay.uninhibited_carries]⟩

theorem Bay.rebanded_samePack (x : Bay) (k : Fin 6) (n t : Nat) : x.SamePack (x.rebanded k n t) := by
  obtain ⟨stage, slot, tag, profile, barred⟩ := ({ x with band := k, debounce := 0 } : Bay).followed_samePack n t
  unfold Bay.rebanded
  dsimp only
  split
  · exact ⟨stage, slot, tag, profile, barred⟩
  · exact ⟨stage, slot, tag, profile, barred⟩

theorem Bay.retakenBand_samePack (x : Bay) (pr : Profile) (t : Nat) : x.SamePack (x.retakenBand pr t) := by
  unfold Bay.retakenBand
  generalize pr.bandOf x.lastTemperature = k
  split
  · obtain ⟨stage, slot, tag, profile, barred⟩ := ({ x with band := k, debounce := 0 } : Bay).followed_samePack (pr.factor k) t
    exact ⟨stage, slot, tag, profile, barred⟩
  · exact x.rebanded_samePack k _ t

/-- The band fields after a retake: the band of the last temperature, and TEMPERATURE by its factor (R31, R34). -/
theorem Bay.retakenBand_fields (x : Bay) (pr : Profile) (t : Nat) :
    (x.retakenBand pr t).band = pr.bandOf x.lastTemperature ∧ (x.retakenBand pr t).debounce = 0 ∧
      ((x.retakenBand pr t).carries .temperature = true ↔ pr.factor (pr.bandOf x.lastTemperature) = 0) ∧
      (x.retakenBand pr t).grant = if pr.factor (pr.bandOf x.lastTemperature) = 0 then 0 else x.grant := by
  unfold Bay.retakenBand
  generalize pr.bandOf x.lastTemperature = k
  split
  · obtain ⟨band, debounce, _, _, _, _, _, grant⟩ := ({ x with band := k, debounce := 0 } : Bay).followed_fields (pr.factor k) t
    exact ⟨band, debounce, Bay.followed_carries _ _ _, grant⟩
  · obtain ⟨band, debounce, _, _, carries, _, _, _, grant⟩ := x.rebanded_fields k (pr.factor k) t
    exact ⟨band, debounce, carries, grant⟩

/-- A bay in BULK stands at its absorb point (R34, step 4). -/
def State.absorbs (s : State) (x : Bay) : Bool :=
  match x.slot with
  | some i => x.stage == .bulk && (s.profile x.profile).absorbAt (s.record i).capacity ≤ (s.record i).estimate
  | none => false

theorem State.reevaluateBulk_eq (s : State) (b : BayId) :
    s.reevaluateBulk b = if s.absorbs (s.bay b) then s.enterStage b .absorb else s := by
  unfold State.reevaluateBulk State.absorbs
  cases (s.bay b).slot with
  | none => rfl
  | some i => rfl

/-- A bay once BULK is re-evaluated. -/
def State.absorbed (s : State) (x : Bay) : Bay := if s.absorbs x then { x with stage := .absorb } else x

theorem State.reevaluateBulk_bayIs (s : State) (b : BayId) : s.BayIs b (s.absorbed (s.bay b)) (s.reevaluateBulk b) := by
  rw [State.reevaluateBulk_eq, State.absorbed]
  split
  · exact s.enterStage_of_charging b rfl
  · exact .refl s b

theorem State.absorbed_eq (s : State) (x : Bay) : s.absorbed x = { x with stage := (s.absorbed x).stage } := by
  unfold State.absorbed
  split <;> rfl

theorem State.absorbed_stage (s : State) (x : Bay) : (s.absorbed x).stage = match x.slot with
    | some i =>
      if x.stage = .bulk ∧ (s.record i).capacity * (s.profile x.profile).absorbPoint / 100 ≤ (s.record i).estimate then .absorb
      else x.stage
    | none => x.stage := by
  unfold State.absorbed State.absorbs Profile.absorbAt
  cases x.slot with
  | none => rfl
  | some i =>
    simp only [Bool.and_eq_true, beq_iff_eq, decide_eq_true_eq]
    split <;> rfl

/-- A bay once a valid entry of its profile is taken (R34). -/
def State.retakenBay (s : State) (x : Bay) : Bay :=
  s.absorbed ((x.uninhibited .profile).retakenBand (s.profile x.profile) s.site.confirmTimeout)

theorem Bay.names_iff (x : Bay) (k : ProfileId) : x.names k = true ↔ x.stage ≠ .empty ∧ x.profile = k := by
  simp [Bay.names]

theorem State.retakeBay_bayIs {s : State} {k : ProfileId} {b : BayId} (names : (s.bay b).names k = true) (cool : (s.bay b).heat ≤ 1) :
    s.BayIs b (s.retakenBay (s.bay b)) (State.retakeBay k s b) := by
  have freed : s.BayIs b ((s.bay b).uninhibited .profile)
      (if (s.bay b).carries .profile then s.removeInhibit b .profile else s) := by
    split
    · exact s.removeInhibit_bayIs b .profile
    · rename_i free
      rw [Bay.uninhibited_of_not (by simpa using free)]
      exact .refl s b
  unfold State.retakeBay
  rw [if_pos names]
  dsimp only
  generalize (if (s.bay b).carries .profile then s.removeInhibit b .profile else s) = u at freed ⊢
  have banded : s.BayIs b _ (u.retakeBand b) := freed.trans (u.retakeBand_bayIs b (by rw [freed.own]; exact cool))
  have staged := (u.retakeBand b).reevaluateBulk_bayIs b
  rw [State.bayProfile, freed.own, State.BaysAre.profile freed, State.BaysAre.site freed] at banded
  have absorbed (x : Bay) : (u.retakeBand b).absorbed x = s.absorbed x := by
    unfold State.absorbed State.absorbs
    simp only [State.BaysAre.profile banded, State.BaysAre.record banded]
  rw [absorbed, banded.own] at staged
  exact banded.trans staged

/-! ### Every bay at the take -/

/-- A bay once an entry of the profile is taken: barred by an invalid one (R28), brought into line by a valid one (R34). -/
def State.takenBay (s : State) (k : ProfileId) (x : Bay) : Bay :=
  if x.names k then
    if (s.profile k).valid then s.retakenBay x else x.inhibited .profile s.site.confirmTimeout
  else x

/-- One bay at the take of an entry. -/
def State.takeBay (valid : Bool) (k : ProfileId) (s : State) (b : BayId) : State :=
  if valid then State.retakeBay k s b else State.barBay k s b

theorem State.takeBay_bayIs {s : State} {k : ProfileId} {b : BayId} (cool : (s.bay b).names k = true → (s.bay b).heat ≤ 1) :
    s.BayIs b (s.takenBay k (s.bay b)) (State.takeBay (s.profile k).valid k s b) := by
  unfold State.takenBay State.takeBay
  by_cases names : (s.bay b).names k = true
  · rw [if_pos names]
    split
    · exact State.retakeBay_bayIs names (cool names)
    · rw [State.barBay, if_pos names]
      exact s.addInhibit_bayIs b .profile
  · rw [if_neg names, State.retakeBay, State.barBay, if_neg names, if_neg names, ite_self]
    exact .refl s b

theorem State.BaysAre.takeBay {s t : State} {v : Vector Bay 16} {k : ProfileId} {b : BayId} (h : s.BaysAre v t)
    (waits : v[b] = s.bay b) (cool : (s.bay b).names k = true → (s.bay b).heat ≤ 1) :
    s.BaysAre (v.set b (s.takenBay k (s.bay b))) (State.takeBay (s.profile k).valid k t b) := by
  have bay : t.bay b = s.bay b := (h.bay b).trans waits
  have taken := State.takeBay_bayIs (s := t) (k := k) (b := b) (bay ▸ cool)
  obtain ⟨_, _, _, same⟩ := id h
  have bays : t.bays = v := by rw [same]
  have alike : t.takenBay k (s.bay b) = s.takenBay k (s.bay b) := by
    rw [same]
    rfl
  rw [bay, alike, h.profile, State.BayIs, bays] at taken
  exact h.trans taken

theorem State.takeBays (s : State) (k : ProfileId) (cool : ∀ b, (s.bay b).names k = true → (s.bay b).heat ≤ 1) :
    s.BaysAre (Vector.ofFn fun b => s.takenBay k (s.bay b)) (allBays.foldl (State.takeBay (s.profile k).valid k) s) :=
  foldl_writes (Holds := s.BaysAre) (.refl s) fun _ _ b holds waits => holds.takeBay waits (cool b)

/-- A bay that a valid entry brings into line, field by field (R34). -/
theorem State.retakenBay_fields (s : State) (x : Bay) (pr : Profile) (entry : s.profile x.profile = pr) :
    (s.retakenBay x).carries .profile = false ∧ (s.retakenBay x).debounce = 0 ∧
      (s.retakenBay x).band = pr.bandOf x.lastTemperature ∧
      (s.retakenBay x).stage = (match x.slot with
        | some i =>
          if x.stage = .bulk ∧ (s.record i).capacity * pr.absorbPoint / 100 ≤ (s.record i).estimate then .absorb else x.stage
        | none => x.stage) ∧
      ((s.retakenBay x).carries .temperature = true ↔ pr.factor (s.retakenBay x).band = 0) ∧
      (s.retakenBay x).slot = x.slot ∧ (s.retakenBay x).tag = x.tag ∧
      (s.retakenBay x).grant = if pr.factor (s.retakenBay x).band = 0 then 0 else x.grant := by
  obtain ⟨stage, slot, tag, profile, barred⟩ :=
    (x.uninhibited .profile).retakenBand_samePack pr s.site.confirmTimeout
  obtain ⟨band, debounce, carries, grant⟩ := (x.uninhibited .profile).retakenBand_fields pr s.site.confirmTimeout
  have staged := s.absorbed_stage ((x.uninhibited .profile).retakenBand pr s.site.confirmTimeout)
  rw [stage, slot, profile] at staged
  rw [Bay.uninhibited_carries] at barred
  unfold State.retakenBay
  rw [entry]
  rw [State.absorbed_eq]
  generalize ((x.uninhibited .profile).retakenBand pr s.site.confirmTimeout) = y at *
  refine ⟨barred.trans (by simp), debounce, band, ?_, ?_, slot, tag, ?_⟩
  · rw [← entry]
    exact staged
  · rw [band]
    exact carries
  · rw [band]
    exact grant

/-! ### The entry taken (R25, R179) -/

/-- A record once an entry of the profile is taken (R33). -/
def State.takenRecord (s : State) (k : ProfileId) (pr : Profile) (i : SlotId) : PackRecord :=
  if pr.valid = true ∧ (s.record i).lifecycle ≠ .free ∧ (s.record i).profile = k then (s.record i).within pr else s.record i

/-- The part between the entry's write and the bays: the records of a valid entry brought within it (R33), the PROFILE notice of one
that is requested in vain (R27). -/
def State.recordsTaken (s : State) (k : ProfileId) (bytes : Vector Byte 32) : State :=
  let stored := s.setProfile k (takenProfile bytes)
  if (takenProfile bytes).valid then allSlots.foldl (State.retakeRecord k) stored
  else if bytes[0] ≠ 0 then stored.notify .profile .part else stored

theorem State.takeProfile_eq (s : State) (k : ProfileId) (bytes : Vector Byte 32) : s.takeProfile k bytes =
    ((allBays.foldl (State.takeBay (takenProfile bytes).valid k) (s.recordsTaken k bytes)).requestPass).requestPlan := by
  have requested : (bytes[0] != 0) = decide (bytes[0] ≠ 0) := by simp [bne, beq_eq_decide]
  have stored : { profileOfBytes bytes with valid := decide (bytes[0] ≠ 0) && (profileOfBytes bytes).passes } = takenProfile bytes := rfl
  have valid : (decide (bytes[0] ≠ 0) && (profileOfBytes bytes).passes) = (takenProfile bytes).valid := rfl
  unfold State.takeProfile State.recordsTaken
  rw [requested]
  dsimp only
  rw [stored, valid]
  cases (takenProfile bytes).valid
  · simp only [decide_eq_true_eq]
    rfl
  · rfl

theorem State.setProfile_own (s : State) (k : ProfileId) (pr : Profile) : (s.setProfile k pr).profile k = pr :=
  (s.setProfile_profile k k pr).trans (if_pos rfl)

theorem State.sound.recordsTaken {s : State} (h : s.sound) (k : ProfileId) (bytes : Vector Byte 32) :
    (s.setProfile k (takenProfile bytes)).RecordsAre (Vector.ofFn (s.takenRecord k (takenProfile bytes))) (s.recordsTaken k bytes) := by
  unfold State.recordsTaken
  dsimp only
  split
  · rename_i valid
    have taken : s.takenRecord k (takenProfile bytes) = (s.setProfile k (takenProfile bytes)).retakenRecord k := by
      funext i
      unfold State.takenRecord State.retakenRecord
      rw [State.setProfile_own, State.setProfile_record]
      simp only [valid, true_and, PackRecord.names_iff]
    rw [taken]
    exact (h.of_checks (t := s.setProfile k (takenProfile bytes)) rfl).retakeRecords k
  · rename_i invalid
    have same : Vector.ofFn (s.takenRecord k (takenProfile bytes)) = s.records := vector_ext fun i =>
      (get_ofFn _ i).trans (if_neg fun taken => invalid taken.1)
    rw [same]
    split
    · exact ⟨rfl, fun _ changed => absurd rfl changed⟩
    · exact .refl _

theorem State.sound.recordsTaken_profile {s : State} (h : s.sound) (k : ProfileId) (bytes : Vector Byte 32) :
    (s.recordsTaken k bytes).profile k = takenProfile bytes := by
  rw [(h.recordsTaken k bytes).same]
  exact s.setProfile_own k _

theorem State.sound.recordsTaken_record {s : State} (h : s.sound) (k : ProfileId) (bytes : Vector Byte 32) (i : SlotId) :
    (s.recordsTaken k bytes).record i = s.takenRecord k (takenProfile bytes) i := by
  rw [(h.recordsTaken k bytes).same]
  exact get_ofFn _ i

theorem State.sound.recordsTaken_bay {s : State} (h : s.sound) (k : ProfileId) (bytes : Vector Byte 32) (b : BayId) :
    (s.recordsTaken k bytes).bay b = s.bay b := by
  rw [(h.recordsTaken k bytes).same]
  rfl

theorem State.sound.recordsTaken_site {s : State} (h : s.sound) (k : ProfileId) (bytes : Vector Byte 32) :
    (s.recordsTaken k bytes).site = s.site := by
  rw [(h.recordsTaken k bytes).same]
  rfl

/-- An entry requested in vain is noticed (R27). -/
theorem State.recordsTaken_noticed (s : State) {k : ProfileId} {bytes : Vector Byte 32} (invalid : (takenProfile bytes).valid = false)
    (requested : bytes[0] ≠ 0) {q : PortId} (office : (s.port q).role = .depot ∨ (s.port q).role = .observer) :
    hasFlag ((s.recordsTaken k bytes).port q).raised NoticeKind.profile.bit = true := by
  unfold State.recordsTaken
  dsimp only
  rw [if_neg (by simp [invalid]), if_pos requested, State.notify_port]
  exact Port.deliver_raised (Role.office_takes office _ _)

theorem State.takeBay_evolves (valid : Bool) (k : ProfileId) (s : State) (b : BayId) : Evolves s (State.takeBay valid k s b) := by
  cases valid
  · exact State.barBay_evolves k s b
  · exact State.retakeBay_evolves k s b

/-- The ports of a take move on from those of its records. -/
theorem State.takeProfile_moves (s : State) (k : ProfileId) (bytes : Vector Byte 32) (q : PortId) :
    PortMoves ((s.recordsTaken k bytes).port q) ((s.takeProfile k bytes).port q) := by
  rw [State.takeProfile_eq]
  have bays := Evolves.foldl _ (State.takeBay_evolves (takenProfile bytes).valid k) allBays (s.recordsTaken k bytes)
  exact ((bays.trans (State.requestPass_evolves _)).trans (State.requestPlan_evolves _)).ports q

/-- A profile entry taken on a sound roster: the entry, its records, its bays, the two requests. -/
theorem State.sound.takeProfile {s : State} (h : s.sound) (k : ProfileId) (bytes : Vector Byte 32)
    (cool : ∀ b, (s.bay b).names k = true → (s.bay b).heat ≤ 1) : ∃ pendingList ports, s.takeProfile k bytes = { s with
      profiles := s.profiles.set k (takenProfile bytes)
      records := Vector.ofFn (s.takenRecord k (takenProfile bytes))
      bays := Vector.ofFn fun b => (s.recordsTaken k bytes).takenBay k (s.bay b)
      passMark := true, planMark := true, pendingList := pendingList, ports := ports } := by
  obtain ⟨pass, pendingList, ports, taken⟩ := (s.recordsTaken k bytes).takeBays k fun b => by
    rw [h.recordsTaken_bay]
    exact cool b
  simp only [h.recordsTaken_profile, h.recordsTaken_bay] at taken
  refine ⟨pendingList, ports, ?_⟩
  rw [State.takeProfile_eq, taken]
  generalize (Vector.ofFn fun b => (s.recordsTaken k bytes).takenBay k (s.bay b)) = bays
  rw [(h.recordsTaken k bytes).same]
  rfl

/-- The bytes held and the last one are the whole entry (R179). -/
theorem Port.wholeEntry_eq {n : Nat} (bytes : Vector Byte (n + 1)) {x : Port} (held : x.held = bytes.toList.take n) :
    x.wholeEntry (n + 1) bytes[n] = bytes := by
  have whole : x.held ++ [bytes[n]] = bytes.toList := by
    rw [held]
    have last : bytes[n] = bytes.toList[n]'(by simp) := by simp
    rw [last, List.take_append_getElem]
    exact List.take_of_length_le (by simp)
  refine vector_ext fun i => (get_ofFn _ i).trans ?_
  rw [whole, List.getD_eq_getElem _ _ (by rw [Vector.length_toList]; exact i.isLt)]
  exact Vector.getElem_toList _

/-- A profile entry taken at port p, whose stream moves on (R179). -/
def State.profileTaken (s : State) (p : PortId) (k last : ProfileId) (bytes : Vector Byte 32) : State :=
  (s.takeProfile k bytes).setStream p (some (.profiles (nextUpTo k last) last))

theorem exec_profileEntryTake_last {s : State} {p : PortId} {k last : ProfileId} {bytes : Vector Byte 32}
    (stream : (s.port p).stream = some (.profiles (some k) last)) (held : (s.port p).held = bytes.toList.take 31) :
    exec (.profileEntryTake p bytes[31]) s = .next (s.profileTaken p k last bytes) := by
  have whole : (s.port p).wholeEntry 32 bytes[31] = bytes := Port.wholeEntry_eq bytes held
  have completes : (s.port p).completes 32 = true := by
    unfold Port.completes
    rw [held]
    simp
  change execProfileEntryTake p bytes[31] s = _
  unfold execProfileEntryTake
  rw [stream]
  dsimp only
  rw [if_pos completes, whole]
  rfl

section
variable (s : State) (p q : PortId) (k last : ProfileId) (bytes : Vector Byte 32)

theorem State.profileTaken_port : (s.profileTaken p k last bytes).port q =
    if q = p then
      { (s.takeProfile k bytes).port p with stream := some (.profiles (nextUpTo k last) last), held := [] }
    else (s.takeProfile k bytes).port q := State.setPort_port _ _ _ _

/-- What was noticed before the bays is noticed at the end. -/
theorem State.profileTaken_raised (n : Fin 12) (h : hasFlag ((s.recordsTaken k bytes).port q).raised n = true) :
    hasFlag ((s.profileTaken p k last bytes).port q).raised n = true := by
  have stands := (s.takeProfile_moves k bytes q).raised n h
  rw [State.profileTaken_port]
  split
  · rename_i own
    exact own ▸ stands
  · exact stands

/-- A group marked before the bays is marked at the end. -/
theorem State.profileTaken_marks (g : GroupId) (h : hasFlag ((s.recordsTaken k bytes).port q).marks g = true) :
    hasFlag ((s.profileTaken p k last bytes).port q).marks g = true := by
  have stands := (s.takeProfile_moves k bytes q).marks g h
  rw [State.profileTaken_port]
  split
  · rename_i own
    exact own ▸ stands
  · exact stands

end

/-- A profile entry taken at its last byte on a sound roster, said by all it changes but the ports. -/
theorem State.sound.profileTaken {s : State} (h : s.sound) (p : PortId) (k last : ProfileId) (bytes : Vector Byte 32)
    (cool : ∀ b, (s.bay b).names k = true → (s.bay b).heat ≤ 1) :
    ∃ pendingList ports, s.profileTaken p k last bytes = { s with
      profiles := s.profiles.set k (takenProfile bytes)
      records := Vector.ofFn (s.takenRecord k (takenProfile bytes))
      bays := Vector.ofFn fun b => (s.recordsTaken k bytes).takenBay k (s.bay b)
      passMark := true, planMark := true, pendingList := pendingList, ports := ports } := by
  obtain ⟨pendingList, ports, taken⟩ := h.takeProfile k bytes cool
  unfold State.profileTaken
  rw [taken]
  exact ⟨pendingList, _, rfl⟩

end Sys2Proof.Machine

open Sys2Proof Sys2Proof.Machine

/-- Settles O38: the checks by Profile.passes_iff, the records and the bays as State.sound.profileTaken leaves them, the marks and the
notice as the ports move on from State.recordsTaken. -/
theorem profileEntryTaken : Obligations.ProfileEntryTaken := by
  intro p bytes s k last stream held sound cool
  obtain ⟨pendingList, ports, taken⟩ := sound.profileTaken p k last bytes fun b names => by
    obtain ⟨occupied, profile⟩ := (Bay.names_iff _ _).mp names
    exact cool b occupied profile
  have own : (s.profileTaken p k last bytes).port p = _ := (s.profileTaken_port p p k last bytes).trans (if_pos rfl)
  have raised (q : PortId) := s.profileTaken_raised p q k last bytes
  have marks (q : PortId) := s.profileTaken_marks p q k last bytes
  refine ⟨_, exec_profileEntryTake_last stream held, ?_⟩
  generalize s.profileTaken p k last bytes = t at *
  have profile (j : ProfileId) : t.profile j = if j = k then takenProfile bytes else s.profile j := by
    rw [taken]
    exact get_set _ _ _ _
  have entry : t.profile k = takenProfile bytes := (profile k).trans (if_pos rfl)
  have record (i : SlotId) : t.record i = s.takenRecord k (takenProfile bytes) i := by
    rw [taken]
    exact get_ofFn _ i
  have bay (b : BayId) : t.bay b = (s.recordsTaken k bytes).takenBay k (s.bay b) := by
    rw [taken]
    exact get_ofFn _ b
  have framed : t.passMark = true ∧ t.planMark = true ∧ t.entries = s.entries ∧ t.supply = s.supply ∧ t.clock = s.clock ∧
      t.readyQueues = s.readyQueues ∧ t.recalls = s.recalls ∧ t.draws = s.draws := by
    rw [taken]
    exact ⟨rfl, rfl, rfl, rfl, rfl, rfl, rfl, rfl⟩
  obtain ⟨pass, plan, entries, supply, clock, queues, recalls, draws⟩ := framed
  refine ⟨pass, plan, entries, supply, clock, queues, recalls, draws, by rw [own]; rfl, by rw [own], fun j other => ?_, entry, ?_,
    fun i valid present names => ⟨?_, fun changed q => ?_⟩, fun i => ?_, fun b elsewhere => ?_, fun b occupied names invalid => ?_,
    fun b occupied names valid => ?_, fun invalid requested q office => ?_⟩
  · rw [profile, if_neg other]
  · rw [entry]
    exact takenProfile_valid_iff bytes
  · rw [record, State.takenRecord, if_pos ⟨entry ▸ valid, present, names⟩, entry]
    exact PackRecord.within_eq _ _
  · refine marks q _ ((sound.recordsTaken k bytes).marked i ?_ q)
    rw [get_ofFn, State.takenRecord, if_pos ⟨entry ▸ valid, present, names⟩, PackRecord.within_eq, ← entry]
    exact changed
  · rw [record, entry]
    rfl
  · have unnamed : ¬ (s.bay b).names k = true := fun names =>
      elsewhere.elim ((Bay.names_iff _ _).mp names).1 fun other => other ((Bay.names_iff _ _).mp names).2
    rw [bay, State.takenBay, if_neg unnamed]
  · rw [bay, State.takenBay, if_pos ((Bay.names_iff _ _).mpr ⟨occupied, names⟩), sound.recordsTaken_profile, ← entry,
      if_neg (by simp [invalid]), sound.recordsTaken_site]
    rfl
  · have line : t.bay b = (s.recordsTaken k bytes).retakenBay (s.bay b) := by
      rw [bay, State.takenBay, if_pos ((Bay.names_iff _ _).mpr ⟨occupied, names⟩), sound.recordsTaken_profile, ← entry, if_pos valid]
    have fields := (s.recordsTaken k bytes).retakenBay_fields (s.bay b) (t.profile k) (by rw [names, sound.recordsTaken_profile, entry])
    simp only [← line, sound.recordsTaken_record, ← record] at fields
    obtain ⟨barred, debounce, band, stage, carries, slot, tag, grant⟩ := fields
    exact ⟨barred, debounce, band, band ▸ (t.profile k).liesIn_bandOf _, stage, carries, slot, tag, grant⟩
  · exact raised q _ (s.recordsTaken_noticed (entry ▸ invalid) requested office)

end

section
/-!
Grants and counters at every step (R38 to R40, R67, R80, R119 to R127): a grant stands only at a bay that earns it and a pending
increase only for an eligible bay; grants lie within their allowances, and counters in their ranges. The operations inside an event
evolve the part (Laws/Evolve.lean), which covers grants and counters; that they leave grants earned is said here, once for each.
-/

namespace Sys2Proof.Machine

/-- Grants that are earned in s are so in t (R38, R40). -/
def KeepsEarned (s t : State) : Prop := s.grantsEarned → t.grantsEarned

theorem KeepsEarned.refl (s : State) : KeepsEarned s s := id

theorem KeepsEarned.trans {s t u : State} (h : KeepsEarned s t) (g : KeepsEarned t u) : KeepsEarned s u := g ∘ h

theorem KeepsEarned.foldl {α : Type} (f : State → α → State) (h : ∀ s a, KeepsEarned s (f s a)) (l : List α) (s : State) :
    KeepsEarned s (l.foldl f s) := by
  induction l generalizing s with
  | nil => exact .refl s
  | cons a l ih => exact (h s a).trans (ih _)

/-- A write of neither the bays nor the pending list. -/
theorem KeepsEarned.ofSame {s t : State} (bays : t.bays = s.bays) (list : t.pendingList = s.pendingList) : KeepsEarned s t := by
  rintro ⟨earned, listed⟩
  have bay (b : BayId) : t.bay b = s.bay b := congrArg (·[b]) bays
  exact ⟨fun b => bay b ▸ earned b, fun x waits => bay x.bay ▸ listed x (list ▸ waits)⟩

/-- A write of one bay, which drops what the bay can no longer wait for. -/
theorem KeepsEarned.ofBay {s t : State} {b : BayId} {y : Bay} (bays : t.bays = s.bays.set b y)
    (earns : (s.bay b).earns → y.earns) (waits : ∀ x ∈ t.pendingList,
      x ∈ s.pendingList ∧ (x.bay = b → (s.bay b).eligible = true → y.eligible = true)) : KeepsEarned s t := by
  rintro ⟨earned, listed⟩
  have bay (a : BayId) : t.bay a = if a = b then y else s.bay a := (congrArg (·[a]) bays).trans (get_set _ _ _ _)
  refine ⟨fun a => ?_, fun x mem => ?_⟩
  · rw [bay]
    split
    · exact earns (earned b)
    · exact earned a
  · obtain ⟨before, kept⟩ := waits x mem
    rw [bay]
    split
    · rename_i own
      exact kept own (own ▸ listed x before)
    · exact listed x before

/-! ### One bay -/

/-- What stands on a list from which a bay's increase was dropped where it had to be. -/
theorem mem_dropped {c : Prop} [Decidable c] {b : BayId} {l : List Increase} {x : Increase}
    (mem : x ∈ if c then l.filter fun y => y.bay != b else l) : x ∈ l ∧ (c → x.bay ≠ b) := by
  split at mem
  · obtain ⟨before, other⟩ := List.mem_filter.mp mem
    exact ⟨before, fun _ => by simpa using other⟩
  · rename_i stays
    exact ⟨mem, fun goes => absurd goes stays⟩

/-- A bay without a grant earns it. -/
theorem Bay.earns_of_zero {x : Bay} (h : x.grant = 0) : x.earns := fun above => absurd h above.ne'

/-- An eligible bay earns any grant. -/
theorem Bay.earns_of_eligible {x : Bay} (h : x.eligible = true) : x.earns := by
  simp only [Bay.eligible, Bool.and_eq_true, beq_iff_eq] at h
  obtain ⟨⟨charging, free⟩, normal⟩ := h
  exact fun _ => ⟨charging, free, by simp [normal]⟩

theorem State.modBay_earned (s : State) (b : BayId) (f : Bay → Bay) (earns : (s.bay b).earns → (f (s.bay b)).earns)
    (eligible : (s.bay b).eligible = true → (f (s.bay b)).eligible = true) : KeepsEarned s (s.modBay b f) :=
  .ofBay rfl earns fun _ mem => ⟨mem, fun _ => eligible⟩

/-- A bay changed in fields that neither its eligibility nor its grant hangs on. -/
theorem State.modBay_earned_other (s : State) (b : BayId) (f : Bay → Bay) (stage : (f (s.bay b)).stage = (s.bay b).stage)
    (inhibits : (f (s.bay b)).inhibits = (s.bay b).inhibits) (report : (f (s.bay b)).report = (s.bay b).report)
    (grant : (f (s.bay b)).grant = (s.bay b).grant) : KeepsEarned s (s.modBay b f) := by
  refine s.modBay_earned b f ?_ ?_
  · unfold Bay.earns
    rw [stage, inhibits, report, grant]
    exact id
  · unfold Bay.eligible
    rw [stage, inhibits, report]
    exact id

/-- A change of a bay drops its increase where it ceases to be eligible (R40, R127). -/
theorem State.changeBay_earned (s : State) (b : BayId) (f : Bay → Bay) (earns : (s.bay b).earns → (f (s.bay b)).earns) :
    KeepsEarned s (s.changeBay b f) := by
  rw [State.changeBay_eq]
  refine .ofBay rfl earns fun x mem => ?_
  obtain ⟨before, gone⟩ := mem_dropped mem
  exact ⟨before, fun own was => by_contra fun ceases => gone ⟨was, by simpa using ceases⟩ own⟩

theorem State.lower_earned (s : State) (b : BayId) (v : Nat) : KeepsEarned s (s.lower b v) := by
  unfold State.lower
  split
  · rename_i below
    exact .ofBay rfl (fun earns _ => earns (Nat.zero_lt_of_lt below)) fun _ mem => ⟨mem, fun _ => id⟩
  · exact .refl s

/-- A bay that becomes inhibited loses its grant at the same event (R39). -/
theorem State.addInhibit_earned (s : State) (b : BayId) (r : Inhibit) : KeepsEarned s (s.addInhibit b r) := by
  rw [State.addInhibit_eq]
  refine .ofBay rfl (fun _ => Bay.earns_of_zero rfl) fun x mem => ?_
  obtain ⟨before, gone⟩ := mem_dropped mem
  exact ⟨before, fun own was => absurd own (gone was)⟩

/-- A bay changed in any way and inhibited at the same event holds no grant, and awaits none. -/
theorem State.changeThenInhibit_earned (s : State) (b : BayId) (f : Bay → Bay) (r : Inhibit) :
    KeepsEarned s ((s.changeBay b f).addInhibit b r) := by
  have changed : (s.changeBay b f).bay b = f (s.bay b) := by
    rw [State.changeBay_eq]
    exact (get_set _ _ _ _).trans (if_pos rfl)
  rw [State.addInhibit_eq, changed, State.changeBay_eq]
  refine .ofBay (b := b) (y := (f (s.bay b)).inhibited r s.site.confirmTimeout) (Vector.set_set ..)
    (fun _ => Bay.earns_of_zero rfl) fun x mem => ?_
  obtain ⟨between, gone⟩ := mem_dropped mem
  obtain ⟨before, went⟩ := mem_dropped between
  refine ⟨before, fun own was => absurd own ?_⟩
  cases stays : (f (s.bay b)).eligible
  · exact went ⟨was, stays⟩
  · exact gone stays

theorem State.removeInhibit_earned (s : State) (b : BayId) (r : Inhibit) : KeepsEarned s (s.removeInhibit b r) :=
  s.changeBay_earned b _ fun earns above => by
    obtain ⟨charging, free, report⟩ := earns above
    refine ⟨charging, ?_, report⟩
    simp [free, dropFlag]

theorem State.addFault_earned (s : State) (b : BayId) : KeepsEarned s (s.addFault b) := s.addInhibit_earned b .fault

theorem State.notify_earned (s : State) (k : NoticeKind) (w : Scope) : KeepsEarned s (s.notify k w) := .ofSame rfl rfl

theorem State.requestPass_earned (s : State) : KeepsEarned s s.requestPass := .ofSame rfl rfl

theorem State.requestPlan_earned (s : State) : KeepsEarned s s.requestPlan := .ofSame rfl rfl

/-- A bay that leaves the charging stages: its grant goes to 0 as a reduction, with the effects of R40 (R39). -/
theorem State.enterStage_of_idle (s : State) (b : BayId) {st : Stage} (idle : st.charging = false) :
    s.enterStage b st = { s with
      bays := s.bays.set b (({ s.bay b with stage := st } : Bay).loweredToZero s.site.confirmTimeout)
      passMark := s.passMark || (s.bay b).eligible
      pendingList := if (s.bay b).eligible = true then s.pendingList.filter fun x => x.bay != b else s.pendingList
      ports := (s.enterStage b st).ports } := by
  have ceased : ({ s.bay b with stage := st } : Bay).eligible = false := by simp [Bay.eligible, idle]
  generalize kept : (s.enterStage b st).ports = ports
  unfold State.enterStage at kept ⊢
  simp only [idle] at kept ⊢
  rw [if_neg (by decide), State.lower_zero_eq, State.changeBay_eq, ceased] at kept ⊢
  subst kept
  cases was : (s.bay b).eligible <;> simp [State.bay, State.notify, Vector.set_set]

/-- A bay that leaves the charging stages loses its grant at the same event (R39). -/
theorem State.enterStage_earned (s : State) (b : BayId) (st : Stage) : KeepsEarned s (s.enterStage b st) := by
  cases charging : st.charging
  · rw [s.enterStage_of_idle b charging]
    refine .ofBay rfl (fun _ => Bay.earns_of_zero rfl) fun x mem => ?_
    obtain ⟨before, gone⟩ := mem_dropped mem
    exact ⟨before, fun own was => absurd own (gone was)⟩
  · refine KeepsEarned.trans (t := s.changeBay b fun x => { x with stage := st }) ?_ ?_
    · exact s.changeBay_earned b _ fun earns above => ⟨charging, (earns above).2⟩
    · unfold State.enterStage
      simp only [charging, if_true]
      exact State.notify_earned _ _ _

theorem State.count_earned (s : State) (b : BayId) (k : EventCounter) : KeepsEarned s (s.count b k) := by
  obtain ⟨ports, counted⟩ := s.count_eq b k
  rw [counted]
  exact .ofBay rfl id fun _ mem => ⟨mem, fun _ => id⟩

theorem State.setOverdrawStreak_earned (s : State) (b : BayId) (n : Nat) : KeepsEarned s (s.setOverdrawStreak b n) :=
  s.modBay_earned_other b _ rfl rfl rfl rfl

theorem State.setAllowance_earned (s : State) (b : BayId) (a : Nat) : KeepsEarned s (s.setAllowance b a) :=
  s.modBay_earned_other b _ rfl rfl rfl rfl

/-! ### Grants (R122 to R130) -/

/-- A release raises the grant of an eligible bay (R127, R129). -/
theorem State.releaseOne_earned (s : State) (x : Increase) (waits : x ∈ s.pendingList) : KeepsEarned s (s.releaseOne x) := by
  intro earned
  have eligible := earned.2 x waits
  revert earned
  unfold State.releaseOne
  split
  · exact (s.modBay_earned x.bay _ (fun _ => Bay.earns_of_eligible eligible) id).trans (State.setAllowance_earned _ _ _)
  · exact id

theorem State.releaseAll_earned (l : List Increase) (s : State) (wait : ∀ x ∈ l, x ∈ s.pendingList) :
    KeepsEarned s (l.foldl State.releaseOne s) := by
  induction l generalizing s with
  | nil => exact .refl s
  | cons x l ih =>
    refine (s.releaseOne_earned x (wait x List.mem_cons_self)).trans (ih _ fun y rest => ?_)
    rw [State.releaseOne_pendingList]
    exact wait y (List.mem_cons_of_mem _ rest)

theorem State.emptyList_earned (s : State) : KeepsEarned s { s with pendingList := [] } := fun earned => ⟨earned.1, nofun⟩

theorem State.releaseIfResolved_earned (s : State) : KeepsEarned s s.releaseIfResolved := by
  unfold State.releaseIfResolved
  split
  · exact (State.releaseAll_earned s.pendingList s fun _ => id).trans (State.emptyList_earned _)
  · exact .refl s

theorem State.confirm_earned (s : State) (b : BayId) : KeepsEarned s (s.confirm b) := by
  unfold State.confirm
  split
  · refine (s.setAllowance_earned b (s.bay b).grant).trans ?_
    unfold State.resolve
    split
    · exact (State.modBay_earned_other _ b _ rfl rfl rfl rfl).trans (State.releaseIfResolved_earned _)
    · exact .refl _
  · exact .refl s

theorem State.compareCurrent_earned (s : State) (b : BayId) (c : Nat) : KeepsEarned s (s.compareCurrent b c) := by
  have raised (t : State) : KeepsEarned t (t.raiseAllowance b c) := by
    unfold State.raiseAllowance
    split
    · exact t.setAllowance_earned b _
    · exact .refl t
  unfold State.compareCurrent State.overdrawn
  split
  · exact (s.confirm_earned b).trans (State.setOverdrawStreak_earned _ _ _)
  · split
    · exact s.setOverdrawStreak_earned b _
    · exact ((s.count_earned b _).trans (raised _)).trans (State.setOverdrawStreak_earned _ _ _)

/-- A target is put on the pending list for an eligible bay alone (R122). -/
theorem State.applyTarget_earned (s : State) (t : Target) : KeepsEarned s (s.applyTarget t) := by
  unfold State.applyTarget
  split
  · rename_i eligible
    split
    · refine fun earned => ⟨earned.1, fun x mem => ?_⟩
      rcases List.mem_append.mp mem with before | added
      · exact earned.2 x before
      · rw [List.mem_singleton.mp added]
        exact eligible
    · exact s.lower_earned _ _
  · exact .refl s

theorem State.handOver_earned (s : State) (l : List Target) : KeepsEarned s (s.handOver l) :=
  (s.emptyList_earned.trans (.foldl _ State.applyTarget_earned l _)).trans (State.releaseIfResolved_earned _)

/-! ### The roster (R13, R17, R18, R150, R163) -/

theorem State.putRecord_earned (s : State) (i : SlotId) (r : PackRecord) : KeepsEarned s (s.putRecord i r) := by
  obtain ⟨ports, written⟩ := s.putRecord_eq i r
  rw [written]
  exact .ofSame rfl rfl

theorem State.dropReservation_earned (s : State) (e : EntryId) (i : SlotId) : KeepsEarned s (s.dropReservation e i) := by
  obtain ⟨ports, dropped⟩ := s.dropReservation_eq e i
  rw [dropped]
  exact .ofSame rfl rfl

theorem State.clearReservation_earned (s : State) (i : SlotId) : KeepsEarned s (s.clearReservation i) := by
  unfold State.clearReservation
  split
  · exact s.dropReservation_earned _ i
  · exact .refl s

theorem State.endDraw_earned (s : State) (i : SlotId) (o : EntryStatus) : KeepsEarned s (s.endDraw i o) := by
  unfold State.endDraw
  split
  · rw [State.settleDrawnEntry_eq]
    exact .ofSame rfl rfl
  · exact .ofSame rfl rfl

theorem State.voidDraw_earned (s : State) (i : SlotId) : KeepsEarned s (s.voidDraw i) := by
  unfold State.voidDraw
  split <;> exact s.endDraw_earned i _

theorem State.leaveReady_earned (s : State) (i : SlotId) : KeepsEarned s (s.leaveReady i) := .ofSame rfl rfl

theorem State.withdraw_earned (s : State) (i : SlotId) (l : Lifecycle) : KeepsEarned s (s.withdraw i l) := by
  unfold State.withdraw
  split
  · exact s.clearReservation_earned i
  · exact (s.clearReservation_earned i).trans (State.leaveReady_earned _ i)
  · exact s.voidDraw_earned i
  · exact .refl s

theorem State.quarantineBay_earned (s : State) (o : Option BayId) : KeepsEarned s (s.quarantineBay o) := by
  unfold State.quarantineBay
  split
  · dsimp only
    split
    · exact (s.addInhibit_earned _ _).trans (State.removeInhibit_earned _ _ _)
    · exact s.addInhibit_earned _ _
  · exact .refl s

theorem State.enterQuarantine_earned (s : State) (i : SlotId) (why : Reason) : KeepsEarned s (s.enterQuarantine i why) :=
  ((s.withdraw_earned i _).trans (State.putRecord_earned _ i _)).trans (State.quarantineBay_earned _ _)

theorem State.leaveDamaged_earned (s : State) (i : SlotId) : KeepsEarned s (s.leaveDamaged i) := by
  have unreserved : KeepsEarned s (match s.entryReserving i with
      | some e => s.dropReservation e i
      | none => s) := by
    split
    · exact s.dropReservation_earned _ i
    · exact .refl s
  unfold State.leaveDamaged
  dsimp only
  split
  · exact unreserved.trans (State.voidDraw_earned _ i)
  · exact unreserved.trans (State.leaveReady_earned _ i)
  · exact unreserved

theorem State.rebuild_earned (s : State) (i : SlotId) : KeepsEarned s (s.rebuild i) := by
  have stored (t : State) : KeepsEarned t { (t.storeRecord i (s.damagedRecord i)).markGroup (groupOf i) with
      freeUses := s.freeUses + 1 } := .ofSame rfl rfl
  exact ((((s.leaveDamaged_earned i).trans (stored _)).trans (State.quarantineBay_earned _ _)).trans
    (State.notify_earned _ _ _)).trans (State.requestPlan_earned _)

theorem State.access_earned (s : State) (i : SlotId) : KeepsEarned s (s.access i) := by
  unfold State.access
  split
  · exact .refl s
  · unfold State.countCorrection
    dsimp only
    split <;> exact .ofSame rfl rfl
  · exact s.rebuild_earned i

theorem State.accessAll_earned (s : State) (l : List SlotId) : KeepsEarned s (s.accessAll l) := .foldl _ State.access_earned l s

theorem State.accessDocked_earned (s : State) (b : BayId) : KeepsEarned s (s.accessDocked b) := by
  unfold State.accessDocked
  split
  · exact s.access_earned _
  · exact .refl s

theorem State.unreserve_earned (s : State) (e : EntryId) : KeepsEarned s (s.unreserve e) := by
  unfold State.unreserve
  split
  · rename_i i _
    dsimp only
    split
    · exact (s.access_earned i).trans (State.dropReservation_earned _ e i)
    · exact s.access_earned i
  · exact .refl s

theorem State.relist_earned (s : State) (i : SlotId) : KeepsEarned s (s.relist i) := by
  unfold State.relist
  split
  · exact .refl s
  · rename_i b _
    have listed (r : PackRecord) := (s.putRecord_earned i r).trans
      (State.modBay_earned_other _ b (fun x => { x with slot := some i }) rfl rfl rfl rfl)
    dsimp only
    split
    · exact (listed _).trans (State.removeInhibit_earned _ _ _)
    · exact ((listed _).trans (State.enterStage_earned _ _ _)).trans (State.removeInhibit_earned _ _ _)

/-! ### Bands and heat (R31, R54, R55, R77, R79) -/

theorem State.followFactor_earned (s : State) (b : BayId) : KeepsEarned s (s.followFactor b) := by
  unfold State.followFactor
  split
  · exact s.addInhibit_earned b _
  · split
    · exact s.removeInhibit_earned b _
    · exact .refl s

theorem State.heatLimit_earned (s : State) (b : BayId) : KeepsEarned s (s.heatLimit b) := by
  unfold State.heatLimit
  split
  · exact s.addFault_earned b
  · rename_i i _
    dsimp only
    split
    · exact s.access_earned i
    · exact (s.access_earned i).trans (State.enterQuarantine_earned _ i _)

theorem State.heatEntry_earned (s : State) (b : BayId) : KeepsEarned s (s.heatEntry b) := by
  have counted := (s.count_earned b .overtemp).trans
    (State.modBay_earned_other _ b (fun x => { x with heat := min 3 (x.heat + 1) }) rfl rfl rfl rfl)
  unfold State.heatEntry
  dsimp only
  split
  · exact counted
  · exact counted.trans (State.heatLimit_earned _ b)

theorem State.putBand_earned (s : State) (b : BayId) (k : Fin 6) : KeepsEarned s (s.putBand b k) := s.modBay_earned_other b _ rfl rfl rfl rfl

theorem State.changeBand_earned (s : State) (b : BayId) (k : Fin 6) : KeepsEarned s (s.changeBand b k) := by
  have moved := ((s.putBand_earned b k).trans (State.followFactor_earned _ b)).trans (State.notify_earned _ .bay (.bay b))
  unfold State.changeBand
  dsimp only
  split
  · exact moved.trans (State.heatEntry_earned _ b)
  · exact moved

theorem State.trackBand_earned (s : State) (b : BayId) (t : Int) : KeepsEarned s (s.trackBand b t) := by
  unfold State.trackBand
  dsimp only
  split
  · exact .refl s
  · split
    · exact s.modBay_earned_other b _ rfl rfl rfl rfl
    · split
      · exact s.modBay_earned_other b _ rfl rfl rfl rfl
      · exact s.changeBand_earned b _

theorem State.retakeBand_earned (s : State) (b : BayId) : KeepsEarned s (s.retakeBand b) := by
  unfold State.retakeBand
  extract_lets x t k
  split
  · exact (s.putBand_earned b k).trans (State.followFactor_earned _ b)
  · exact s.changeBand_earned b k

/-! ### Charge and stages (R52, R56 to R61) -/

theorem State.creditCharge_earned (s : State) (b : BayId) (c n : Nat) : KeepsEarned s (s.creditCharge b c n) := by
  unfold State.creditCharge
  split
  · exact .refl s
  · rename_i i _
    exact (s.putRecord_earned i _).trans (State.modBay_earned_other (s.putRecord i _) b _ rfl rfl rfl rfl)

theorem State.makeReady_earned (s : State) (i : SlotId) : KeepsEarned s (s.makeReady i) :=
  (s.putRecord_earned i _).trans (.ofSame rfl rfl)

theorem State.enterDone_earned (s : State) (b : BayId) : KeepsEarned s (s.enterDone b) := by
  have moved := s.enterStage_earned b .done
  unfold State.enterDone
  dsimp only
  split
  · split
    · exact ((moved.trans (State.makeReady_earned _ _)).trans (State.notify_earned _ _ _)).trans (State.requestPlan_earned _)
    · exact moved
  · exact moved

theorem State.enterRest_earned (s : State) (b : BayId) (n : Nat) : KeepsEarned s (s.enterRest b n) := by
  unfold State.enterRest
  split
  · exact s.enterDone_earned b
  · exact (s.enterStage_earned b _).trans (State.modBay_earned_other _ b _ rfl rfl rfl rfl)

theorem State.complete_earned (s : State) (b : BayId) (i : SlotId) : KeepsEarned s (s.complete b i) := by
  unfold State.complete
  dsimp only
  split
  · exact ((s.putRecord_earned i _).trans (State.enterStage_earned _ b _)).trans (State.modBay_earned_other _ b _ rfl rfl rfl rfl)
  · exact (s.putRecord_earned i _).trans (State.enterRest_earned _ b _)

theorem State.moveStage_earned (s : State) (b : BayId) (l : LastReport) (u : Bool) : KeepsEarned s (s.moveStage b l u) := by
  unfold State.moveStage
  split
  · exact .refl s
  · rename_i i _
    split
    · exact .refl s
    · extract_lets pr r absorbed terminated
      have absorbs : KeepsEarned s absorbed := by
        unfold absorbed
        split
        · exact s.enterStage_earned b _
        · exact .refl s
      split
      · refine absorbs.trans (KeepsEarned.trans ?_ (State.complete_earned _ b i))
        split
        · exact State.notify_earned _ _ _
        · exact .refl _
      · exact absorbs

/-! ### Supervision (R66 to R76) -/

/-- A SILENT bay keeps its grant (R66). -/
theorem State.becomeSilent_earned (s : State) (b : BayId) : KeepsEarned s (s.becomeSilent b) :=
  ((s.count_earned b _).trans (State.changeBay_earned _ b _ fun earns above =>
    ⟨(earns above).1, (earns above).2.1, by simp⟩)).trans (State.notify_earned _ _ _)

/-- A bay that becomes LOST loses its grant to FAULT at the same event (R67). -/
theorem State.becomeLost_earned (s : State) (b : BayId) : KeepsEarned s (s.becomeLost b) := by
  have silent : KeepsEarned s (if (s.bay b).report == .normal then s.becomeSilent b else s) := by
    split
    · exact s.becomeSilent_earned b
    · exact .refl s
  exact (silent.trans (State.changeThenInhibit_earned _ b _ .fault)).trans (State.notify_earned _ _ _)

theorem State.returnToNormal_earned (s : State) (b : BayId) : KeepsEarned s (s.returnToNormal b) := by
  unfold State.returnToNormal
  split
  · exact .refl s
  · exact (s.changeBay_earned b _ fun earns above => ⟨(earns above).1, (earns above).2.1, by simp⟩).trans (State.notify_earned _ _ _)

theorem State.declareStall_earned (s : State) (b : BayId) : KeepsEarned s (s.declareStall b) := by
  have declared (f : Bay → Bay) (r : Inhibit) (earns : ∀ x : Bay, x.earns → (f x).earns)
      (eligible : ∀ x : Bay, x.eligible = true → (f x).eligible = true) : KeepsEarned s (s.declaration b f r) :=
    (((s.count_earned b _).trans (State.modBay_earned _ b f (earns _) (eligible _))).trans (State.addInhibit_earned _ b r)).trans
      (State.notify_earned _ _ _)
  rw [State.declareStall_eq]
  split
  · exact declared _ _ (fun _ => id) fun _ => id
  · exact declared _ _ (fun _ => id) fun _ => id

theorem State.judgeStall_earned (s : State) (b : BayId) (c : Nat) : KeepsEarned s (s.judgeStall b c) := by
  unfold State.judgeStall
  split
  · split
    · exact s.modBay_earned_other b _ rfl rfl rfl rfl
    · exact s.declareStall_earned b
  · exact s.modBay_earned_other b _ rfl rfl rfl rfl

theorem State.clearStall_earned (s : State) (b : BayId) : KeepsEarned s (s.clearStall b) :=
  (s.modBay_earned_other b (fun x => { x with stall := .clear, probation := none }) rfl rfl rfl rfl).trans (.ofSame rfl rfl)

theorem State.judgeProbation_earned (s : State) (b : BayId) (c : Nat) : KeepsEarned s (s.judgeProbation b c) := by
  unfold State.judgeProbation
  dsimp only
  split
  · split
    · exact s.modBay_earned_other b _ rfl rfl rfl rfl
    · split
      · exact s.modBay_earned_other b _ rfl rfl rfl rfl
      · exact s.clearStall_earned b
  · exact .refl s

theorem State.supervise_earned (s : State) (b : BayId) (l : LastReport) : KeepsEarned s (s.supervise b l) := by
  have faulted : KeepsEarned s (if l.chargerFault then s.addFault b else s) := by
    split
    · exact s.addFault_earned b
    · exact .refl s
  exact (faulted.trans (State.judgeProbation_earned _ b _)).trans (State.judgeStall_earned _ b _)

theorem State.takeReport_earned (s : State) (b : BayId) (l : LastReport) (c : Bool) : KeepsEarned s (s.takeReport b l c) := by
  have recorded : KeepsEarned s (s.recordReport b l c) := by
    unfold State.recordReport
    dsimp only
    split
    · exact (s.modBay_earned_other b _ rfl rfl rfl rfl).trans (State.notify_earned _ _ _)
    · exact s.modBay_earned_other b _ rfl rfl rfl rfl
  exact (((((recorded.trans (State.returnToNormal_earned _ b)).trans (State.compareCurrent_earned _ b _)).trans
    (State.creditCharge_earned _ b _ _)).trans (State.trackBand_earned _ b _)).trans (State.moveStage_earned _ b l _)).trans
    (State.supervise_earned _ b l)

/-! ### All bays (R91, R95, R96) -/

theorem State.holdBay_earned (s : State) (b : BayId) : KeepsEarned s (s.holdBay b) := by
  unfold State.holdBay
  split
  · exact .refl s
  · exact s.addInhibit_earned b _

theorem State.clearInhibit_earned (s : State) (r : Inhibit) : KeepsEarned s (s.clearInhibit r) := by
  refine .foldl _ (fun t b => ?_) allBays s
  split
  · exact t.removeInhibit_earned b r
  · exact .refl t

theorem State.rezone_earned (s : State) : KeepsEarned s s.rezone := by
  have rezoned (t : State) (b : BayId) : KeepsEarned t (t.rezoneBay b) := by
    unfold State.rezoneBay
    split
    · exact .refl t
    · split
      · split
        · exact t.removeInhibit_earned b _
        · exact .refl t
      · split
        · exact .refl t
        · exact t.addInhibit_earned b _
  exact ((KeepsEarned.foldl _ rezoned allBays s).trans (State.notify_earned _ _ _)).trans (State.requestPass_earned _)

/-! ### The two tables (R28, R33, R34, R138 to R140) -/

theorem State.takeProfile_earned (s : State) (k : ProfileId) (bytes : Vector Byte 32) : KeepsEarned s (s.takeProfile k bytes) := by
  have record (t : State) (i : SlotId) : KeepsEarned t (State.retakeRecord k t i) := by
    unfold State.retakeRecord
    split
    · dsimp only
      split
      · exact (t.access_earned i).trans (State.putRecord_earned _ i _)
      · exact t.access_earned i
    · exact .refl t
  have bulk (t : State) (b : BayId) : KeepsEarned t (t.reevaluateBulk b) := by
    rw [State.reevaluateBulk_eq]
    split
    · exact t.enterStage_earned b _
    · exact .refl t
  have retaken (t : State) (b : BayId) : KeepsEarned t (State.retakeBay k t b) := by
    unfold State.retakeBay
    split
    · dsimp only
      split
      · exact ((t.removeInhibit_earned b _).trans (State.retakeBand_earned _ b)).trans (bulk _ b)
      · exact (t.retakeBand_earned b).trans (bulk _ b)
    · exact .refl t
  have barred (t : State) (b : BayId) : KeepsEarned t (State.barBay k t b) := by
    unfold State.barBay
    split
    · exact t.addInhibit_earned b _
    · exact .refl t
  have stored : KeepsEarned s (s.setProfile k (takenProfile bytes)) := .ofSame rfl rfl
  have records : KeepsEarned s (s.recordsTaken k bytes) := by
    unfold State.recordsTaken
    split
    · exact stored.trans (.foldl _ record allSlots _)
    · split
      · exact stored.trans (State.notify_earned _ _ _)
      · exact stored
  have bays (valid : Bool) (t : State) (b : BayId) : KeepsEarned t (State.takeBay valid k t b) := by
    unfold State.takeBay
    split
    · exact retaken t b
    · exact barred t b
  rw [State.takeProfile_eq]
  exact (records.trans (.foldl _ (bays _) allBays _)).trans (.ofSame rfl rfl)

theorem State.takeEntry_earned (s : State) (e : EntryId) (bytes : Vector Byte 8) : KeepsEarned s (s.takeEntry e bytes) := by
  unfold State.takeEntry
  extract_lets requested written valid stored
  have taken : KeepsEarned s stored :=
    KeepsEarned.trans (t := s.unreserve e) (s.unreserve_earned e) (.ofSame rfl rfl)
  refine taken.trans (KeepsEarned.trans ?_ (State.requestPlan_earned _))
  split
  · exact State.notify_earned _ _ _
  · exact .refl _

theorem State.addDeparture_earned (s : State) (e : EntryId) (x : Entry) : KeepsEarned s (s.addDeparture e x) :=
  (s.unreserve_earned e).trans (.ofSame rfl rfl)

theorem State.cancelDeparture_earned (s : State) (e : EntryId) : KeepsEarned s (s.cancelDeparture e) :=
  (s.unreserve_earned e).trans (.ofSame rfl rfl)

/-! ### Planning (R143 to R149) -/

theorem State.planEntries_earned (l : List EntryId) (acc : State × List Choice) :
    KeepsEarned acc.1 (l.foldl State.planEntry acc).1 := by
  have planned (acc : State × List Choice) (e : EntryId) : KeepsEarned acc.1 (State.planEntry acc e).1 := by
    obtain ⟨s, chosen⟩ := acc
    unfold State.planEntry
    dsimp only
    split <;> split <;> exact .ofSame rfl rfl
  induction l generalizing acc with
  | nil => exact .refl _
  | cons e l ih => exact (planned acc e).trans (ih _)

theorem State.writeReservations_earned (s : State) (chosen : List Choice) : KeepsEarned s (s.writeReservations chosen) := by
  have reserved (t : State) (i : SlotId) : KeepsEarned t (State.reserveSlot chosen t i) := by
    unfold State.reserveSlot
    split
    · exact .refl t
    · dsimp only
      split <;> exact (t.access_earned i).trans (State.putRecord_earned _ i _)
  have entered (t : State) (f : Vector Entry 48) : KeepsEarned t { t with entries := f } := .ofSame rfl rfl
  have recorded := KeepsEarned.foldl _ reserved allSlots s
  unfold State.writeReservations
  dsimp only
  split
  · exact recorded.trans (entered _ _)
  · exact (recorded.trans (entered _ _)).trans (State.requestPass_earned _)

theorem State.plan_earned (s : State) : KeepsEarned s s.plan := by
  have settled : KeepsEarned s ({ s with planMark := false } : State).settle := by
    unfold State.settle
    dsimp only
    split <;> exact .ofSame rfl rfl
  unfold State.plan
  dsimp only
  exact (settled.trans (State.planEntries_earned _ (_, []))).trans (State.writeReservations_earned _ _)

/-! ### Draws and the roster commands (R14 to R16, R159 to R164) -/

theorem State.choosePack_earned (s : State) (w : SweeperId) (k : ProfileId) (e : Option EntryId) :
    KeepsEarned s (s.choosePack w k e).1 := by
  have reserved : KeepsEarned s (s.choiceReserved e).1 := by
    unfold State.choiceReserved
    split
    · exact .refl s
    · split
      · exact .refl s
      · dsimp only
        split <;> exact s.access_earned _
  have fullest (t : State) : KeepsEarned t (t.choicePartial w k).1 := by
    unfold State.choicePartial
    dsimp only
    split
    · split <;> exact t.accessAll_earned _
    · exact t.accessAll_earned _
  have ready (t : State) : KeepsEarned t (t.choiceReady w k).1 := t.accessAll_earned _
  unfold State.choosePack
  split
  · rename_i t i first
    rw [first] at reserved
    exact reserved
  · rename_i t first
    rw [first] at reserved
    refine reserved.trans ?_
    have second := ready t
    split
    · rename_i u i chosen
      rw [chosen] at second
      exact second
    · rename_i u chosen
      rw [chosen] at second
      exact second.trans (fullest u)

theorem State.serveDraw_earned (s : State) (w : SweeperId) (i : SlotId) (e : Option EntryId) :
    KeepsEarned s (s.serveDraw w i e) := by
  have called := ((s.clearReservation_earned i).trans (State.leaveReady_earned _ i)).trans
    (State.putRecord_earned ((s.clearReservation i).leaveReady i) i
      { ((s.clearReservation i).leaveReady i).record i with
        lifecycle := .called, sweeper := some w, reservation := none, readySince := none })
  have recalled (t : State) (b : BayId) : KeepsEarned t (t.recallBay w i b) :=
    (t.addInhibit_earned b .called).trans (.ofSame rfl rfl)
  have entered (t : State) (e : EntryId) : KeepsEarned t (t.callEntry e) := (t.unreserve_earned e).trans (.ofSame rfl rfl)
  have drawn (t : State) : KeepsEarned t (t.setDraw w (some ⟨i, e⟩)) := .ofSame rfl rfl
  unfold State.serveDraw
  dsimp only
  split <;> split
  · exact ((called.trans (recalled _ _)).trans (drawn _)).trans (entered _ _)
  · exact (called.trans (drawn _)).trans (entered _ _)
  · exact (called.trans (recalled _ _)).trans (drawn _)
  · exact called.trans (drawn _)

theorem State.drawPack_earned (s : State) (w : SweeperId) (k : ProfileId) : KeepsEarned s (s.drawPack w k).state := by
  unfold State.drawPack
  dsimp only
  split
  · exact (s.choosePack_earned w k _).trans (State.serveDraw_earned _ w _ _)
  · exact s.choosePack_earned w k _

theorem State.accessDrawn_earned (s : State) (w : SweeperId) : KeepsEarned s (s.accessDrawn w) := by
  unfold State.accessDrawn
  split
  · exact s.access_earned _
  · exact .refl s

theorem State.cancelDrawOf_earned (s : State) (i : SlotId) : KeepsEarned s (s.cancelDrawOf i) := by
  have uncalled (b : BayId) : KeepsEarned s (s.uncall i b) := by
    unfold State.uncall
    dsimp only
    split
    · exact ((s.putRecord_earned i _).trans (State.makeReady_earned _ i)).trans (State.notify_earned _ _ _)
    · exact s.putRecord_earned i _
  unfold State.cancelDrawOf
  dsimp only
  refine KeepsEarned.trans (KeepsEarned.trans ?_ (State.voidDraw_earned _ i)) (State.requestPlan_earned _)
  split
  · exact (uncalled _).trans (State.removeInhibit_earned _ _ _)
  · exact .refl s

theorem State.releaseQuarantine_earned (s : State) (i : SlotId) : KeepsEarned s (s.releaseQuarantine i) := by
  have released : KeepsEarned s (s.releaseRecord i) := by
    unfold State.releaseRecord
    split
    · dsimp only
      split
      · exact (s.putRecord_earned i _).trans (State.makeReady_earned _ i)
      · exact s.putRecord_earned i _
    · exact s.putRecord_earned i _
  unfold State.releaseQuarantine
  dsimp only
  refine KeepsEarned.trans (KeepsEarned.trans ?_ (State.notify_earned _ _ _)) (State.requestPlan_earned _)
  split
  · exact released.trans (State.removeInhibit_earned _ _ _)
  · exact released

/-- An UNLISTED bay stands in BULK (R16, R46). -/
theorem State.unlistBay_earned (s : State) (b : BayId) : KeepsEarned s (s.unlistBay b) := by
  refine KeepsEarned.trans (KeepsEarned.trans (s.modBay_earned b _ (fun earns above => ⟨rfl, (earns above).2⟩) fun eligible => ?_)
    (State.addInhibit_earned _ b _)) (State.removeInhibit_earned _ b _)
  simp only [Bay.eligible, Bool.and_eq_true] at eligible ⊢
  exact ⟨⟨rfl, eligible.1.2⟩, eligible.2⟩

theorem State.forgetRecord_earned (s : State) (i : SlotId) : KeepsEarned s (s.forgetRecord i) := by
  unfold State.forgetRecord
  dsimp only
  refine KeepsEarned.trans (KeepsEarned.trans ?_ (State.putRecord_earned _ i _)) (State.relist_earned _ i)
  split
  · exact s.unlistBay_earned _
  · exact .refl s

/-! ### Docking and undocking (R43 to R49) -/

theorem State.dockRoster_earned (s : State) (b : BayId) (d : Docking) : KeepsEarned s (s.dockRoster b d) := by
  have noticed : KeepsEarned s (if s.rosterFull d then s.countSeen.notify .roster .part else s.countSeen) := by
    split <;> exact .ofSame rfl rfl
  unfold State.dockRoster
  dsimp only
  split
  · exact noticed.trans (State.putRecord_earned _ _ _)
  · exact noticed

theorem State.dockRoster_bay (s : State) (b a : BayId) (d : Docking) : (s.dockRoster b d).bay a = s.bay a := by
  have noticed (c : Bool) : (if c then s.countSeen.notify .roster .part else s.countSeen).bay a = s.bay a := by
    split <;> rfl
  unfold State.dockRoster
  dsimp only
  split
  · rename_i i _
    obtain ⟨ports, written⟩ := (if s.rosterFull d then s.countSeen.notify .roster .part else s.countSeen).putRecord_eq i
      { s.dockRecord b d i with seen := s.countSeen.seenCounter }
    rw [written]
    exact noticed _
  · exact noticed _

/-- A dock leaves the grants of an EMPTY bay at 0 (R38, R45). -/
theorem State.dockBay_earned {s : State} {b : BayId} (empty : (s.bay b).stage = .empty) (d : Docking) (o : Option SlotId) :
    KeepsEarned s (s.dockBay b d o) := by
  have idle : (s.bay b).stage.charging = false := by rw [empty]; rfl
  have seated : KeepsEarned s (s.dockSeat b d o) := by
    refine .ofBay rfl (fun earns above => absurd (earns above).1 (by simp [idle])) fun _ mem => ⟨mem, fun _ was => ?_⟩
    simp [Bay.eligible, idle] at was
  rw [State.dockBay_eq_seat]
  refine KeepsEarned.trans ?_ (.ofSame rfl rfl)
  split
  · exact seated.trans (State.heatEntry_earned _ b)
  · exact seated

/-- Accesses to records leave every bay's stage. -/
theorem State.accessAll_stage (l : List SlotId) (s : State) (b : BayId) : ((s.accessAll l).bay b).stage = (s.bay b).stage := by
  induction l generalizing s with
  | nil => rfl
  | cons i l ih => exact (ih (s.access i)).trans (s.access_steady i b).stage

theorem State.undockRecord_earned (s : State) (i : SlotId) : KeepsEarned s (s.undockRecord i) := by
  have unaccounted (w : Option SweeperId) (t : State) (j : SlotId) : KeepsEarned t (State.unaccount w t j) := by
    unfold State.unaccount
    split
    · dsimp only
      split
      · exact ((t.access_earned j).trans (State.putRecord_earned _ j _)).trans (State.notify_earned _ _ _)
      · exact t.access_earned j
    · exact .refl t
  have issued : KeepsEarned s (s.issue i) :=
    ((KeepsEarned.foldl _ (unaccounted _) _ s).trans (State.endDraw_earned _ i _)).trans (State.putRecord_earned _ i _)
  have freed := (s.clearReservation_earned i).trans (State.leaveReady_earned _ i)
  unfold State.undockRecord
  split
  · exact issued
  · exact freed.trans (State.putRecord_earned _ i _)
  · exact freed.trans (State.putRecord_earned _ i _)
  · exact s.putRecord_earned i _

/-- An emptied bay holds no grant and awaits none (R49). -/
theorem State.undockBay_earned (s : State) (b : BayId) : KeepsEarned s (s.undockBay b) := by
  have emptied : KeepsEarned s (((s.lower b 0).modBay b Bay.emptied).dropIncrease b) := by
    rw [State.lower_zero_eq]
    refine .ofBay (b := b) (Vector.set_set ..) (fun _ => Bay.earns_of_zero ?_) fun x mem => ?_
    · exact congrArg Bay.grant ((get_set s.bays b b _).trans (if_pos rfl))
    · obtain ⟨before, other⟩ := List.mem_filter.mp mem
      exact ⟨before, fun own => absurd own (by simpa using other)⟩
  exact emptied.trans (.ofSame rfl rfl)

theorem State.undock_earned (s : State) (b : BayId) : KeepsEarned s (s.undock b) := by
  have seen : KeepsEarned s s.countSeen := .ofSame rfl rfl
  unfold State.undock
  dsimp only
  split
  · exact (seen.trans (State.undockRecord_earned _ _)).trans (State.undockBay_earned _ b)
  · exact seen.trans (State.undockBay_earned _ b)

/-! ### Timers (R59, R75, R81, R126) -/

theorem State.endStallHold_earned (s : State) (b : BayId) : KeepsEarned s (s.endStallHold b) :=
  ((s.modBay_earned_other b _ rfl rfl rfl rfl).trans (State.removeInhibit_earned _ b _)).trans (State.notify_earned _ _ _)

theorem State.endEqualise_earned (s : State) (b : BayId) : KeepsEarned s (s.endEqualise b) := by
  have cleared (t : State) : KeepsEarned t (t.clearSinceEqualise b) := by
    unfold State.clearSinceEqualise
    split
    · exact t.putRecord_earned _ _
    · exact .refl t
  exact (((s.accessDocked_earned b).trans (cleared _)).trans (State.modBay_earned_other _ b _ rfl rfl rfl rfl)).trans
    (State.enterRest_earned _ b _)

theorem State.endRest_earned (s : State) (b : BayId) : KeepsEarned s (s.endRest b) :=
  ((s.accessDocked_earned b).trans (State.modBay_earned_other _ b _ rfl rfl rfl rfl)).trans (State.enterDone_earned _ b)

theorem State.timeOut_earned (s : State) (b : BayId) : KeepsEarned s (s.timeOut b) := by
  have cleared := (s.count_earned b .confirmTimeout).trans
    (State.modBay_earned_other _ b (fun x => { x with reduction := false, confirmTimer := none }) rfl rfl rfl rfl)
  have faulted (t : State) : KeepsEarned t (t.faultUnconfirmed b) := by
    refine KeepsEarned.trans (t.changeBay_earned b
      (fun x => { x with inhibits := addFlag x.inhibits Inhibit.fault.bit, grant := 0 }) fun _ => Bay.earns_of_zero rfl)
      (KeepsEarned.trans ?_ (State.notify_earned _ _ _))
    split
    · exact State.notify_earned _ _ _
    · exact .refl _
  unfold State.timeOut
  dsimp only
  refine KeepsEarned.trans ?_ (State.releaseIfResolved_earned _)
  split
  · exact cleared
  · exact cleared.trans (faulted _)

/-- Every bay changed in fields that neither its eligibility nor its grant hangs on. -/
theorem KeepsEarned.ofBays {s t : State} (bays : ∀ b, ∃ x : Bay, t.bay b = x ∧ x.stage = (s.bay b).stage ∧
    x.inhibits = (s.bay b).inhibits ∧ x.report = (s.bay b).report ∧ x.grant = (s.bay b).grant)
    (list : t.pendingList = s.pendingList) : KeepsEarned s t := by
  rintro ⟨earned, listed⟩
  refine ⟨fun b => ?_, fun x waits => ?_⟩
  · obtain ⟨x, bay, stage, inhibits, report, grant⟩ := bays b
    have before := earned b
    unfold Bay.earns at before ⊢
    rw [bay, stage, inhibits, report, grant]
    exact before
  · obtain ⟨y, bay, stage, inhibits, report, -⟩ := bays x.bay
    have before := listed x (list ▸ waits)
    unfold Bay.eligible at before ⊢
    rw [bay, stage, inhibits, report]
    exact before

theorem State.latch_earned (s : State) : KeepsEarned s s.latch :=
  .ofBays (fun _ => ⟨_, get_updateAll _ _ _, rfl, rfl, rfl, rfl⟩) rfl

theorem State.tick_earned (s : State) : KeepsEarned s s.tick :=
  .ofBays (fun b => ⟨_, s.tick_bay b, rfl, rfl, rfl, rfl⟩) (by rw [State.tick_frame])

theorem State.changeMinute_earned (s : State) (m : Nat) : KeepsEarned s (s.changeMinute m) := by
  have cleared : KeepsEarned s { s with minuteDue := none } := .ofSame rfl rfl
  unfold State.changeMinute
  dsimp only
  split
  · exact (cleared.trans (State.latch_earned _)).trans (State.plan_earned _)
  · exact cleared.trans (State.plan_earned _)

/-! ### Grants within allowances, counters within ranges (R38, R80, R121) -/

/-- A move of a bay keeps its grant within its allowance, and its confirm timer with its reduction (R119, R121). -/
theorem BayMoves.held {x y : Bay} (h : BayMoves x y) :
    x.grant ≤ x.allowance ∧ x.confirmTimer.isSome = x.reduction → y.grant ≤ y.allowance ∧ y.confirmTimer.isSome = y.reduction := by
  induction h with
  | other grant allowance _ mark timer => rw [grant, allowance, mark, timer]; exact id
  | lowered x v t below =>
    rintro ⟨within, timer⟩
    refine ⟨below.le.trans within, ?_⟩
    cases mark : x.reduction <;> simp [Bay.reduced, mark, timer]
  | allowed x a p above => exact fun ⟨within, timer⟩ => ⟨above.elim id within.trans, timer⟩
  | resolved x => exact fun ⟨within, _⟩ => ⟨within, rfl⟩
  | zeroed x => exact fun ⟨_, timer⟩ => ⟨Nat.zero_le _, timer⟩
  | released x v p => exact fun ⟨_, timer⟩ => ⟨le_max_left _ _, timer⟩
  | counted x k => exact id
  | trans _ _ first second => exact second ∘ first

/-- One more event leaves a counter in its range, saturated exactly at the end of it (R80). -/
theorem CounterCell.counted_whole {c : CounterCell} (h : c.whole) : c.counted.whole := by
  obtain ⟨range, saturated⟩ := h
  unfold CounterCell.counted
  split
  · rename_i below
    refine ⟨below, ?_⟩
    have unmarked : c.saturated = false := Bool.eq_false_iff.mpr fun mark => below.ne (saturated.mp mark)
    simp [unmarked]
  · exact ⟨range, saturated⟩

/-- Every counter and image of a bay is whole (R80, R81). -/
def Bay.tallied (x : Bay) : Prop := ∀ k : Fin 5, (x.counters[k]).whole ∧ (x.images[k]).whole

theorem BayMoves.tallied {x y : Bay} (h : BayMoves x y) : x.tallied → y.tallied := by
  induction h with
  | other _ _ _ _ _ counters images => unfold Bay.tallied; rw [counters, images]; exact id
  | counted x k =>
    intro before j
    refine ⟨?_, (before j).2⟩
    change (x.counters.set k.place (x.counters[k.place]).counted)[j].whole
    rw [get_set]
    split
    · exact CounterCell.counted_whole (before _).1
    · exact (before j).1
  | trans _ _ first second => exact second ∘ first
  | _ => exact id

/-- What a command keeps: grants covered and earned, counters whole. -/
structure Sustains (s t : State) : Prop where
  covered : s.grantsCovered → t.grantsCovered
  whole : s.countersWhole → t.countersWhole
  earned : KeepsEarned s t

theorem Sustains.refl (s : State) : Sustains s s := ⟨id, id, id⟩

theorem Sustains.trans {s t u : State} (h : Sustains s t) (g : Sustains t u) : Sustains s u :=
  ⟨g.covered ∘ h.covered, g.whole ∘ h.whole, g.earned ∘ h.earned⟩

/-- What evolves the part covers grants and counters. -/
theorem Evolves.sustains {s t : State} (h : Evolves s t) (earned : KeepsEarned s t) : Sustains s t := by
  refine ⟨fun ⟨covered, listed⟩ => ?_, fun ⟨tallied, corrected⟩ => ⟨fun b => (h.bays b).tallied (tallied b), h.corrected corrected⟩,
    earned⟩
  obtain ⟨fives, list⟩ := h.fives ⟨fun b => (covered b).2.1, listed⟩
  refine ⟨fun b => ?_, list⟩
  obtain ⟨within, -, timer⟩ := covered b
  obtain ⟨within, timer⟩ := (h.bays b).held ⟨within, timer⟩
  exact ⟨within, fives b, timer⟩

/-- A write of neither the bays, nor the pending list, nor the corrected-error counter. -/
theorem Sustains.ofSame {s t : State} (bays : t.bays = s.bays) (list : t.pendingList = s.pendingList)
    (corrected : t.corrected = s.corrected) : Sustains s t := by
  have bay (b : BayId) : t.bay b = s.bay b := congrArg (·[b]) bays
  refine ⟨fun covered => ⟨fun b => bay b ▸ covered.1 b, list ▸ covered.2⟩, fun whole => ⟨fun b => ?_, corrected ▸ whole.2⟩,
    .ofSame bays list⟩
  rw [bay]
  exact whole.1 b

/-- A state whose bays are as after power-on, without pending increases. -/
theorem Sustains.ofReset {s t : State} {straps : Straps} {queue : List Instr} (bays : t.bays = (State.poweredOn straps queue).bays)
    (list : t.pendingList = []) (corrected : t.corrected = 0) : Sustains s t := by
  have same : Sustains (State.poweredOn straps queue) t := .ofSame bays list corrected
  exact ⟨fun _ => same.covered (State.poweredOn_grantsCovered _ _), fun _ => same.whole (State.poweredOn_countersWhole _ _),
    fun _ => same.earned (State.poweredOn_grantsEarned _ _)⟩

/-! ### Writes of a command's own -/

theorem State.setPort_sustains (s : State) (p : PortId) (x : Port) : Sustains s (s.setPort p x) := .ofSame rfl rfl rfl

theorem State.notify_sustains (s : State) (k : NoticeKind) (w : Scope) : Sustains s (s.notify k w) := .ofSame rfl rfl rfl

theorem State.resupply_sustains (s : State) (f : Supply → Supply) : Sustains s (s.resupply f) := by
  rw [State.resupply, State.checkBudget_eq]
  exact .ofSame rfl rfl rfl

theorem State.startRamp_sustains (s : State) : Sustains s s.startRamp := by
  rw [State.startRamp_eq]
  exact .ofSame rfl rfl rfl

theorem State.endRamp_sustains (s : State) : Sustains s s.endRamp :=
  (s.resupply_sustains _).trans (State.notify_sustains _ _ _)

theorem State.takeReading_sustains (s : State) (r : Nat) : Sustains s (s.takeReading r) := by
  have noticed : Sustains s (if s.supply.condition == .fresh then s else s.notify .supply .part) := by
    split
    · exact .refl s
    · exact s.notify_sustains _ _
  have peaks (t : State) : Sustains t (t.raisePeaks r) := .ofSame rfl rfl rfl
  unfold State.takeReading
  exact (noticed.trans (peaks _)).trans (State.resupply_sustains _ _)

theorem State.windDown_sustains (s : State) : Sustains s s.windDown :=
  (((Evolves.foldl _ State.holdBay_evolves allBays s).sustains (.foldl _ State.holdBay_earned allBays s)).trans
    (State.resupply_sustains _ _)).trans (State.notify_sustains _ _ _)

theorem State.rezone_sustains (s : State) : Sustains s s.rezone := s.rezone_evolves.sustains s.rezone_earned

theorem State.clearInhibit_sustains (s : State) (r : Inhibit) : Sustains s (s.clearInhibit r) :=
  (s.clearInhibit_evolves r).sustains (s.clearInhibit_earned r)

theorem State.setZone_sustains (s : State) (first last : BayId) : Sustains s (s.setZone first last) := by
  have placed : Sustains s (s.setSupply { s.supply with zoneFirst := first, zoneLast := last }) := .ofSame rfl rfl rfl
  unfold State.setZone
  dsimp only
  split
  · exact placed.trans (State.rezone_sustains _)
  · exact placed

theorem State.switchZoneOn_sustains (s : State) : Sustains s s.switchZoneOn :=
  Sustains.trans (t := s.setSupply { s.supply with zoneOn := true }) (.ofSame rfl rfl rfl) (State.rezone_sustains _)

theorem State.switchZoneOff_sustains (s : State) : Sustains s s.switchZoneOff := by
  have off : Sustains s (s.setSupply { s.supply with zoneOn := false }) := .ofSame rfl rfl rfl
  refine (off.trans (State.clearInhibit_sustains _ .restricted)).trans ?_
  exact .ofSame rfl rfl rfl

theorem State.setSite_sustains (s : State) (x : Site) : Sustains s (s.setSite x) := by
  have site : Sustains s { s with site := x } := .ofSame rfl rfl rfl
  have retime (t : State) (old : Site) : Sustains t (t.retime old) := by
    unfold State.retime
    split <;> exact .ofSame rfl rfl rfl
  have reramp (t : State) (old : Site) : Sustains t (t.reramp old) := by
    unfold State.reramp
    split
    · exact .refl t
    · split
      · exact t.endRamp_sustains
      · rw [State.checkBudget_eq]
        exact .ofSame rfl rfl rfl
  have replan (t : State) (old : Site) : Sustains t (t.replan old) := by
    unfold State.replan
    split <;> exact .ofSame rfl rfl rfl
  exact ((site.trans (retime _ _)).trans (reramp _ _)).trans (replan _ _)

theorem State.takeProfile_sustains (s : State) (k : ProfileId) (bytes : Vector Byte 32) : Sustains s (s.takeProfile k bytes) := by
  obtain ⟨v, -, evolves⟩ := s.takeProfile_evolves k bytes
  have stored : Sustains s (s.setProfile k { profileOfBytes bytes with valid := v }) := .ofSame rfl rfl rfl
  have taken := s.takeProfile_earned k bytes
  exact stored.trans (evolves.sustains taken)

theorem State.allocate_sustains (s : State) : Sustains s s.allocate := by
  have read : Sustains s { s with supply := { s.supply with passFigure := s.budget }, passMark := false } := .ofSame rfl rfl rfl
  exact read.trans (s.allocate_evolves.sustains (State.handOver_earned _ _))

/-- A bay latched keeps its grant side, and its counters start again (R81). -/
theorem State.latch_sustains (s : State) : Sustains s s.latch := by
  have bay (b : BayId) : s.latch.bay b = (s.bay b).latched := get_updateAll _ _ _
  refine ⟨fun covered => ⟨fun b => ?_, covered.2⟩, fun whole => ⟨fun b k => ?_, whole.2⟩, s.latch_earned⟩
  · rw [bay]
    exact covered.1 b
  · rw [bay]
    refine ⟨?_, (whole.1 b k).1⟩
    change ((Vector.replicate 5 ⟨0, false⟩ : Vector CounterCell 5)[k]).whole
    rw [get_replicate]
    exact CounterCell.whole_zero

/-- A second counts a confirm timer down, and does not end it (R119). -/
theorem State.tick_sustains (s : State) : Sustains s s.tick := by
  have list : s.tick.pendingList = s.pendingList := by rw [State.tick_frame]
  have corrected : s.tick.corrected = s.corrected := by rw [State.tick_frame]
  refine ⟨fun covered => ⟨fun b => ?_, list ▸ covered.2⟩, fun whole => ⟨fun b k => ?_, corrected ▸ whole.2⟩, s.tick_earned⟩
  · rw [State.tick_bay]
    obtain ⟨within, five, timer⟩ := covered.1 b
    exact ⟨within, five, (Option.isSome_map ..).trans timer⟩
  · rw [State.tick_bay]
    exact whole.1 b k

theorem State.changeMinute_sustains (s : State) (m : Nat) : Sustains s (s.changeMinute m) := by
  have cleared : Sustains s { s with minuteDue := none } := .ofSame rfl rfl rfl
  have planned (t : State) : Sustains t t.plan := t.plan_evolves.sustains t.plan_earned
  unfold State.changeMinute
  dsimp only
  split
  · exact (cleared.trans (State.latch_sustains _)).trans (planned _)
  · exact cleared.trans (planned _)

/-! ### Resets and the scan -/

theorem State.demoteAll_sustains (s : State) : Sustains s (allSlots.foldl State.demoteRecord s) := by
  have demoted (t : State) (i : SlotId) : KeepsEarned t (t.demoteRecord i) := by
    unfold State.demoteRecord
    split
    · exact .refl t
    · exact (t.access_earned i).trans (.ofSame rfl rfl)
  exact (Evolves.foldl _ State.demoteRecord_evolves allSlots s).sustains (.foldl _ demoted allSlots s)

/-- A soft reset empties every bay once its grant is lowered to 0 (R63). -/
theorem State.softResetBlocks_sustains (s : State) : Sustains s s.softResetBlocks := by
  have demoted := s.demoteAll_sustains
  unfold State.softResetBlocks
  extract_lets d lowered
  have low : Sustains d lowered := (Evolves.foldl (fun t b => t.lower b 0) (fun t b => t.lower_evolves b 0 rfl) allBays d).sustains
    (.foldl _ (fun t b => t.lower_earned b 0) allBays d)
  have zero (b : BayId) : (lowered.bay b).grant = 0 := by
    have bays : lowered.bays = allBays.foldl (applyAt fun x => x.loweredToZero d.site.confirmTimeout) d.bays := by
      unfold lowered
      rw [State.lowerAll_eq]
    rw [State.bay, bays, get_foldl_applyAt _ fun x => x.loweredToZero_again _, if_pos (mem_allBays b)]
    rfl
  clear_value lowered
  refine (demoted.trans low).trans ⟨fun covered => ⟨fun b => ?_, nofun⟩, fun whole => ⟨fun b k => ?_, whole.2⟩,
    fun _ => ⟨fun b => Bay.earns_of_zero ?_, nofun⟩⟩
  all_goals simp only [State.bay, get_updateAll]
  · exact covered.1 b
  · exact whole.1 b k
  · exact zero b

theorem State.softReset_sustains (s : State) : Sustains s s.softReset := by
  have blocks := s.softResetBlocks_sustains
  unfold State.softReset
  generalize s.softResetBlocks = t at blocks
  exact (blocks.trans t.startRamp_sustains).trans (.ofSame rfl rfl rfl)

theorem State.scanAfterReset_sustains (s : State) : Sustains s s.scanAfterReset := by
  have tables : Sustains s s.scanTables := .ofSame rfl rfl rfl
  have checked (t : State) : Sustains t (t.accessAll allSlots) := (t.accessAll_evolves allSlots).sustains (t.accessAll_earned allSlots)
  have scanned (t : State) (i : SlotId) : KeepsEarned t (t.scanRecord i) := by
    unfold State.scanRecord
    split
    · exact .refl t
    · dsimp only
      split
      · exact (t.rebuild_earned i).trans (State.putRecord_earned _ i _)
      · exact t.putRecord_earned i _
  have restored (l : List SlotId) (t : State) : Sustains t (l.foldl State.scanRecord t) :=
    (Evolves.foldl _ State.scanRecord_evolves l t).sustains (.foldl _ scanned l t)
  have counted (t : State) (n : Nat) : Sustains t { t with seenCounter := n } := .ofSame rfl rfl rfl
  have whole := (tables.trans (checked _)).trans (restored allSlots _)
  unfold State.scanAfterReset
  dsimp only
  split
  · exact (whole.trans (counted _ _)).trans (State.notify_sustains _ _ _)
  · exact whole.trans (counted _ _)

theorem State.endScan_sustains (s : State) : Sustains s s.endScan :=
  Sustains.trans (t := { s with phase := .running, periodTimer := some s.site.period }) (.ofSame rfl rfl rfl)
    (State.startRamp_sustains _)

/-! ### Commands -/

/-- A transaction sustains the laws where its command's own effect does. -/
theorem State.transact_sustains (s : State) (p : PortId) (row : CommandRow) (params : List Byte) (act : State → Reply)
    (h : Sustains s (act s).state) : Sustains s (s.transact p row params act) := by
  rcases s.transact_cases p row params act with ⟨-, taken⟩ | ⟨r, after, refused⟩
  · rw [taken]
    exact h.trans (State.setPort_sustains _ _ _)
  · rw [refused]
    exact s.setPort_sustains _ _

theorem State.clusterCommand_sustains (s : State) (p : PortId) (row : CommandRow) (params : List Byte)
    (act : BayId → State → Reply) (h : ∀ b, Sustains s (act b s).state) : Sustains s (s.clusterCommand p row params act) := by
  refine s.transact_sustains p row params _ ?_
  split
  · exact h _
  · exact .refl s

theorem State.access_sustains (s : State) (i : SlotId) : Sustains s (s.access i) := (s.access_evolves i).sustains (s.access_earned i)

theorem State.accessAll_sustains (s : State) (l : List SlotId) : Sustains s (s.accessAll l) :=
  (s.accessAll_evolves l).sustains (s.accessAll_earned l)

theorem State.slotCommand_sustains (s : State) (p : PortId) (row : CommandRow) (params : List Byte)
    (act : SlotId → State → Reply) (h : ∀ i t, Sustains t (act i t).state) : Sustains s (s.slotCommand p row params act) := by
  refine s.transact_sustains p row params _ ?_
  split
  · exact (s.access_sustains _).trans (h _ _)
  · exact .refl s

theorem State.readPack_sustains (s : State) (p : PortId) (params : List Byte) :
    Sustains s (s.transact p rowReadPack params fun t =>
      match byteAt params 0 with
      | 0 => t.readBySlot (u32At params 1)
      | 1 => t.readByTag (u32At params 1)
      | 2 => t.readByBay p (u32At params 1)
      | 3 => t.readBySweeper (u32At params 1)
      | _ => t.reply .range) := by
  have all := s.accessAll_sustains allSlots
  refine s.transact_sustains p rowReadPack params _ ?_
  split
  · unfold State.readBySlot
    split
    · exact s.access_sustains _
    · exact .refl s
  · unfold State.readByTag
    split
    · exact .refl s
    · dsimp only
      split <;> simpa only [State.answerPack_state, State.reply_state] using all
  · unfold State.readByBay
    split
    · exact .refl s
    · split
      · exact s.access_sustains _
      · exact .refl s
  · unfold State.readBySweeper
    split
    · exact .refl s
    · split
      · exact .refl s
      · dsimp only
        split <;> simpa only [State.answer_state, State.reply_state] using all
  · exact .refl s

/-- A dock that passes its range checks, at an EMPTY bay (R42). -/
theorem State.dockTag_sustains {s : State} {b : BayId} (empty : (s.bay b).stage = .empty) {d : Docking} (sane : d.sane) :
    Sustains s (s.dockTag b d).state := by
  have checked := s.accessAll_sustains allSlots
  have still := (s.accessAll_stage allSlots b).trans empty
  unfold State.dockTag
  generalize s.accessAll allSlots = t at checked still
  dsimp only
  split
  · exact checked.trans (State.notify_sustains _ _ _)
  · have seen : Sustains t t.countSeen := .ofSame rfl rfl rfl
    have roster := (State.dockRoster_evolves t b d sane).sustains (t.dockRoster_earned b d)
    have vacant : ((t.dockRoster b d).bay b).stage = .empty := by rw [State.dockRoster_bay, still]
    exact ((checked.trans seen).trans roster).trans ((State.dockBay_evolves _ b d _).sustains (State.dockBay_earned vacant d _))

/-- A command's outcome sustains the laws: the state it leaves, if it leaves one, does. -/
def Outcome.Sustains (s : State) (r : Result) : Prop := ∀ t, r = .next t → Machine.Sustains s t

theorem Outcome.Sustains.next {s t : State} (h : Machine.Sustains s t) : Outcome.Sustains s (.next t) := by
  intro u e
  cases e
  exact h

/-- An event that takes place only when it is due. -/
theorem Outcome.Sustains.whenDue {s t : State} (due : Bool) (h : Machine.Sustains s t) :
    Outcome.Sustains s (.next (if due then t else s)) := by
  cases due
  · exact .next (.refl s)
  · exact .next h

/-- A read whose command leaves the state as it is. -/
theorem Outcome.Sustains.read {s : State} {p : PortId} {row : CommandRow} {params : List Byte} {act : State → Reply}
    (h : (act s).state = s) : Outcome.Sustains s (.next (s.transact p row params act)) :=
  .next (s.transact_sustains p row params act (by rw [h]; exact .refl s))

/-! One command each. -/

section
variable (p : PortId) (params : List Byte) (s : State)

theorem execReadGroup_sustains : Outcome.Sustains s (execReadGroup p params s) := by
  refine .next (s.transact_sustains _ _ _ _ ?_)
  split
  · rename_i g _
    have checked := s.accessAll_sustains (slotsOf g)
    generalize s.accessAll (slotsOf g) = t at checked
    exact checked.trans (t.setPort_sustains _ _)
  · exact .refl s

theorem execReadBay_sustains : Outcome.Sustains s (execReadBay p params s) := by
  refine .read ?_
  split <;> rfl

theorem execReadDeparture_sustains : Outcome.Sustains s (execReadDeparture p params s) := by
  refine .read ?_
  split <;> rfl

theorem execReadQueue_sustains : Outcome.Sustains s (execReadQueue p params s) := by
  refine .next (s.transact_sustains _ _ _ _ ?_)
  split
  · exact s.accessAll_sustains _
  · exact .refl s

theorem execReadRecall_sustains : Outcome.Sustains s (execReadRecall p params s) := by
  refine .read ?_
  split
  · split <;> rfl
  · rfl

theorem execSetNoticeMask_sustains : Outcome.Sustains s (execSetNoticeMask p params s) := by
  refine .next (s.transact_sustains _ _ _ _ ?_)
  split
  · exact s.setPort_sustains _ _
  · exact .refl s

theorem execDock_sustains : Outcome.Sustains s (execDock p params s) := by
  refine .next (s.clusterCommand_sustains p rowDock params _ fun b => ?_)
  split
  · exact .refl s
  · rename_i vacant
    split
    · rename_i d docking
      exact State.dockTag_sustains (by simpa using vacant) (dockingOf_sane params d docking)
    · exact .refl s

theorem execUndock_sustains : Outcome.Sustains s (execUndock p params s) := by
  refine .next (s.clusterCommand_sustains p rowUndock params _ fun b => ?_)
  have accessed := (s.accessDocked_evolves b).sustains (s.accessDocked_earned b)
  have undocked (t : State) : Sustains t (t.undock b) := by
    have seen : Sustains t t.countSeen := .ofSame rfl rfl rfl
    exact seen.trans ((t.undock_evolves b).sustains (t.undock_earned b))
  split
  · exact .refl s
  · split
    · exact .refl s
    · split
      · exact accessed
      · exact accessed.trans (undocked _)

theorem execReport_sustains : Outcome.Sustains s (execReport p params s) := by
  refine .next (s.clusterCommand_sustains p rowReport params _ fun b => ?_)
  split
  · exact (s.compareCurrent_evolves b _).sustains (s.compareCurrent_earned b _)
  · exact ((s.accessDocked_evolves b).trans (State.takeReport_evolves _ b _ _)).sustains
      ((s.accessDocked_earned b).trans (State.takeReport_earned _ b _ _))

theorem execGrantAck_sustains : Outcome.Sustains s (execGrantAck p params s) := by
  refine .next (s.clusterCommand_sustains p rowGrantAck params _ fun b => ?_)
  split
  · exact (s.confirm_evolves b).sustains (s.confirm_earned b)
  · exact .refl s

theorem execClearFault_sustains : Outcome.Sustains s (execClearFault p params s) := by
  refine .next (s.clusterCommand_sustains p rowClearFault params _ fun b => ?_)
  split
  · exact .refl s
  · split
    · exact .refl s
    · exact ((s.removeInhibit_evolves b .fault).sustains (s.removeInhibit_earned b .fault)).trans (.ofSame rfl rfl rfl)

theorem execSetClock_sustains : Outcome.Sustains s (execSetClock p params s) := by
  refine .next (s.transact_sustains _ _ _ _ ?_)
  split
  · exact .refl s
  · exact .ofSame rfl rfl rfl

theorem execSetSupply_sustains : Outcome.Sustains s (execSetSupply p params s) := by
  refine .next (s.transact_sustains _ _ _ _ ?_)
  split
  · rw [State.reply_state]
    exact s.resupply_sustains _
  · exact .refl s

theorem execHold_sustains : Outcome.Sustains s (execHold p s) := by
  refine .next (s.transact_sustains _ _ _ _ ?_)
  split
  · exact s.windDown_sustains
  · exact s.windDown_sustains
  · exact .refl s
  · exact .refl s

theorem execResume_sustains : Outcome.Sustains s (execResume p s) := by
  refine .next (s.transact_sustains _ _ _ _ ?_)
  split
  · exact .refl s
  · exact .refl s
  · exact .refl s
  · exact (s.clearInhibit_sustains .hold).trans (State.startRamp_sustains _)

theorem execSetZone_sustains : Outcome.Sustains s (execSetZone p params s) := by
  refine .next (s.transact_sustains _ _ _ _ ?_)
  split
  · exact s.setZone_sustains _ _
  · exact .refl s

theorem execZoneOn_sustains : Outcome.Sustains s (execZoneOn p s) := by
  refine .next (s.transact_sustains _ _ _ _ ?_)
  dsimp only [State.reply_state]
  split
  · exact .refl s
  · exact s.switchZoneOn_sustains

theorem execZoneOff_sustains : Outcome.Sustains s (execZoneOff p s) := by
  refine .next (s.transact_sustains _ _ _ _ ?_)
  dsimp only [State.reply_state]
  split
  · exact s.switchZoneOff_sustains
  · exact .refl s

theorem execSetWindow_sustains : Outcome.Sustains s (execSetWindow p params s) := by
  refine .next (s.transact_sustains _ _ _ _ ?_)
  split
  · exact s.setPort_sustains _ _
  · exact .refl s

theorem execTableWrite_sustains : Outcome.Sustains s (execTableWrite p s) := by
  refine .next ?_
  split
  · exact s.setPort_sustains _ _
  · split
    · exact s.setPort_sustains _ _
    · split <;> exact s.setPort_sustains _ _

theorem execTableRead_sustains (part : ReadPart) : Outcome.Sustains s (execTableRead p part s) := by
  refine .next ?_
  cases part with
  | command =>
    have answered : Sustains s (s.transact p rowTableRead [] fun t =>
        if (t.port p).window.isSome then t.answer [] else t.reply .state) :=
      s.transact_sustains _ _ _ _ (by split <;> exact .refl s)
    unfold State.beginReading
    dsimp only
    split
    · exact answered.trans (State.setPort_sustains _ _ _)
    · exact answered
  | nextEntry =>
    unfold State.readEntry
    dsimp only
    split
    · exact (s.setPort_sustains _ _).trans (State.setPort_sustains _ _ _)
    · exact (s.setPort_sustains _ _).trans (State.setPort_sustains _ _ _)
    · exact .refl s

theorem execTableWriteStreamEnd_sustains : Outcome.Sustains s (execTableWriteStreamEnd p s) := by
  refine .next ?_
  split
  · exact s.setPort_sustains _ _
  · exact s.setPort_sustains _ _
  · exact .refl s

theorem execAddDeparture_sustains : Outcome.Sustains s (execAddDeparture p params s) := by
  refine .next (s.transact_sustains _ _ _ _ ?_)
  split
  · exact .refl s
  · split
    · exact (s.addDeparture_evolves _ _).sustains (s.addDeparture_earned _ _)
    · exact .refl s

theorem execCancelDeparture_sustains : Outcome.Sustains s (execCancelDeparture p params s) := by
  refine .next (s.transact_sustains _ _ _ _ ?_)
  split
  · exact .refl s
  · split
    · exact .refl s
    · split
      · exact .refl s
      · exact (s.cancelDeparture_evolves _).sustains (s.cancelDeparture_earned _)

theorem execProfileEntryTake_sustains (b : Byte) : Outcome.Sustains s (execProfileEntryTake p b s) := by
  refine .next ?_
  split
  · split
    · exact (s.takeProfile_sustains _ _).trans (State.setPort_sustains _ _ _)
    · exact s.setPort_sustains _ _
  · exact .refl s

theorem execScheduleEntryTake_sustains (b : Byte) : Outcome.Sustains s (execScheduleEntryTake p b s) := by
  refine .next ?_
  split
  · split
    · exact ((s.takeEntry_evolves _ _).sustains (s.takeEntry_earned _ _)).trans (State.setPort_sustains _ _ _)
    · exact s.setPort_sustains _ _
  · exact .refl s

theorem execDraw_sustains : Outcome.Sustains s (execDraw p params s) := by
  refine .next (s.transact_sustains _ _ _ _ ?_)
  split
  · split
    · exact .refl s
    · split
      · exact .refl s
      · exact (s.drawPack_evolves _ _).sustains (s.drawPack_earned _ _)
  · exact .refl s

theorem execCancelDraw_sustains : Outcome.Sustains s (execCancelDraw p params s) := by
  refine .next (s.transact_sustains _ _ _ _ ?_)
  split
  · exact .refl s
  · dsimp only
    split
    · exact ((s.accessDrawn_evolves _).trans (State.cancelDrawOf_evolves _ _)).sustains
        ((s.accessDrawn_earned _).trans (State.cancelDrawOf_earned _ _))
    · exact (s.accessDrawn_evolves _).sustains (s.accessDrawn_earned _)

theorem execQuarantine_sustains : Outcome.Sustains s (execQuarantine p params s) := by
  refine .next (s.slotCommand_sustains _ _ _ _ fun i t => ?_)
  split
  · exact .refl t
  · exact .refl t
  · exact (t.enterQuarantine_evolves i _).sustains (t.enterQuarantine_earned i _)

theorem execRelease_sustains : Outcome.Sustains s (execRelease p params s) := by
  refine .next (s.slotCommand_sustains _ _ _ _ fun i t => ?_)
  split
  · exact (t.releaseQuarantine_evolves i).sustains (t.releaseQuarantine_earned i)
  · exact .refl t

theorem execForget_sustains : Outcome.Sustains s (execForget p params s) := by
  refine .next (s.slotCommand_sustains _ _ _ _ fun i t => ?_)
  split
  · exact (t.forgetRecord_evolves i).sustains (t.forgetRecord_earned i)
  · exact .refl t

theorem execScanComplete_sustains : Outcome.Sustains s (execScanComplete s) := by
  unfold execScanComplete
  split
  · exact .next s.endScan_sustains
  · exact .next (s.scanAfterReset_sustains.trans (State.endScan_sustains _))
  · exact .next (.refl s)

theorem execTimebaseSecond_sustains (upsets : List (SlotId × Upset)) : Outcome.Sustains s (execTimebaseSecond upsets s) := by
  have struck : Sustains s (upsets.foldl State.sufferUpset s) := by
    obtain ⟨checks, struck, -⟩ := State.sufferUpsets_eq upsets s
    rw [struck]
    exact .ofSame rfl rfl rfl
  refine .next ?_
  split
  · exact struck.trans (State.tick_sustains _)
  · exact struck

theorem execClockMinuteChange_sustains : Outcome.Sustains s (execClockMinuteChange s) := by
  refine .next ?_
  split
  · exact s.changeMinute_sustains _
  · exact .refl s

theorem execUnknownCode_sustains (code : Byte) : Outcome.Sustains s (execUnknownCode p code s) := by
  unfold execUnknownCode
  split
  · intro t e
    cases e
  · exact .next (s.setPort_sustains _ _)

end

/-- Every command keeps grants covered and earned, and counters whole. -/
theorem exec_sustains (c : Instr) (s : State) : Outcome.Sustains s (exec c s) := by
  cases c with
  | powerOn straps => exact .next (.ofReset (straps := straps) (queue := s.pending) rfl rfl rfl)
  | hardReset straps => exact .next (.ofReset (straps := straps) (queue := s.pending) rfl rfl rfl)
  | hardResetEnd => exact .next (by split; exacts [.ofSame rfl rfl rfl, .refl s])
  | scanComplete => exact execScanComplete_sustains s
  | unknownCode p code => exact execUnknownCode_sustains p s code
  | shortTransaction p => exact .next (s.setPort_sustains _ _)
  | identify p => exact .next (s.setPort_sustains _ _)
  | readNotices p => exact .read rfl
  | ackNotices p params => exact .next (s.transact_sustains _ _ _ _ (s.setPort_sustains _ _))
  | setNoticeMask p params => exact execSetNoticeMask_sustains p params s
  | readBaySummary p => exact .next (s.transact_sustains _ _ _ _ (s.setPort_sustains _ _))
  | readPack p params => exact .next (s.readPack_sustains p params)
  | readGroup p params => exact execReadGroup_sustains p params s
  | readMarks p => exact .read rfl
  | readBay p params => exact execReadBay_sustains p params s
  | readSupply p => exact .next (s.transact_sustains _ _ _ _ (s.setPort_sustains _ _))
  | readDeparture p params => exact execReadDeparture_sustains p params s
  | readCounters p => exact .read rfl
  | readQueue p params => exact execReadQueue_sustains p params s
  | readClock p => exact .read rfl
  | readRecall p params => exact execReadRecall_sustains p params s
  | dock p params => exact execDock_sustains p params s
  | undock p params => exact execUndock_sustains p params s
  | report p params => exact execReport_sustains p params s
  | grantAck p params => exact execGrantAck_sustains p params s
  | clearFault p params => exact execClearFault_sustains p params s
  | readGrants p => exact .read rfl
  | setClock p params => exact execSetClock_sustains p params s
  | setSupply p params => exact execSetSupply_sustains p params s
  | otherLoad p params => exact .next (s.transact_sustains _ _ _ _ (s.takeReading_sustains _))
  | hold p => exact execHold_sustains p s
  | resume p => exact execResume_sustains p s
  | setZone p params => exact execSetZone_sustains p params s
  | zoneOn p => exact execZoneOn_sustains p s
  | zoneOff p => exact execZoneOff_sustains p s
  | setSite p params => exact .next (s.transact_sustains _ _ _ _ (s.setSite_sustains _))
  | setWindow p params => exact execSetWindow_sustains p params s
  | tableWrite p => exact execTableWrite_sustains p s
  | profileEntryTake p b => exact execProfileEntryTake_sustains p s b
  | scheduleEntryTake p b => exact execScheduleEntryTake_sustains p s b
  | tableRead p part => exact execTableRead_sustains p s part
  | addDeparture p params => exact execAddDeparture_sustains p params s
  | cancelDeparture p params => exact execCancelDeparture_sustains p params s
  | draw p params => exact execDraw_sustains p params s
  | cancelDraw p params => exact execCancelDraw_sustains p params s
  | quarantine p params => exact execQuarantine_sustains p params s
  | release p params => exact execRelease_sustains p params s
  | forget p params => exact execForget_sustains p params s
  | latchCounters p => exact .next (s.transact_sustains _ _ _ _ s.latch_sustains)
  | softReset p => exact .next (s.transact_sustains _ _ _ _ s.softReset_sustains)
  | timebaseSecond upsets => exact execTimebaseSecond_sustains s upsets
  | clockMinuteChange => exact execClockMinuteChange_sustains s
  | scrubVisit => exact .whenDue _ ((s.access_sustains s.scrub).trans (.ofSame rfl rfl rfl))
  | reportTimeoutSilent b => exact .whenDue _ ((s.becomeSilent_evolves b).sustains (s.becomeSilent_earned b))
  | lostTimeout b => exact .whenDue _ ((s.becomeLost_evolves b).sustains (s.becomeLost_earned b))
  | stallHoldEnd b => exact .whenDue _ ((s.endStallHold_evolves b).sustains (s.endStallHold_earned b))
  | equaliseEnd b => exact .whenDue _ ((s.endEqualise_evolves b).sustains (s.endEqualise_earned b))
  | restEnd b => exact .whenDue _ ((s.endRest_evolves b).sustains (s.endRest_earned b))
  | confirmTimerExpiry b => exact .whenDue _ ((s.timeOut_evolves b).sustains (s.timeOut_earned b))
  | meterStale => exact .whenDue _ ((s.resupply_sustains _).trans (State.notify_sustains _ _ _))
  | windDownEnd => exact .whenDue _ ((s.resupply_sustains _).trans (State.notify_sustains _ _ _))
  | rampEnd => exact .whenDue _ s.endRamp_sustains
  | allocationPeriodExpiry => exact .whenDue _ (s.allocate_sustains.trans (.ofSame rfl rfl rfl))
  | allocationPass => exact .whenDue _ s.allocate_sustains
  | planningPass => exact .whenDue _ (s.plan_evolves.sustains s.plan_earned)
  | tableWriteStreamEnd p => exact execTableWriteStreamEnd_sustains p s

/-- A step keeps the laws of the bays: the front command does, and on an empty queue the part idles. -/
theorem step_sustains {s t : State} (taken : step s = .next t) : Sustains s t := by
  unfold step at taken
  split at taken
  · cases taken
    exact .refl s
  · rename_i c rest _
    have queued : Sustains s { s with pending := rest } := .ofSame rfl rfl rfl
    exact queued.trans (exec_sustains c _ t taken)

end Sys2Proof.Machine

open Sys2Proof.Machine

/-- Settles O56: the moves of a bay keep its grant covered and its counters whole (BayMoves.held, BayMoves.tallied), at every command. -/
theorem stepKeepsGrantsAndCounters : Obligations.StepKeepsGrantsAndCounters := fun _ _ taken covered whole =>
  ⟨(step_sustains taken).covered covered, (step_sustains taken).whole whole⟩

/-- Settles O57: every change of a bay's eligibility or grant keeps the grant earned (KeepsEarned), at every command. -/
theorem stepKeepsGrantsEarned : Obligations.StepKeepsGrantsEarned := fun _ _ taken => (step_sustains taken).earned

end

section
/-!
The charge of a bay (R52, R56 to R61, R75): what a report credits, the stage moved at a report, and the ends of the stage timers. What
entering DONE or RESTING does to the bay and to its record is said once, and the completion of a charge, the end of an equalise and
the end of a rest cite it.
-/

namespace Sys2Proof.Machine

/-! ### The charge credited at a report (R52) -/

theorem PackRecord.credited_eq (r : PackRecord) (c : Nat) : r.credited c = { r with
    estimate := (r.credited c).estimate, residue := (r.credited c).residue } := by
  unfold PackRecord.credited
  dsimp only
  split <;> rfl

theorem PackRecord.sameMarked_credited (r : PackRecord) (c : Nat) : r.sameMarked (r.credited c) = true := by
  rw [r.credited_eq c]
  simp [PackRecord.sameMarked]

theorem creditOf_eq (current interval acceptance : Nat) :
    creditOf current interval acceptance = current * min 10000 (max 1 interval) * min acceptance 100 / 100 := by
  unfold creditOf
  rw [clampNat_eq (by omega)]

/-- The credit keeps the charge up to the bound of the estimate. -/
theorem PackRecord.credited_within (r : PackRecord) (c : Nat)
    (within : r.estimate + (r.residue + c) / 3600000 ≤ estimateBound r.capacity) :
    (r.credited c).estimate * 3600000 + (r.credited c).residue = r.estimate * 3600000 + r.residue + c ∧
      (r.credited c).residue ≤ 3599999 := by
  unfold PackRecord.credited
  rw [if_neg (by omega)]
  dsimp only
  omega

theorem PackRecord.credited_above (r : PackRecord) (c : Nat)
    (above : estimateBound r.capacity < r.estimate + (r.residue + c) / 3600000) :
    (r.credited c).estimate = estimateBound r.capacity ∧ (r.credited c).residue = 0 := by
  unfold PackRecord.credited
  rw [if_pos above]
  exact ⟨rfl, rfl⟩

theorem State.creditCharge_of_none {s : State} {b : BayId} (bare : (s.bay b).slot = none) (current interval : Nat) :
    s.creditCharge b current interval = s := by
  unfold State.creditCharge
  rw [bare]

theorem State.putRecord_of_sameMarked {s : State} {i : SlotId} {r : PackRecord} (same : (s.record i).sameMarked r = true) :
    s.putRecord i r = s.storeRecord i r := by
  unfold State.putRecord
  rw [if_pos same]

theorem State.creditCharge_of_some {s : State} {b : BayId} {i : SlotId} (slot : (s.bay b).slot = some i) (current interval : Nat) :
    let c := creditOf current interval (s.bayProfile b).acceptance
    s.creditCharge b current interval = (s.storeRecord i ((s.record i).credited c)).setBay b { s.bay b with
      session := min 65535 ((s.bay b).session + ((s.record i).residue + c) / 3600000) } := by
  unfold State.creditCharge
  rw [slot]
  dsimp only
  rw [State.putRecord_of_sameMarked (PackRecord.sameMarked_credited _ _)]
  rfl

/-! ### What entering DONE or RESTING does (R58 to R60) -/

theorem State.notify_bayIs (s : State) (b : BayId) (k : NoticeKind) (w : Scope) : s.BayIs b (s.bay b) (s.notify k w) := by
  unfold State.BayIs State.bay
  rw [set_self]
  exact ⟨s.passMark, s.pendingList, _, rfl⟩

theorem State.modBay_bayIs (s : State) (b : BayId) (f : Bay → Bay) : s.BayIs b (f (s.bay b)) (s.modBay b f) :=
  ⟨s.passMark, s.pendingList, s.ports, rfl⟩

/-- The bay once its stage is one that does not charge (R39). -/
def Bay.idled (x : Bay) (st : Stage) (timeout : Nat) : Bay := ({ x with stage := st } : Bay).loweredToZero timeout

/-- The pending increases once a bay leaves the eligible ones (R40). -/
def State.withoutBay (s : State) (b : BayId) : List Increase :=
  if (s.bay b).eligible = true then s.pendingList.filter fun x => x.bay != b else s.pendingList

theorem State.enterStage_bayIs {s : State} {b : BayId} {st : Stage} (idle : st.charging = false) :
    s.BayIs b ((s.bay b).idled st s.site.confirmTimeout) (s.enterStage b st) :=
  ⟨_, _, _, s.enterStage_of_idle b idle⟩

theorem State.enterCharging_bayIs {s : State} {b : BayId} {st : Stage} (charging : st.charging = true) :
    s.BayIs b { s.bay b with stage := st } (s.enterStage b st) := s.enterStage_of_charging b charging

/-- A pack that is not DOCKED stands as it is when its bay reaches DONE. -/
theorem State.enterDone_of_undocked {s : State} {b : BayId} {i : SlotId} (slot : (s.bay b).slot = some i)
    (undocked : (s.record i).lifecycle ≠ .docked) : s.enterDone b = s.enterStage b .done := by
  have moved := State.enterStage_bayIs (s := s) (b := b) (st := .done) rfl
  have named : ((s.enterStage b .done).bay b).slot = some i := by rw [moved.own]; exact slot
  unfold State.enterDone
  dsimp only
  rw [named]
  dsimp only
  rw [State.BaysAre.record moved, if_neg (by simpa using undocked)]

/-- The record of a pack that becomes READY (R60). -/
def State.readied (s : State) (i : SlotId) : PackRecord :=
  { s.record i with lifecycle := .ready, readySince := some s.minuteNow }

/-- A DOCKED pack becomes READY when its bay reaches DONE (R60). -/
theorem State.enterDone_of_docked {s : State} {b : BayId} {i : SlotId} (slot : (s.bay b).slot = some i)
    (docked : (s.record i).lifecycle = .docked) :
    ∃ before, s.enterDone b = { s with
      bays := s.bays.set b ((s.bay b).idled .done s.site.confirmTimeout)
      passMark := s.passMark || (s.bay b).eligible
      pendingList := s.withoutBay b
      records := s.records.set i (s.readied i), checks := s.checks.set i .clean
      readyQueues := s.readyQueues.set (s.record i).profile (addFlag (s.queue (s.record i).profile) i)
      planMark := true
      ports := updateAll before fun _ y => y.deliver .ready .part } := by
  have moved := State.enterStage_bayIs (s := s) (b := b) (st := .done) rfl
  have named : ((s.enterStage b .done).bay b).slot = some i := by rw [moved.own]; exact slot
  have same : (s.enterStage b .done).record i = s.record i := State.BaysAre.record moved i
  unfold State.enterDone
  dsimp only
  rw [named]
  dsimp only
  rw [same, if_pos (by simp [docked]), s.enterStage_of_idle b rfl]
  unfold State.makeReady
  obtain ⟨ports, written⟩ := State.putRecord_eq { s with
    bays := s.bays.set b ((s.bay b).idled .done s.site.confirmTimeout)
    passMark := s.passMark || (s.bay b).eligible
    pendingList := s.withoutBay b
    ports := (s.enterStage b .done).ports } i (s.readied i)
  exact ⟨ports, congrArg (fun t : State => (((t.joinReady (s.record i).profile i).notify .ready .part).requestPlan)) written⟩

theorem State.enterRest_of_pos {s : State} {b : BayId} {minutes : Nat} (rests : 0 < minutes) :
    s.enterRest b minutes =
      (s.enterStage b .resting).modBay b fun x => { x with restEnd := some (minutes * 60) } := by
  unfold State.enterRest
  rw [if_neg (by omega)]

theorem State.enterRest_zero (s : State) (b : BayId) : s.enterRest b 0 = s.enterDone b := rfl

theorem State.enterRest_bayIs {s : State} {b : BayId} {minutes : Nat} (rests : 0 < minutes) :
    s.BayIs b { (s.bay b).idled .resting s.site.confirmTimeout with restEnd := some (minutes * 60) }
      (s.enterRest b minutes) := by
  rw [State.enterRest_of_pos rests]
  have moved := State.enterStage_bayIs (s := s) (b := b) (st := .resting) rfl
  have ended := (s.enterStage b .resting).modBay_bayIs b fun x => { x with restEnd := some (minutes * 60) }
  rw [moved.own] at ended
  exact moved.trans ended

section EnterDone

variable {s : State} {b : BayId} {i : SlotId} (slot : (s.bay b).slot = some i)

include slot

theorem State.enterDone_bay (a : BayId) :
    (s.enterDone b).bay a = if a = b then (s.bay b).idled .done s.site.confirmTimeout else s.bay a := by
  by_cases docked : (s.record i).lifecycle = .docked
  · obtain ⟨before, done⟩ := State.enterDone_of_docked slot docked
    rw [done]
    exact get_set _ _ _ _
  · rw [State.enterDone_of_undocked slot docked, State.BaysAre.bay (State.enterStage_bayIs rfl)]
    exact get_set _ _ _ _

theorem State.enterDone_record (j : SlotId) :
    (s.enterDone b).record j = if j = i ∧ (s.record i).lifecycle = .docked then s.readied i else s.record j := by
  by_cases docked : (s.record i).lifecycle = .docked
  · obtain ⟨before, done⟩ := State.enterDone_of_docked slot docked
    rw [done]
    simp only [docked, and_true]
    exact get_set _ _ _ _
  · rw [State.enterDone_of_undocked slot docked, State.BaysAre.record (State.enterStage_bayIs rfl)]
    simp [docked]

theorem State.enterDone_passMark : (s.enterDone b).passMark = (s.passMark || (s.bay b).eligible) := by
  by_cases docked : (s.record i).lifecycle = .docked
  · obtain ⟨before, done⟩ := State.enterDone_of_docked slot docked
    rw [done]
  · rw [State.enterDone_of_undocked slot docked, s.enterStage_of_idle b rfl]

theorem State.enterDone_queue (docked : (s.record i).lifecycle = .docked) (k : ProfileId) (j : SlotId) :
    hasFlag ((s.enterDone b).queue k) j = (hasFlag (s.queue k) j || decide (k = (s.record i).profile ∧ j = i)) := by
  obtain ⟨before, done⟩ := State.enterDone_of_docked slot docked
  rw [done]
  simp only [State.queue, get_set]
  by_cases own : k = (s.record i).profile
  · subst own
    rw [if_pos rfl, hasFlag_addFlag]
    by_cases here : j = i <;> simp [here]
  · simp [own]

theorem State.enterDone_planMark (docked : (s.record i).lifecycle = .docked) : (s.enterDone b).planMark = true := by
  obtain ⟨before, done⟩ := State.enterDone_of_docked slot docked
  rw [done]

theorem State.enterDone_noticed (docked : (s.record i).lifecycle = .docked) {q : PortId}
    (office : (s.port q).role = .depot ∨ (s.port q).role = .observer) :
    hasFlag ((s.enterDone b).port q).raised NoticeKind.ready.bit = true := by
  obtain ⟨before, done⟩ := State.enterDone_of_docked slot docked
  have last : (s.enterDone b).port q = before[q].deliver .ready .part := by
    rw [done]
    exact get_updateAll _ _ _
  exact ((s.enterDone_evolves b).ports q).raises_last last (Role.office_takes office _ _)

/-- The bay once a charge or an equalise is complete: RESTING for so many minutes, or DONE where there are none. -/
def Bay.rested (x : Bay) (minutes timeout : Nat) : Bay :=
  if minutes = 0 then x.idled .done timeout else { x.idled .resting timeout with restEnd := some (minutes * 60) }

theorem State.enterRest_bay (minutes : Nat) (a : BayId) :
    (s.enterRest b minutes).bay a = if a = b then (s.bay b).rested minutes s.site.confirmTimeout else s.bay a := by
  unfold Bay.rested
  rcases Nat.eq_zero_or_pos minutes with rfl | rests
  · exact State.enterDone_bay slot a
  · rw [if_neg (by omega : ¬ minutes = 0), State.BaysAre.bay (State.enterRest_bayIs rests)]
    exact get_set _ _ _ _

theorem State.enterRest_record (minutes : Nat) (j : SlotId) :
    (s.enterRest b minutes).record j =
      if j = i ∧ minutes = 0 ∧ (s.record i).lifecycle = .docked then s.readied i else s.record j := by
  rcases Nat.eq_zero_or_pos minutes with rfl | rests
  · rw [State.enterRest_zero]
    simpa using State.enterDone_record slot j
  · rw [if_neg (by omega), State.BaysAre.record (State.enterRest_bayIs rests)]

theorem State.enterRest_passMark (minutes : Nat) : (s.enterRest b minutes).passMark = (s.passMark || (s.bay b).eligible) := by
  rcases Nat.eq_zero_or_pos minutes with rfl | rests
  · exact State.enterDone_passMark slot
  · rw [State.enterRest_of_pos rests, s.enterStage_of_idle b rfl]
    rfl

end EnterDone

theorem State.enterRest_readyQueues {s : State} {b : BayId} {minutes : Nat} (rests : 0 < minutes) :
    (s.enterRest b minutes).readyQueues = s.readyQueues := by
  obtain ⟨pass, pendingList, ports, rested⟩ := State.enterRest_bayIs (s := s) (b := b) rests
  rw [rested]

/-! ### A completed charge (R58) -/

section Complete

variable (s : State) (b : BayId) (i : SlotId)

/-- The record once its charge is complete (R58, steps 1 to 3). -/
def State.chargedRecord : PackRecord := (s.record i).completed (s.bayProfile b) (s.bay b).session

theorem State.putRecord_bay (r : PackRecord) (a : BayId) : (s.putRecord i r).bay a = s.bay a := by
  obtain ⟨ports, written⟩ := s.putRecord_eq i r
  rw [written]
  rfl

theorem State.putRecord_site (r : PackRecord) : (s.putRecord i r).site = s.site := by
  obtain ⟨ports, written⟩ := s.putRecord_eq i r
  rw [written]

theorem State.complete_due (due : (s.bayProfile b).equaliseDue (s.chargedRecord b i).sinceEqualise = true) :
    (s.putRecord i (s.chargedRecord b i)).BayIs b
      { s.bay b with stage := .equalise, equaliseEnd := some ((s.bayProfile b).equaliseMinutes * 60) } (s.complete b i) := by
  have completed : s.complete b i = ((s.putRecord i (s.chargedRecord b i)).enterStage b .equalise).modBay b fun x =>
      { x with equaliseEnd := some ((s.bayProfile b).equaliseMinutes * 60) } := if_pos due
  rw [← s.putRecord_bay i (s.chargedRecord b i) b, completed]
  have moved := State.enterCharging_bayIs (s := s.putRecord i (s.chargedRecord b i)) (b := b) (st := .equalise) rfl
  have timed := State.modBay_bayIs ((s.putRecord i (s.chargedRecord b i)).enterStage b .equalise) b fun x =>
    { x with equaliseEnd := some ((s.bayProfile b).equaliseMinutes * 60) }
  rw [moved.own] at timed
  exact moved.trans timed

variable {s b i}

theorem State.complete_early (early : (s.bayProfile b).equaliseDue (s.chargedRecord b i).sinceEqualise = false) :
    s.complete b i = (s.putRecord i (s.chargedRecord b i)).enterRest b (s.bayProfile b).restMinutes :=
  if_neg (by simpa [State.chargedRecord] using early)

theorem State.complete_bay (slot : (s.bay b).slot = some i) (a : BayId) :
    (s.complete b i).bay a = if a = b then
      (if (s.bayProfile b).equaliseDue (s.chargedRecord b i).sinceEqualise = true then
        { s.bay b with stage := .equalise, equaliseEnd := some ((s.bayProfile b).equaliseMinutes * 60) }
      else (s.bay b).rested (s.bayProfile b).restMinutes s.site.confirmTimeout) else s.bay a := by
  have bays := s.putRecord_bay i (s.chargedRecord b i)
  by_cases due : (s.bayProfile b).equaliseDue (s.chargedRecord b i).sinceEqualise = true
  · rw [State.BaysAre.bay (s.complete_due b i due), get_set, if_pos due]
    exact if_congr Iff.rfl rfl (bays a)
  · rw [State.complete_early (by simpa using due), State.enterRest_bay (i := i) (by rw [bays, slot]), bays, bays, if_neg due,
      State.putRecord_site]

theorem State.complete_record (slot : (s.bay b).slot = some i) (j : SlotId) :
    (s.complete b i).record j = if j = i then
      (if (s.bayProfile b).equaliseDue (s.chargedRecord b i).sinceEqualise = false ∧ (s.bayProfile b).restMinutes = 0 ∧
          (s.record i).lifecycle = .docked then
        { s.chargedRecord b i with lifecycle := .ready, readySince := some s.minuteNow }
      else s.chargedRecord b i) else s.record j := by
  have records := s.putRecord_record i (r := s.chargedRecord b i)
  have minute : (s.putRecord i (s.chargedRecord b i)).minuteNow = s.minuteNow := by
    obtain ⟨ports, written⟩ := s.putRecord_eq i (s.chargedRecord b i)
    rw [written]
    rfl
  by_cases due : (s.bayProfile b).equaliseDue (s.chargedRecord b i).sinceEqualise = true
  · rw [State.BaysAre.record (s.complete_due b i due), records]
    simp [due]
  · rw [State.complete_early (by simpa using due),
      State.enterRest_record (i := i) (by rw [s.putRecord_bay, slot]), State.readied, records, records, if_pos rfl, minute]
    have kept : (s.chargedRecord b i).lifecycle = (s.record i).lifecycle := rfl
    by_cases own : j = i <;> simp [own, due, kept]

theorem State.complete_readied (slot : (s.bay b).slot = some i)
    (early : (s.bayProfile b).equaliseDue (s.chargedRecord b i).sinceEqualise = false)
    (restless : (s.bayProfile b).restMinutes = 0) (docked : (s.record i).lifecycle = .docked) :
    hasFlag ((s.complete b i).queue (s.record i).profile) i = true ∧ (s.complete b i).planMark = true := by
  have named : ((s.putRecord i (s.chargedRecord b i)).bay b).slot = some i := by rw [s.putRecord_bay, slot]
  have own : (s.putRecord i (s.chargedRecord b i)).record i = s.chargedRecord b i :=
    (s.putRecord_record i i _).trans (if_pos rfl)
  have waits : ((s.putRecord i (s.chargedRecord b i)).record i).lifecycle = .docked := by rw [own]; exact docked
  rw [State.complete_early early, restless, State.enterRest_zero, State.enterDone_queue named waits]
  refine ⟨?_, State.enterDone_planMark named waits⟩
  rw [own]
  simp [State.chargedRecord, PackRecord.completed]

end Complete

/-! ### The stage moved at a report (R56, R57, R61) -/

/-- A charge ends at a report: it terminates at or below the finish current without inhibits, or the record is overcharged (R57). -/
def Profile.completes (pr : Profile) (r : PackRecord) (l : LastReport) (uninhibited : Bool) : Bool :=
  l.terminated && decide (l.current ≤ pr.finishCurrent) && uninhibited || r.overcharged

theorem State.moveStage_barred {s : State} {b : BayId} (barred : (s.bay b).carries .profile = true) (l : LastReport)
    (uninhibited : Bool) : s.moveStage b l uninhibited = s := by
  unfold State.moveStage
  cases (s.bay b).slot with
  | none => rfl
  | some i => exact if_pos barred

theorem State.moveStage_eq {s : State} {b : BayId} {i : SlotId} (slot : (s.bay b).slot = some i)
    (free : (s.bay b).carries .profile = false) (l : LastReport) (uninhibited : Bool) :
    s.moveStage b l uninhibited =
      if ((s.reevaluateBulk b).bay b).stage = .absorb ∧
          (s.bayProfile b).completes (s.record i) l uninhibited = true then
        (if (s.record i).overcharged then (s.reevaluateBulk b).notify .bay (.bay b) else s.reevaluateBulk b).complete b i
      else s.reevaluateBulk b := by
  have reevaluated : s.reevaluateBulk b =
      if (s.bay b).stage == .bulk && (s.bayProfile b).absorbAt (s.record i).capacity ≤ (s.record i).estimate then
        s.enterStage b .absorb else s := by
    unfold State.reevaluateBulk
    rw [slot]
  rw [reevaluated]
  unfold State.moveStage Profile.completes
  rw [slot]
  dsimp only
  rw [if_neg (by simp [free])]
  simp only [Bool.and_eq_true, beq_iff_eq]

theorem State.BayIs.noticed {s t : State} {b : BayId} {x : Bay} (h : s.BayIs b x t) (overcharged : Bool) :
    s.BayIs b x (if overcharged then t.notify .bay (.bay b) else t) := by
  split
  · have noticed := t.notify_bayIs b .bay (.bay b)
    rw [h.own] at noticed
    exact h.trans noticed
  · exact h

theorem State.BaysAre.minuteNow {s t : State} {v : Vector Bay 16} (h : s.BaysAre v t) : t.minuteNow = s.minuteNow := by
  obtain ⟨_, _, _, same⟩ := h
  rw [same]
  rfl

theorem State.minuteNow_eq (s : State) : s.minuteNow = (s.clock.map (·.minute)).getD 0 := by
  unfold State.minuteNow
  cases s.clock <;> rfl

/-! ### An inhibit removed (R39, R40) -/

theorem Bay.uninhibited_of_eligible {x : Bay} (can : x.eligible = true) (r : Inhibit) : x.uninhibited r = x := by
  apply Bay.uninhibited_of_not
  by_contra carries
  rw [Bay.eligible_of_inhibited (r := r) (by simpa using carries)] at can
  contradiction

/-- An inhibit removed: only an ineligible bay changes by it, so no pending increase is dropped. -/
theorem State.removeInhibit_eq (s : State) (b : BayId) (r : Inhibit) :
    s.removeInhibit b r = { s with
      bays := s.bays.set b ((s.bay b).uninhibited r)
      passMark := s.passMark || (((s.bay b).uninhibited r).eligible && !(s.bay b).eligible) } := by
  unfold State.removeInhibit
  rw [State.changeBay_eq, show ({ s.bay b with inhibits := dropFlag (s.bay b).inhibits r.bit } : Bay) = (s.bay b).uninhibited r from rfl]
  cases can : (s.bay b).eligible with
  | true => simp [Bay.uninhibited_of_eligible can r, can]
  | false => simp

/-! ### The ends of the stage timers (R59, R75) -/

/-- A timer's expiry is an event while the part runs and the timer has run out. -/
theorem timerDue_iff {s : State} {timer : Option Nat} :
    (s.phase == .running && timer == some 0) = true ↔ s.phase = .running ∧ timer = some 0 := by
  simp

/-- A bay whose stall hold ends (R75). -/
def Bay.releasedFromHold (x : Bay) : Bay :=
  ({ x with stall := .probation, probation := some 0, holdEnd := none } : Bay).uninhibited .stallHold

theorem State.endStallHold_eq (s : State) (b : BayId) : s.endStallHold b = { s with
    bays := s.bays.set b (s.bay b).releasedFromHold
    passMark := s.passMark || ((s.bay b).releasedFromHold.eligible && !(s.bay b).eligible)
    ports := updateAll s.ports fun _ y => y.deliver .bay (.bay b) } := by
  have own : (s.modBay b fun x => { x with stall := .probation, probation := some 0, holdEnd := none }).bay b =
      { s.bay b with stall := .probation, probation := some 0, holdEnd := none } := (State.modBay_bay _ _ _ _).trans (if_pos rfl)
  unfold State.endStallHold
  rw [State.removeInhibit_eq, own]
  simp only [State.modBay, State.setBay, Vector.set_set]
  rfl

/-- A sound roster whose docked record has its charges since equalise cleared, with the bay's equalise end taken (R59). -/
theorem State.sound.clearedSinceEqualise {s : State} (h : s.sound) {b : BayId} {i : SlotId} (slot : (s.bay b).slot = some i) :
    ((s.accessDocked b).clearSinceEqualise b).modBay b (fun x => { x with equaliseEnd := none }) =
      (s.storeRecord i { s.record i with sinceEqualise := 0 }).setBay b { s.bay b with equaliseEnd := none } := by
  rw [h.accessDocked]
  unfold State.clearSinceEqualise
  rw [slot]
  dsimp only
  rw [State.putRecord_of_sameMarked (by simp [PackRecord.sameMarked])]
  rfl

/-- What becomes of a pack whose bay reaches DONE (R60, R153). -/
theorem State.enterDone_arrives {s : State} {b : BayId} {i : SlotId} {r : PackRecord} (slot : (s.bay b).slot = some i)
    (own : s.record i = r) :
    (r.lifecycle = .docked →
      (s.enterDone b).record i = { r with lifecycle := .ready, readySince := some ((s.clock.map (·.minute)).getD 0) } ∧
      (∀ k j, hasFlag ((s.enterDone b).queue k) j = (hasFlag (s.queue k) j || decide (k = r.profile ∧ j = i))) ∧
      (s.enterDone b).planMark = true ∧
      ∀ q, (s.port q).role = .depot ∨ (s.port q).role = .observer →
        hasFlag ((s.enterDone b).port q).raised NoticeKind.ready.bit = true) ∧
    (r.lifecycle ≠ .docked → (s.enterDone b).record i = r ∧ (s.enterDone b).readyQueues = s.readyQueues ∧
      (s.enterDone b).planMark = s.planMark) := by
  subst own
  refine ⟨fun docked => ⟨?_, State.enterDone_queue slot docked, State.enterDone_planMark slot docked,
    fun q => State.enterDone_noticed slot docked⟩, fun undocked => ?_⟩
  · rw [State.enterDone_record slot, if_pos ⟨rfl, docked⟩, State.readied, State.minuteNow_eq]
  · rw [State.enterDone_of_undocked slot undocked, s.enterStage_of_idle b rfl]
    exact ⟨rfl, rfl, rfl⟩

end Sys2Proof.Machine

open Sys2Proof Sys2Proof.Machine

/-- Settles O26: a report's credit is a stored record and a session, and the estimate with its residue is a number written in units of
3600000. -/
theorem creditConservesCharge : Obligations.CreditConservesCharge := by
  unfold Obligations.CreditConservesCharge
  refine ⟨fun s b current interval => ⟨fun bare => State.creditCharge_of_none bare _ _, fun i slot => ?_⟩,
    fun r current interval acceptance _ fits => ?_⟩
  · dsimp only
    rw [← creditOf_eq, State.creditCharge_of_some slot]
    refine ⟨?_, fun j other => ?_, fun a other => ?_, ?_, rfl⟩
    · exact (State.storeRecord_record _ _ _ _).trans (if_pos rfl)
    · exact (State.storeRecord_record _ _ _ _).trans (if_neg other)
    · exact (State.setBay_bay _ _ _ _).trans (if_neg other)
    · exact (State.setBay_bay _ _ _ _).trans (if_pos rfl)
  · have bound : estimateBound r.capacity = r.capacity * 110 / 100 := Nat.min_eq_left fits
    dsimp only
    rw [← creditOf_eq, ← bound]
    exact ⟨r.credited_within _, r.credited_above _, r.credited_eq _⟩

/-- Settles O28: the stage is re-evaluated as BULK is, and a charge that ends completes from there. -/
theorem stageMovesAtAReport : Obligations.StageMovesAtAReport := by
  unfold Obligations.StageMovesAtAReport
  intro s b i l uninhibited slot x pr r t reached ends count due learned charged lowered
  refine ⟨fun barred => State.moveStage_barred barred l uninhibited, fun free => ?_⟩
  have moved : t = _ := State.moveStage_eq slot free l uninhibited
  have reevaluated := s.reevaluateBulk_bayIs b
  have staged : (s.absorbed (s.bay b)).stage = if reached then .absorb else x.stage := by
    rw [State.absorbed_stage, slot]
  have absorbs : (s.absorbed (s.bay b)).stage = .absorb ↔ reached ∨ x.stage = .absorb := by
    rw [staged]
    split <;> simp [*]
  have completes : pr.completes r l uninhibited = true ↔ l.terminated = true ∧ l.current ≤ pr.finishCurrent ∧ uninhibited = true ∨
      r.capacity * 105 / 100 ≤ r.estimate := by
    simp [Profile.completes, PackRecord.overcharged, and_assoc]
  have same : s.absorbed (s.bay b) = { x with stage := if reached then .absorb else x.stage } :=
    (s.absorbed_eq (s.bay b)).trans (by rw [staged])
  have ended : ((s.reevaluateBulk b).bay b).stage = .absorb ∧ (s.bayProfile b).completes (s.record i) l uninhibited = true ↔ ends := by
    rw [reevaluated.own]
    exact and_congr absorbs completes
  have before (early : ¬ ends) : t = s.reevaluateBulk b := moved.trans (if_neg (mt ended.1 early))
  have after (h : ends) := moved.trans (if_pos (ended.2 h))
  have entered := reevaluated.noticed r.overcharged
  rw [same] at reevaluated entered
  generalize (if r.overcharged = true then (s.reevaluateBulk b).notify .bay (.bay b) else s.reevaluateBulk b) = n
    at after entered
  have own : n.bay b = { x with stage := if reached then .absorb else x.stage } := entered.own
  have profile : n.bayProfile b = pr := by
    unfold State.bayProfile
    rw [own, State.BaysAre.profile entered]
  have record (j : SlotId) : n.record j = s.record j := State.BaysAre.record entered j
  have chargedIs : n.chargedRecord b i = charged := by
    unfold State.chargedRecord
    rw [profile, own, record]
    rfl
  have others (a : BayId) (other : a ≠ b) : n.bay a = s.bay a := by
    rw [State.BaysAre.bay entered, get_set, if_neg other]
    rfl
  have dueIs : pr.equaliseDue charged.sinceEqualise = true ↔ due := by
    simp [Profile.equaliseDue, due, count, familyFloodedLead, and_assoc, charged]
  have named : (n.bay b).slot = some i := by rw [own]; exact slot
  have completedBay := State.complete_bay named
  have completedRecord := State.complete_record named
  rw [own, profile, chargedIs, State.BaysAre.site entered] at completedBay
  rw [profile, chargedIs, record, State.BaysAre.minuteNow entered, State.minuteNow_eq] at completedRecord
  have readies := State.complete_readied named
  rw [profile, chargedIs, record] at readies
  have early (h : ¬ due) : pr.equaliseDue charged.sinceEqualise = false := by simpa using mt dueIs.1 h
  refine ⟨fun a other => ?_, fun j other => ?_, fun notReached notEnds => ?_, fun isReached notEnds => ?_,
    fun isEnds isDue => ?_, fun isEnds notDue rests => ?_, fun isEnds notDue restless => ?_⟩
  · by_cases isEnds : ends
    · rw [after isEnds, completedBay, if_neg other, others a other]
    · rw [before isEnds, State.BaysAre.bay reevaluated, get_set, if_neg other]
      rfl
  · by_cases isEnds : ends
    · rw [after isEnds, completedRecord, if_neg other, record]
    · rw [before isEnds, State.BaysAre.record reevaluated]
  · rw [before notEnds, State.reevaluateBulk_eq, if_neg]
    intro absorbing
    simp only [State.absorbs, slot, Profile.absorbAt, Bool.and_eq_true, beq_iff_eq] at absorbing
    exact notReached ⟨absorbing.1, of_decide_eq_true absorbing.2⟩
  · rw [before notEnds, reevaluated.own, if_pos isReached, State.BaysAre.record reevaluated]
    exact ⟨rfl, rfl⟩
  · have stands : ¬ (pr.equaliseDue charged.sinceEqualise = false ∧ pr.restMinutes = 0 ∧ (s.record i).lifecycle = .docked) :=
      fun h => absurd h.1 (by rw [dueIs.2 isDue]; decide)
    rw [after isEnds, completedBay, completedRecord, if_pos rfl, if_pos rfl, if_pos (dueIs.2 isDue), if_neg stands]
    exact ⟨rfl, rfl⟩
  · have stands : ¬ (pr.equaliseDue charged.sinceEqualise = false ∧ pr.restMinutes = 0 ∧ (s.record i).lifecycle = .docked) :=
      fun h => absurd h.2.1 rests.ne'
    rw [after isEnds, completedBay, completedRecord, if_pos rfl, if_pos rfl, if_neg (mt dueIs.1 notDue), Bay.rested,
      if_neg rests.ne', if_neg stands]
    exact ⟨rfl, rfl⟩
  · rw [after isEnds, completedBay, completedRecord, if_pos rfl, if_pos rfl, if_neg (mt dueIs.1 notDue), Bay.rested, if_pos restless]
    refine ⟨rfl, if_congr (by simp [early notDue, restless, r]) rfl rfl, readies (early notDue) restless⟩

/-- Settles O47: on a sound roster an access corrects nothing, so the ends are the stage entered and, for a DOCKED pack at DONE, a
READY record. -/
theorem stageTimersEnd : Obligations.StageTimersEnd := by
  unfold Obligations.StageTimersEnd
  intro s b x lowered rest arrived
  refine ⟨fun running due => ?_, fun idle => ?_, fun i running due sound slot => ?_, fun idle => ?_,
    fun i running due sound slot => ?_, fun idle => ?_⟩
  · have ran : exec (.stallHoldEnd b) s = .next (s.endStallHold b) := congrArg Host.Outcome.next (if_pos (timerDue_iff.2 ⟨running, due⟩))
    have own : (s.endStallHold b).bay b = (s.bay b).releasedFromHold := by
      rw [State.endStallHold_eq]
      exact (get_set _ _ _ _).trans (if_pos rfl)
    refine ⟨_, ran, ?_, fun a other => ?_, own, fun q => ?_⟩
    · rw [own, State.endStallHold_eq]
    · rw [State.endStallHold_eq]
      exact (get_set _ _ _ _).trans (if_neg other)
    · rw [State.endStallHold_eq]
      exact get_updateAll _ _ _
  · exact congrArg Host.Outcome.next (if_neg (timerDue_iff.not.2 (by tauto)))
  · have ran : exec (.equaliseEnd b) s = .next (s.endEqualise b) := congrArg Host.Outcome.next (if_pos (timerDue_iff.2 ⟨running, due⟩))
    have cleared := sound.clearedSinceEqualise slot
    unfold State.endEqualise at ran
    rw [cleared] at ran
    dsimp only at ran
    generalize kept : (s.storeRecord i { s.record i with sinceEqualise := 0 }).setBay b { s.bay b with equaliseEnd := none } = u
      at ran
    have own : u.bay b = { x with equaliseEnd := none } := by
      rw [← kept, State.setBay_bay, if_pos rfl]
    have record (j : SlotId) : u.record j = if j = i then { s.record i with sinceEqualise := 0 } else s.record j := by
      rw [← kept]
      exact State.storeRecord_record _ _ _ _
    have restIs : (u.bayProfile b).restMinutes = rest := by
      unfold State.bayProfile
      rw [own, ← kept]
      rfl
    have named : (u.bay b).slot = some i := by rw [own]; exact slot
    have others (a : BayId) (other : a ≠ b) : u.bay a = s.bay a := by
      rw [← kept, State.setBay_bay, if_neg other]
      rfl
    have site : u.site = s.site := by rw [← kept]; rfl
    refine ⟨_, ran, fun a other => ?_, fun j other => ?_, ?_, fun rests => ⟨?_, ?_, ?_⟩, fun restless => ⟨?_, ?_⟩⟩
    · rw [State.enterRest_bay named, if_neg other, others a other]
    · rw [State.enterRest_record named, if_neg (by simp [other]), record, if_neg other]
    · rw [State.enterRest_passMark named, own, ← kept]
      rfl
    · rw [restIs, State.enterRest_bay named, if_pos rfl, own, site, Bay.rested, if_neg (by omega)]
      rfl
    · rw [restIs, State.enterRest_record named, if_neg (by omega), record, if_pos rfl]
    · rw [State.enterRest_readyQueues (by omega), ← kept]
      rfl
    · rw [restIs, restless, State.enterRest_bay named, if_pos rfl, own, site]
      rfl
    · rw [restIs, restless]
      have arrives := State.enterDone_arrives named ((record i).trans (if_pos rfl))
      subst kept
      exact arrives
  · exact congrArg Host.Outcome.next (if_neg (timerDue_iff.not.2 (by tauto)))
  · have ran : exec (.restEnd b) s = .next (s.endRest b) := congrArg Host.Outcome.next (if_pos (timerDue_iff.2 ⟨running, due⟩))
    have named : ((s.setBay b { x with restEnd := none }).bay b).slot = some i := by
      rw [State.setBay_bay, if_pos rfl]
      exact slot
    have ended : s.endRest b = (s.setBay b { x with restEnd := none }).enterDone b := by
      unfold State.endRest
      rw [sound.accessDocked]
      rfl
    rw [ended] at ran
    refine ⟨_, ran, fun a other => ?_, fun j other => ?_, ?_, ?_, State.enterDone_arrives named rfl⟩
    · rw [State.enterDone_bay named, if_neg other, State.setBay_bay, if_neg other]
    · rw [State.enterDone_record named, if_neg (by simp [other])]
      rfl
    · rw [State.enterDone_passMark named, State.setBay_bay, if_pos rfl]
      rfl
    · rw [State.enterDone_bay named, if_pos rfl, State.setBay_bay, if_pos rfl]
      rfl
  · exact congrArg Host.Outcome.next (if_neg (timerDue_iff.not.2 (by tauto)))

end

section
/-!
Faults and silence (R66, R67, R71): CLEAR_FAULT, and what becoming SILENT and LOST leave of a bay.
-/

namespace Sys2Proof.Machine

/-! ### Silence (R66, R67) -/

/-- A bay whose report state becomes one of silence (R66, R67). -/
def Bay.silenced (x : Bay) (r : ReportState) : Bay :=
  { x with report := r, stallStreak := 0, probation := if x.stall = .probation then some 0 else x.probation }

theorem Bay.silenced_ineligible (x : Bay) {r : ReportState} (silent : r ≠ .normal) : (x.silenced r).eligible = false := by
  simp [Bay.silenced, Bay.eligible, silent]

/-- A bay with one more event in its counters (R80). -/
def Bay.afterCount (x : Bay) (k : EventCounter) : Bay := { x with counters := x.counters.set k.place (x.counters[k.place]).counted }

theorem Bay.afterCount_own (x : Bay) (k : EventCounter) : (x.afterCount k).counters[k.place] = (x.counters[k.place]).counted :=
  (get_set _ _ _ _).trans (if_pos rfl)

theorem Bay.afterCount_other (x : Bay) (k : EventCounter) {j : Fin 5} (other : j ≠ k.place) :
    (x.afterCount k).counters[j] = x.counters[j] := (get_set _ _ _ _).trans (if_neg other)

/-- A bay's report state becomes one of silence: its pending increase goes with its eligibility (R40). -/
theorem State.silence_eq (s : State) (b : BayId) {r : ReportState} (silent : r ≠ .normal) :
    s.changeBay b (fun x => { x with report := r, stallStreak := 0, probation := if x.stall == .probation then some 0 else x.probation }) =
      { s with
        bays := s.bays.set b ((s.bay b).silenced r)
        passMark := s.passMark || (s.bay b).eligible
        pendingList := s.withoutBay b } := by
  have same : ({ s.bay b with report := r, stallStreak := 0, probation := if (s.bay b).stall == .probation then some 0
      else (s.bay b).probation } : Bay) = (s.bay b).silenced r := by
    simp [Bay.silenced]
  rw [State.changeBay_eq, same, Bay.silenced_ineligible _ silent, State.withoutBay]
  simp

theorem State.becomeSilent_eq (s : State) (b : BayId) : ∃ ports, s.becomeSilent b = { s with
    bays := s.bays.set b (((s.bay b).afterCount .silence).silenced .silent)
    passMark := s.passMark || (s.bay b).eligible
    pendingList := s.withoutBay b
    ports := updateAll ports fun _ y => y.deliver .bay (.bay b) } := by
  obtain ⟨ports, counted⟩ := s.count_eq b .silence
  refine ⟨ports, ?_⟩
  unfold State.becomeSilent
  dsimp only
  rw [State.silence_eq _ _ (by decide), counted]
  simp only [State.bay, State.withoutBay, get_set, Vector.set_set]
  rfl

theorem Bay.ineligible_of_silent {x : Bay} (silent : x.report ≠ .normal) : x.eligible = false := by
  simp [Bay.eligible, silent]

/-- The bay that becomes LOST passes through SILENT (notes/assumptions/16.md). -/
def Bay.silentFirst (x : Bay) : Bay := if x.report = .normal then (x.afterCount .silence).silenced .silent else x

theorem Bay.silentFirst_counters (x : Bay) : x.silentFirst.counters =
    if x.report = .normal then (x.afterCount .silence).counters else x.counters := by
  unfold Bay.silentFirst
  split <;> rfl

/-- A bay becomes LOST alike, whether it was SILENT before or passes through it. -/
theorem Bay.silentFirst_silenced (x : Bay) :
    x.silentFirst.silenced .lost = { x.silenced .lost with counters := x.silentFirst.counters } := by
  unfold Bay.silentFirst
  split
  · simp only [Bay.silenced, Bay.afterCount]
    congr 1
    split <;> simp [*]
  · rfl

theorem Bay.silentFirst_ineligible (x : Bay) : x.silentFirst.eligible = false := by
  unfold Bay.silentFirst
  split
  · exact Bay.silenced_ineligible _ (by decide)
  · rename_i silent
    exact Bay.ineligible_of_silent silent

/-- An event that takes a bay's eligibility, with any notices before it: the bay, the request and the pending increases. -/
def State.Ceases (s : State) (b : BayId) (x : Bay) (t : State) : Prop :=
  ∃ ports, t = { s with
    bays := s.bays.set b x, passMark := s.passMark || (s.bay b).eligible, pendingList := s.withoutBay b, ports := ports }

theorem State.Ceases.own {s t : State} {b : BayId} {x : Bay} (h : s.Ceases b x t) : t.bay b = x := by
  obtain ⟨_, same⟩ := h
  rw [same]
  exact (get_set _ _ _ _).trans (if_pos rfl)

theorem State.Ceases.other {s t : State} {b a : BayId} {x : Bay} (h : s.Ceases b x t) (other : a ≠ b) : t.bay a = s.bay a := by
  obtain ⟨_, same⟩ := h
  rw [same]
  exact (get_set _ _ _ _).trans (if_neg other)

/-- A bay that is not eligible loses no more. -/
theorem State.Ceases.trans {s t u : State} {b : BayId} {x y : Bay} (h : s.Ceases b x t) (was : x.eligible = false)
    (g : t.Ceases b y u) : s.Ceases b y u := by
  have own := h.own
  obtain ⟨_, first⟩ := h
  obtain ⟨ports, second⟩ := g
  refine ⟨ports, ?_⟩
  rw [State.withoutBay, own, was] at second
  rw [second, first]
  simp [Vector.set_set]

theorem State.Ceases.of_ineligible {s : State} {b : BayId} (was : (s.bay b).eligible = false) : s.Ceases b (s.bay b) s := by
  refine ⟨s.ports, ?_⟩
  unfold State.withoutBay
  rw [was]
  simp [State.bay]

theorem State.silentFirst_ceases (s : State) (b : BayId) :
    s.Ceases b (s.bay b).silentFirst (if (s.bay b).report == .normal then s.becomeSilent b else s) := by
  unfold Bay.silentFirst
  by_cases normal : (s.bay b).report = .normal
  · rw [if_pos normal, if_pos (beq_iff_eq.2 normal)]
    obtain ⟨ports, silent⟩ := s.becomeSilent_eq b
    exact ⟨_, silent⟩
  · rw [if_neg normal, if_neg (mt beq_iff_eq.1 normal)]
    exact .of_ineligible (Bay.ineligible_of_silent normal)

theorem State.Ceases.frame {s t : State} {b : BayId} {x : Bay} (h : s.Ceases b x t) : t = { s with
    bays := t.bays, ports := t.ports, passMark := s.passMark || (s.bay b).eligible, pendingList := s.withoutBay b } := by
  obtain ⟨_, same⟩ := h
  rw [same]

theorem State.Ceases.notify {s t : State} {b : BayId} {x : Bay} (h : s.Ceases b x t) (k : NoticeKind) (w : Scope) :
    s.Ceases b x (t.notify k w) := by
  obtain ⟨_, same⟩ := h
  exact ⟨_, congrArg (·.notify k w) same⟩

theorem State.addInhibit_ceases (s : State) (b : BayId) (r : Inhibit) :
    s.Ceases b ((s.bay b).inhibited r s.site.confirmTimeout) (s.addInhibit b r) := ⟨_, s.addInhibit_eq b r⟩

theorem State.Ceases.site {s t : State} {b : BayId} {x : Bay} (h : s.Ceases b x t) : t.site = s.site := by
  obtain ⟨_, same⟩ := h
  rw [same]

theorem State.becomeLost_ceases (s : State) (b : BayId) :
    s.Ceases b (((s.bay b).silentFirst.silenced .lost).inhibited .fault s.site.confirmTimeout) (s.becomeLost b) := by
  have first := s.silentFirst_ceases b
  have becomes : s.becomeLost b = State.addFault (State.changeBay (if (s.bay b).report == .normal then s.becomeSilent b else s) b
      fun x => { x with report := .lost, stallStreak := 0, probation := if x.stall == .probation then some 0 else x.probation }) b := rfl
  rw [becomes]
  generalize (if (s.bay b).report == .normal then s.becomeSilent b else s) = u at first ⊢
  have second : u.Ceases b _ _ := ⟨_, u.silence_eq b (r := .lost) (by decide)⟩
  rw [first.own] at second
  have lost := first.trans (Bay.silentFirst_ineligible _) second
  have third := State.addInhibit_ceases (u.changeBay b fun x =>
    { x with report := .lost, stallStreak := 0, probation := if x.stall == .probation then some 0 else x.probation }) b .fault
  rw [lost.own, lost.site] at third
  exact (lost.trans (Bay.silenced_ineligible _ (by decide)) third).notify _ _

theorem State.becomeLost_port (s : State) (b : BayId) (q : PortId) :
    ∃ y : Port, (s.becomeLost b).port q = y.deliver .fault (.bay b) := by
  unfold State.becomeLost State.addFault
  exact ⟨_, State.notify_port _ _ _ q⟩

end Sys2Proof.Machine

open Sys2Proof Sys2Proof.Machine

/-- Settles O31: FAULT is the only inhibit removed, and its clear edge is raised at the ports that take it. -/
theorem clearFaultRemovesFault : Obligations.ClearFaultRemovesFault := by
  unfold Obligations.ClearFaultRemovesFault
  intro p params s b accepted named x
  refine ⟨fun faulted known => ?_, fun refused => ?_⟩
  · have took := State.clusterCommand_writes (t := (s.removeInhibit b .fault).notifyFaultClear b) (r := .ok) (act := fun b t =>
        if !(t.bay b).carries .fault then t.reply .state
        else if (t.bay b).report == .lost then t.reply .state
        else ((t.removeInhibit b .fault).notifyFaultClear b).reply .ok)
      accepted rfl named (by simp [faulted, known]) (((s.removeInhibit_evolves b .fault).trans (State.notifyFaultClear_evolves _ b)).ports p)
    refine ⟨_, congrArg Host.Outcome.next took, ?_, fun q => ?_⟩
    · have was : (s.bay b).eligible = false := Bay.eligible_of_inhibited faulted
      rw [State.removeInhibit_eq, was, Bool.not_false, Bool.and_true]
      rfl
    · refine State.wrote_port s _ p q _ params .ok fun a => (State.notifyFaultClear_port _ b a).trans ?_
      rw [State.removeInhibit_eq]
      exact if_congr beq_iff_eq rfl rfl
  · refine congrArg Host.Outcome.next (State.clusterCommand_writes accepted rfl named ?_ (.refl _))
    rcases refused with free | lost
    · simp [free]
    · simp [lost]

/-- Settles O46: either event takes the bay's eligibility once, and LOST passes through SILENT (State.becomeLost_ceases). -/
theorem silenceTakesTheBay : Obligations.SilenceTakesTheBay := by
  unfold Obligations.SilenceTakesTheBay
  intro s b x probed follows silentDue lostDue
  refine ⟨fun due => ?_, fun early => ?_, fun due => ?_, fun early => ?_⟩
  · have isDue : s.silentDue b = true := by
      obtain ⟨running, docked, normal, long⟩ := due
      simpa [State.silentDue, running, docked, normal, x] using long
    have ran : exec (.reportTimeoutSilent b) s = .next (s.becomeSilent b) := congrArg Host.Outcome.next (if_pos isDue)
    obtain ⟨ports, silent⟩ := s.becomeSilent_eq b
    have ceases : s.Ceases b ((x.afterCount .silence).silenced .silent) (s.becomeSilent b) := ⟨_, silent⟩
    have moves := (s.becomeSilent_evolves b).ports
    have last (q : PortId) : (s.becomeSilent b).port q = (ports[q]).deliver .bay (.bay b) := by
      rw [silent]
      exact get_updateAll _ _ _
    refine ⟨_, ran, ⟨ceases.frame, fun a => ceases.other, moves, fun k other => ?_⟩, ?_, ?_, fun q takes => ⟨?_, ?_⟩⟩
    · rw [ceases.own]
      exact Bay.afterCount_other _ _ other
    · rw [ceases.own]
      rfl
    · rw [ceases.own]
      exact Bay.afterCount_own _ _
    · exact (moves q).raises_last (last q) takes
    · exact (moves q).joins_last (last q) takes
  · refine congrArg Host.Outcome.next (if_neg fun isDue => early ?_)
    simpa [State.silentDue, silentDue, and_assoc] using isDue
  · have isDue : s.lostDue b = true := by
      obtain ⟨running, docked, known, long⟩ := due
      simpa [State.lostDue, running, docked, known, x] using long
    have ran : exec (.lostTimeout b) s = .next (s.becomeLost b) := congrArg Host.Outcome.next (if_pos isDue)
    have ceases := s.becomeLost_ceases b
    have moves := (s.becomeLost_evolves b).ports
    rw [Bay.silentFirst_silenced] at ceases
    have counters : ((s.becomeLost b).bay b).counters = x.silentFirst.counters := by
      rw [ceases.own]
      rfl
    refine ⟨_, ran, ⟨ceases.frame, fun a => ceases.other, moves, fun k other => ?_⟩, ?_, ?_, fun q takes => ?_⟩
    · rw [counters, Bay.silentFirst_counters]
      split
      · exact Bay.afterCount_other _ _ other
      · rfl
    · rw [counters, ceases.own]
      rfl
    · rw [counters, Bay.silentFirst_counters]
      split
      · exact Bay.afterCount_own _ _
      · rfl
    · obtain ⟨y, last⟩ := s.becomeLost_port b q
      exact ⟨(moves q).raises_last last takes, (moves q).joins_last last takes⟩
  · refine congrArg Host.Outcome.next (if_neg fun isDue => early ?_)
    simpa [State.lostDue, lostDue, and_assoc] using isDue

end

section
/-!
Confirmations, overdraw and releases (R53, R119 to R130): the walk of a release is ReleaseWalk of Safety.lean, and a confirmation, a
report's current compared with the grant and a confirm timeout are said by it.
-/

namespace Sys2Proof.Machine

/-! ### What a release gives one increase (R129) -/

/-- The power of a current depends on the bay's stage, profile copy and last report alone (R104). -/
theorem State.powerOf_congr {s t : State} {b : BayId} (profiles : t.profiles = s.profiles)
    (stage : (t.bay b).stage = (s.bay b).stage) (profile : (t.bay b).profile = (s.bay b).profile)
    (last : (t.bay b).last = (s.bay b).last) (v : Nat) : t.powerOf b v = s.powerOf b v := by
  unfold State.powerOf State.powerTerms State.profile
  simp only [profiles, stage, profile, last]

/-- Two states agree on what a release reads. -/
def State.ReleasesAs (s t : State) : Prop := t.bays = s.bays ∧ t.profiles = s.profiles ∧ t.supply = s.supply ∧ t.site = s.site

theorem State.ReleasesAs.releasesInto {s t : State} (h : s.ReleasesAs t) (x : Increase) (y : Bay) :
    t.releasesInto x y ↔ s.releasesInto x y := by
  obtain ⟨bays, profiles, supply, site⟩ := h
  have bay (b : BayId) : t.bay b = s.bay b := by rw [State.bay, bays]; rfl
  have profile (k : ProfileId) : t.profile k = s.profile k := by rw [State.profile, profiles]; rfl
  have budget : t.budget = s.budget := by
    unfold State.budget
    rw [supply, site]
  have power (b : BayId) (v : Nat) : t.powerOf b v = s.powerOf b v := by
    refine State.powerOf_congr profiles ?_ ?_ ?_ v <;> rw [bay]
  unfold State.releasesInto
  simp only [bay, profile, budget, power]

theorem State.totalPower_split (s : State) (b : BayId) :
    s.totalPower = (s.bay b).power + ((allBays.filter fun a => a != b).map fun a => (s.bay a).power).sum := by
  have distinct : allBays.Nodup := List.nodup_finRange 16
  unfold State.totalPower
  rw [← List.sum_map_erase (fun a => (s.bay a).power) (mem_allBays b), distinct.erase_eq_filter]

theorem State.releaseFits_iff (s : State) (b : BayId) (v : Nat) : s.releaseFits b v = true ↔
    ((allBays.filter fun a => a != b).map fun a => (s.bay a).power).sum + s.powerOf b (max v (s.bay b).allowance) ≤ s.budget := by
  unfold State.releaseFits
  rw [s.totalPower_split b, Nat.add_sub_cancel_left, decide_eq_true_eq]
  rfl

/-- Without a largest step, none passes the test. -/
theorem largestStep_none (ok : Nat → Bool) (k w : Nat) (h : largestStep ok k = none) (five : w % 5 = 0) (pos : 0 < w)
    (most : w ≤ 5 * k) : ok w = false := by
  induction k with
  | zero => omega
  | succ k ih =>
    unfold largestStep at h
    split at h
    · cases h
    · rename_i fails
      by_cases below : w ≤ 5 * k
      · exact ih h below
      · have last : w = 5 * (k + 1) := by omega
        rw [last]
        simpa using fails

/-- A bay whose grant rises to v (R129, steps 1 and 4). -/
def State.raisedTo (s : State) (b : BayId) (v : Nat) : Bay :=
  { s.bay b with grant := v, allowance := max v (s.bay b).allowance, power := s.powerOf b (max v (s.bay b).allowance) }

theorem State.releaseOne_of_some {s : State} {x : Increase} {v : Nat} (value : s.releaseValue x = some v) :
    s.releaseOne x = (s.setBay x.bay (s.raisedTo x.bay v)).notify .grant (.bay x.bay) := by
  have own : (s.modBay x.bay fun y => { y with grant := v }).bay x.bay = { s.bay x.bay with grant := v } :=
    (State.modBay_bay _ _ _ _).trans (if_pos rfl)
  have power : (s.modBay x.bay fun y => { y with grant := v }).powerOf x.bay = s.powerOf x.bay :=
    funext (State.powerOf_congr rfl (by rw [own]) (by rw [own]) (by rw [own]))
  unfold State.releaseOne
  rw [value]
  dsimp only
  rw [State.setAllowance, power]
  exact congrArg (·.notify .grant (.bay x.bay)) (State.modBay_setBay s x.bay _ _)

theorem State.releaseOne_of_none {s : State} {x : Increase} (value : s.releaseValue x = none) : s.releaseOne x = s := by
  unfold State.releaseOne
  rw [value]

/-- A grant between the old one and the increase that the walk may give (R129, step 3). -/
def State.partFits (s : State) (x : Increase) (v : Nat) : Prop :=
  (s.bay x.bay).grant < v ∧ v < x.grant ∧ v % 5 = 0 ∧ (s.profile (s.bay x.bay).profile).minCurrent ≤ v ∧
    s.releaseFits x.bay v = true

/-- The test of the walk for a partial grant. -/
def State.partTest (s : State) (x : Increase) (v : Nat) : Bool :=
  v > (s.bay x.bay).grant && v ≥ (s.profile (s.bay x.bay).profile).minCurrent && s.releaseFits x.bay v

theorem State.partFits_iff (s : State) (x : Increase) (v : Nat) :
    s.partFits x v ↔ v < x.grant ∧ v % 5 = 0 ∧ s.partTest x v = true := by
  simp only [State.partFits, State.partTest, Bool.and_eq_true, decide_eq_true_eq]
  tauto

theorem State.releaseValue_of_unfit {s : State} {x : Increase} (unfit : ¬ s.releaseFits x.bay x.grant = true) :
    s.releaseValue x = largestStep (s.partTest x) ((x.grant - 1) / 5) := if_neg unfit

theorem State.releaseValue_part {s : State} {x : Increase} {v : Nat} (unfit : ¬ s.releaseFits x.bay x.grant = true)
    (value : s.releaseValue x = some v) : s.partFits x v := by
  rw [State.releaseValue_of_unfit unfit] at value
  obtain ⟨five, passes, least, most⟩ := largestStep_spec _ _ _ value
  exact (s.partFits_iff x v).2 ⟨by omega, five, passes⟩

theorem State.releaseValue_most {s : State} {x : Increase} {v : Nat} (unfit : ¬ s.releaseFits x.bay x.grant = true)
    (part : s.partFits x v) (most : ∀ w, s.partFits x w → w ≤ v) : s.releaseValue x = some v := by
  obtain ⟨below, five, passes⟩ := (s.partFits_iff x v).1 part
  have pos : 0 < v := by
    have above := part.1
    omega
  cases value : s.releaseValue x with
  | none =>
    rw [State.releaseValue_of_unfit unfit] at value
    rw [largestStep_none _ _ _ value five pos (by omega)] at passes
    contradiction
  | some w =>
    have atMost := most w (State.releaseValue_part unfit value)
    rw [State.releaseValue_of_unfit unfit] at value
    by_contra other
    rw [largestStep_most _ _ _ _ value five (by simp at other; omega) (by omega)] at passes
    contradiction

/-- What the walk makes of a bay is what R129 says. -/
theorem State.releaseOne_releasesInto (s : State) (x : Increase) : s.releasesInto x ((s.releaseOne x).bay x.bay) := by
  have raised {v : Nat} (value : s.releaseValue x = some v) : (s.releaseOne x).bay x.bay = s.raisedTo x.bay v := by
    rw [State.releaseOne_of_some value]
    exact (State.setBay_bay _ _ _ _).trans (if_pos rfl)
  unfold State.releasesInto
  dsimp only
  simp only [← State.releaseFits_iff]
  refine ⟨fun fits => raised (if_pos fits), fun unfit => ⟨fun v part most => raised ?_, fun nothing => ?_⟩⟩
  · exact State.releaseValue_most unfit part most
  · have value : s.releaseValue x = none := Option.eq_none_iff_forall_ne_some.2 fun v value =>
      nothing v (State.releaseValue_part unfit value)
    rw [State.releaseOne_of_none value]

theorem State.releaseOne_other (s : State) (x : Increase) {a : BayId} (other : a ≠ x.bay) : (s.releaseOne x).bay a = s.bay a := by
  cases value : s.releaseValue x with
  | none => rw [State.releaseOne_of_none value]
  | some v =>
    rw [State.releaseOne_of_some value]
    exact (State.setBay_bay _ _ _ _).trans (if_neg other)

theorem State.releaseOne_eq (s : State) (x : Increase) : s.releaseOne x =
    { s with bays := s.bays.set x.bay ((s.releaseOne x).bay x.bay), ports := (s.releaseOne x).ports } := by
  cases value : s.releaseValue x with
  | none =>
    rw [State.releaseOne_of_none value, State.bay, set_self]
  | some v =>
    rw [State.releaseOne_of_some value]
    simp [State.setBay, State.notify, State.bay]

/-! ### The walk (R129) -/

/-- The bays of the walk are those of the increases released in turn. -/
theorem State.releaseAll_walk (l : List Increase) (s u : State) (same : s.ReleasesAs u) :
    ReleaseWalk l u (l.foldl State.releaseOne s) := by
  induction l generalizing s u with
  | nil =>
    intro b
    rw [State.bay, State.bay, same.1]
    rfl
  | cons x l ih =>
    refine ⟨(s.releaseOne x).bay x.bay, (same.releasesInto x _).2 (s.releaseOne_releasesInto x), ih _ _ ?_⟩
    obtain ⟨bays, profiles, supply, site⟩ := same
    have frame := s.releaseOne_eq x
    refine ⟨?_, profiles.trans (congrArg State.profiles frame).symm, supply.trans (congrArg State.supply frame).symm,
      site.trans (congrArg State.site frame).symm⟩
    rw [State.setBay, bays]
    exact (congrArg State.bays frame).symm

theorem State.releaseAll_eq (l : List Increase) (s : State) :
    ∃ bays ports, l.foldl State.releaseOne s = { s with bays := bays, ports := ports } := by
  induction l generalizing s with
  | nil => exact ⟨s.bays, s.ports, rfl⟩
  | cons x l ih =>
    obtain ⟨bays, ports, rest⟩ := ih (s.releaseOne x)
    refine ⟨bays, ports, rest.trans ?_⟩
    rw [s.releaseOne_eq x]

theorem State.release_eq (s : State) : s.release = { s with bays := s.release.bays, ports := s.release.ports, pendingList := [] } := by
  obtain ⟨bays, ports, walked⟩ := State.releaseAll_eq s.pendingList s
  unfold State.release
  rw [walked]

/-- A walk is a walk to every state with the bays it leads to. -/
theorem ReleaseWalk.of_bays {l : List Increase} {s t u : State} (h : ReleaseWalk l s t) (bays : u.bays = t.bays) :
    ReleaseWalk l s u := by
  induction l generalizing s with
  | nil =>
    intro b
    rw [State.bay, bays]
    exact h b
  | cons x l ih =>
    obtain ⟨y, into, rest⟩ := h
    exact ⟨y, into, ih rest⟩

theorem State.release_walk {s u : State} (same : s.ReleasesAs u) : ReleaseWalk s.pendingList u s.release :=
  (State.releaseAll_walk s.pendingList s u same).of_bays rfl

theorem State.releaseOne_moves (s : State) (x : Increase) (q : PortId) : PortMoves (s.port q) ((s.releaseOne x).port q) := by
  cases value : s.releaseValue x with
  | none =>
    rw [State.releaseOne_of_none value]
    exact .refl _
  | some v =>
    rw [State.releaseOne_of_some value, State.notify_port]
    exact .deliver _ _ _

theorem State.releaseAll_moves (l : List Increase) (s : State) (q : PortId) :
    PortMoves (s.port q) ((l.foldl State.releaseOne s).port q) := by
  induction l generalizing s with
  | nil => exact .refl _
  | cons x l ih => exact (s.releaseOne_moves x q).trans (ih _)

/-- A grant that differs after the walk has been noticed by it (R121, R129). -/
theorem State.releaseAll_noticed (l : List Increase) (s : State) : s.grantsNoticed (l.foldl State.releaseOne s) := by
  induction l generalizing s with
  | nil => exact fun b q differs => absurd rfl differs
  | cons x l ih =>
    intro b q differs takes
    by_cases later : ((l.foldl State.releaseOne (s.releaseOne x)).bay b).grant = ((s.releaseOne x).bay b).grant
    · have here : ((s.releaseOne x).bay b).grant ≠ (s.bay b).grant := fun same => differs (later.trans same)
      have own : b = x.bay := by
        by_contra other
        exact here (by rw [s.releaseOne_other x other])
      subst own
      cases value : s.releaseValue x with
      | none => exact absurd (by rw [State.releaseOne_of_none value]) here
      | some v =>
        refine (State.releaseAll_moves l (s.releaseOne x) q).raised _ ?_
        rw [State.releaseOne_of_some value, State.notify_port]
        exact Port.deliver_raised takes
    · exact ih _ b q later ((s.releaseOne_moves x q).role.symm ▸ takes)

theorem State.release_noticed (s : State) : s.grantsNoticed s.release := State.releaseAll_noticed s.pendingList s

/-- The walk leaves a bay all but its grant and its allowance. -/
theorem State.releaseAll_bay (l : List Increase) (s : State) (a : BayId) : ∃ g n p,
    (l.foldl State.releaseOne s).bay a = { s.bay a with grant := g, allowance := n, power := p } := by
  induction l generalizing s with
  | nil => exact ⟨_, _, _, rfl⟩
  | cons x l ih =>
    obtain ⟨g, n, p, rest⟩ := ih (s.releaseOne x)
    refine ⟨g, n, p, rest.trans ?_⟩
    by_cases own : a = x.bay
    · subst own
      cases value : s.releaseValue x with
      | none => rw [State.releaseOne_of_none value]
      | some v =>
        rw [State.releaseOne_of_some value, State.notify_bay, State.setBay_bay, if_pos rfl]
        rfl
    · rw [s.releaseOne_other x own]

/-! ### Confirmation (R123, R124) -/

/-- A bay once a confirmation has brought its allowance down to the grant and resolved its reduction (R123). -/
def State.confirmedBay (s : State) (b : BayId) : Bay :=
  { s.bay b with
    allowance := (s.bay b).grant, power := s.powerOf b (s.bay b).grant, reduction := false
    confirmTimer := if (s.bay b).reduction then none else (s.bay b).confirmTimer }

/-- The bay's reduction is the last unresolved one (R119). -/
def State.resolvesAt (s : State) (b : BayId) : Prop := (s.bay b).reduction = true ∧ ∀ a, a ≠ b → (s.bay a).reduction = false

theorem State.release_of_nil {s : State} (nil : s.pendingList = []) : s.release = s := by
  unfold State.release
  rw [nil, List.foldl_nil, ← nil]

theorem State.allResolved_setBay (s : State) (b : BayId) {x : Bay} (resolved : x.reduction = false) :
    (s.setBay b x).allResolved = true ↔ ∀ a, a ≠ b → (s.bay a).reduction = false := by
  simp only [State.allResolved, List.all_eq_true, Bool.not_eq_true', State.setBay_bay]
  refine ⟨fun all a other => ?_, fun others a _ => ?_⟩
  · simpa [other] using all a (mem_allBays a)
  · by_cases own : a = b
    · rw [if_pos own, resolved]
    · rw [if_neg own, others a own]

theorem State.confirm_of_reduction {s : State} {b : BayId} (marked : (s.bay b).reduction = true) :
    s.confirm b = (s.setBay b (s.confirmedBay b)).releaseIfResolved := by
  have lowered : (s.setAllowance b (s.bay b).grant).bay b =
      { s.bay b with allowance := (s.bay b).grant, power := s.powerOf b (s.bay b).grant } := (State.setAllowance_bay _ _ _ _).trans (if_pos rfl)
  unfold State.confirm State.resolve
  rw [if_pos (by simp [Bay.unconfirmed, marked]), if_pos (by rw [lowered]; exact marked)]
  congr 1
  rw [State.confirmedBay, if_pos marked]
  exact State.modBay_setBay s b _ _

theorem State.confirm_of_no_reduction {s : State} {b : BayId} (clear : (s.bay b).reduction = false) :
    s.confirm b = if (s.bay b).grant < (s.bay b).allowance then s.setBay b (s.confirmedBay b) else s := by
  have lowered : (s.setAllowance b (s.bay b).grant).bay b =
      { s.bay b with allowance := (s.bay b).grant, power := s.powerOf b (s.bay b).grant } := (State.setAllowance_bay _ _ _ _).trans (if_pos rfl)
  have held : (s.bay b).unconfirmed = true ↔ (s.bay b).grant < (s.bay b).allowance := by simp [Bay.unconfirmed, clear]
  unfold State.confirm State.resolve
  refine if_congr held ?_ rfl
  rw [if_neg (by rw [lowered]; simp [clear])]
  simp [State.confirmedBay, clear, State.setAllowance, State.modBay]

theorem State.confirm_resolves {s : State} {b : BayId} (h : s.resolvesAt b) :
    s.confirm b = (s.setBay b (s.confirmedBay b)).release := by
  rw [State.confirm_of_reduction h.1, State.releaseIfResolved, if_pos ((s.allResolved_setBay b rfl).2 h.2)]

/-- A confirmation that releases nothing touches its bay alone. -/
theorem State.confirm_settles {s : State} {b : BayId} (h : s.pendingList = [] ∨ ¬ s.resolvesAt b) :
    s.confirm b = if (s.bay b).reduction = true ∨ (s.bay b).grant < (s.bay b).allowance then
      s.setBay b (s.confirmedBay b) else s := by
  cases marked : (s.bay b).reduction with
  | false =>
    rw [State.confirm_of_no_reduction marked]
    simp
  | true =>
    rw [State.confirm_of_reduction marked, if_pos (.inl rfl), State.releaseIfResolved]
    split
    · rename_i all
      refine State.release_of_nil (h.resolve_right fun unresolved => unresolved ⟨marked, ?_⟩)
      exact (s.allResolved_setBay b rfl).1 all
    · rfl

theorem PortMoves.wrote {x y : Port} (h : PortMoves x y) (params : List Byte) (r : ResultCode) :
    PortMoves (x.wrote params r) (y.wrote params r) := by
  obtain ⟨same, raised, summary, marks, off⟩ := h
  refine ⟨?_, raised, summary, marks, off⟩
  rw [same]
  rfl

/-- Every port after a write-type command whose effects on the ports are moves. -/
theorem State.wrote_moves {s t : State} (moves : ∀ q, PortMoves (s.port q) (t.port q)) (p q : PortId) (params : List Byte)
    (r : ResultCode) : PortMoves (if q = p then (s.port p).wrote params r else s.port q)
      ((t.setPort p ((t.port p).wrote params r)).port q) := by
  rw [State.setPort_port]
  split
  · exact (moves p).wrote params r
  · exact moves q

/-- The bays of a last confirmation are those of the walk it starts (R123, R129). -/
theorem State.resolvesAt.walk {s : State} {b : BayId} (h : s.resolvesAt b) :
    s.confirm b = { s with bays := (s.confirm b).bays, ports := (s.confirm b).ports, pendingList := [] } ∧
      ReleaseWalk s.pendingList (s.setBay b (s.confirmedBay b)) (s.confirm b) ∧ s.grantsNoticed (s.confirm b) := by
  rw [State.confirm_resolves h]
  refine ⟨(s.setBay b (s.confirmedBay b)).release_eq,
    State.release_walk (s := s.setBay b (s.confirmedBay b)) ⟨rfl, rfl, rfl, rfl⟩, fun a q differs takes => ?_⟩
  refine (s.setBay b (s.confirmedBay b)).release_noticed a q (fun same => differs (same.trans ?_)) takes
  rw [State.setBay_bay]
  split
  · rename_i own
    rw [own]
    rfl
  · rfl

theorem State.resolvesAt.confirmedBay {s : State} {b : BayId} (h : s.resolvesAt b) : s.confirmedBay b =
    { s.bay b with
      allowance := (s.bay b).grant, power := s.powerOf b (s.bay b).grant, reduction := false, confirmTimer := none } := by
  rw [State.confirmedBay, if_pos h.1]

/-! ### A report's current compared with the grant (R123, R130) -/

section Streak

variable (s : State) (b : BayId) (n : Nat)

theorem State.setOverdrawStreak_bay (a : BayId) :
    (s.setOverdrawStreak b n).bay a = { s.bay a with overdrawStreak := if a = b then n else (s.bay a).overdrawStreak } := by
  rw [State.setOverdrawStreak, State.modBay_bay]
  split
  · rename_i own
    rw [own]
  · rfl

theorem State.setOverdrawStreak_powerOf (a : BayId) (v : Nat) : (s.setOverdrawStreak b n).powerOf a v = s.powerOf a v := by
  refine State.powerOf_congr (s := s) (t := s.setOverdrawStreak b n) rfl ?_ ?_ ?_ v <;> rw [State.setOverdrawStreak_bay]

theorem State.setOverdrawStreak_releaseFits (a : BayId) (v : Nat) :
    (s.setOverdrawStreak b n).releaseFits a v = s.releaseFits a v := by
  unfold State.releaseFits State.totalPower Bay.releaseAllowance
  simp only [State.setOverdrawStreak_bay, State.setOverdrawStreak_powerOf]
  rfl

theorem State.setOverdrawStreak_releaseValue (x : Increase) :
    (s.setOverdrawStreak b n).releaseValue x = s.releaseValue x := by
  unfold State.releaseValue
  simp only [State.setOverdrawStreak_bay, State.setOverdrawStreak_releaseFits]
  rfl

/-- A release reads no overdraw streak. -/
theorem State.setOverdrawStreak_releaseOne (x : Increase) :
    (s.setOverdrawStreak b n).releaseOne x = (s.releaseOne x).setOverdrawStreak b n := by
  cases value : s.releaseValue x with
  | none => rw [State.releaseOne_of_none value, State.releaseOne_of_none ((s.setOverdrawStreak_releaseValue b n x).trans value)]
  | some v =>
    rw [State.releaseOne_of_some value, State.releaseOne_of_some ((s.setOverdrawStreak_releaseValue b n x).trans value)]
    have bays : ((s.setOverdrawStreak b n).setBay x.bay ((s.setOverdrawStreak b n).raisedTo x.bay v)).bays =
        ((s.setBay x.bay (s.raisedTo x.bay v)).setOverdrawStreak b n).bays := by
      refine vector_ext fun a => ?_
      show State.bay _ a = State.bay _ a
      rw [State.setBay_bay, State.setOverdrawStreak_bay, State.setOverdrawStreak_bay, State.setBay_bay, State.raisedTo,
        State.setOverdrawStreak_powerOf, State.setOverdrawStreak_bay, State.raisedTo]
      split
      · rename_i own
        rw [own]
      · rfl
    exact congrArg (fun v => ({ s with bays := v } : State).notify .grant (.bay x.bay)) bays

theorem State.setOverdrawStreak_releaseAll (l : List Increase) :
    l.foldl State.releaseOne (s.setOverdrawStreak b n) = (l.foldl State.releaseOne s).setOverdrawStreak b n := by
  induction l generalizing s with
  | nil => rfl
  | cons x l ih => rw [List.foldl_cons, List.foldl_cons, State.setOverdrawStreak_releaseOne, ih]

theorem State.setOverdrawStreak_release : (s.setOverdrawStreak b n).release = s.release.setOverdrawStreak b n :=
  congrArg (fun t : State => { t with pendingList := [] }) (s.setOverdrawStreak_releaseAll b n s.pendingList)

end Streak

theorem tolerance_eq (g : Nat) : tolerance g = max 10 ((g * 5 + 99) / 100) := rfl

theorem upTo5_eq (n : Nat) : upTo5 n = (n + 4) / 5 * 5 := rfl

section Compared

variable (s : State) (b : BayId) (current : Nat)

/-- Within the tolerance the report confirms, and the streak is broken. -/
theorem State.compareCurrent_within {s : State} {b : BayId} {current : Nat}
    (within : current ≤ (s.bay b).grant + tolerance (s.bay b).grant) :
    s.compareCurrent b current = (s.confirm b).setOverdrawStreak b 0 := if_pos within

theorem State.compareCurrent_above {s : State} {b : BayId} {current : Nat}
    (above : ¬ current ≤ (s.bay b).grant + tolerance (s.bay b).grant) :
    s.compareCurrent b current = s.overdrawn b current := if_neg above

/-- The last confirmation of a report is a release in which the streak is broken already. -/
theorem State.resolvesAt.reported {s : State} {b : BayId} (h : s.resolvesAt b) :
    (s.confirm b).setOverdrawStreak b 0 = (s.setBay b { s.confirmedBay b with overdrawStreak := 0 }).release := by
  rw [State.confirm_resolves h, ← State.setOverdrawStreak_release]
  exact congrArg State.release (State.modBay_setBay _ _ _ _)

theorem State.resolvesAt.reportedWalk {s : State} {b : BayId} (h : s.resolvesAt b) :
    let t := (s.confirm b).setOverdrawStreak b 0
    t = { s with bays := t.bays, ports := t.ports, pendingList := [] } ∧
      ReleaseWalk s.pendingList (s.setBay b { s.confirmedBay b with overdrawStreak := 0 }) t ∧ s.grantsNoticed t := by
  dsimp only
  rw [h.reported]
  generalize kept : ({ s.confirmedBay b with overdrawStreak := 0 } : Bay) = y
  refine ⟨(s.setBay b y).release_eq, State.release_walk (s := s.setBay b y) ⟨rfl, rfl, rfl, rfl⟩, fun a q differs takes => ?_⟩
  refine (s.setBay b y).release_noticed a q (fun same => differs (same.trans ?_)) takes
  rw [State.setBay_bay]
  split
  · rename_i own
    rw [own, ← kept]
    rfl
  · rfl

/-- A report's confirmation that releases nothing touches its bay alone. -/
theorem State.reported_settles {s : State} {b : BayId} (h : s.pendingList = [] ∨ ¬ s.resolvesAt b) :
    (s.confirm b).setOverdrawStreak b 0 = s.setBay b
      (if (s.bay b).reduction = true ∨ (s.bay b).grant < (s.bay b).allowance then { s.confirmedBay b with overdrawStreak := 0 }
        else { s.bay b with overdrawStreak := 0 }) := by
  rw [State.confirm_settles h]
  split
  · exact State.modBay_setBay _ _ _ _
  · rfl

/-- A bay whose allowance overdraw raises, with its streak broken (R130, step 2). -/
def State.overdrawnBay : Bay := { s.bay b with
  allowance := max (s.bay b).allowance (upTo5 current)
  power := if (s.bay b).allowance < upTo5 current then s.powerOf b (upTo5 current) else (s.bay b).power
  overdrawStreak := 0 }

theorem State.raiseAllowance_eq : (s.raiseAllowance b current).setOverdrawStreak b 0 = { s with
    bays := s.bays.set b (s.overdrawnBay b current)
    ports := if (s.bay b).allowance < upTo5 current then updateAll s.ports fun _ y => y.deliver .grant (.bay b) else s.ports } := by
  unfold State.raiseAllowance
  by_cases raises : (s.bay b).allowance < upTo5 current
  · rw [if_pos raises, if_pos raises, State.overdrawnBay, if_pos raises, Nat.max_eq_right raises.le]
    exact congrArg (·.notify .grant (.bay b)) (State.modBay_setBay s b
      { s.bay b with allowance := upTo5 current, power := s.powerOf b (upTo5 current) } fun x => { x with overdrawStreak := 0 })
  · rw [if_neg raises, if_neg raises, State.overdrawnBay, if_neg raises, Nat.max_eq_left (by omega)]
    rfl

theorem State.overdrawn_first {s : State} {b : BayId} (first : (s.bay b).overdrawStreak = 0) (current : Nat) :
    s.overdrawn b current = s.setBay b { s.bay b with overdrawStreak := 1 } := by
  unfold State.overdrawn
  rw [first]
  rfl

theorem State.overdrawn_second {s : State} {b : BayId} (second : 1 ≤ (s.bay b).overdrawStreak) (current : Nat) :
    ∃ ports, s.overdrawn b current = { s with
        bays := s.bays.set b { s.overdrawnBay b current with counters := ((s.bay b).afterCount .overdraw).counters }
        ports := if (s.bay b).allowance < upTo5 current then updateAll ports fun _ y => y.deliver .grant (.bay b) else ports } := by
  obtain ⟨ports, counted⟩ := s.count_eq b .overdraw
  have own : (s.count b .overdraw).bay b = (s.bay b).afterCount .overdraw := by
    rw [counted]
    exact (get_set _ _ _ _).trans (if_pos rfl)
  have power (v : Nat) : (s.count b .overdraw).powerOf b v = s.powerOf b v := by
    refine State.powerOf_congr (s := s) (t := s.count b .overdraw) (by rw [counted]) ?_ ?_ ?_ v <;> rw [own, Bay.afterCount]
  have raised : s.overdrawn b current = ((s.count b .overdraw).raiseAllowance b current).setOverdrawStreak b 0 :=
    if_neg (by omega)
  refine ⟨ports, raised.trans ?_⟩
  rw [State.raiseAllowance_eq, State.overdrawnBay, power, own, counted]
  simp only [Vector.set_set]
  rfl

end Compared

/-- The three outcomes of a report's current, as Safety.lean says them (R53, R123, R129, R130). -/
theorem State.compareCurrent_comparedTo (s : State) (b : BayId) (current : Nat) :
    s.comparedTo b current (s.compareCurrent b current) := by
  unfold State.comparedTo
  intro x within rounded confirmed resolves
  have moves := (s.compareCurrent_evolves b current).ports
  refine ⟨moves, fun ⟨near, last⟩ => ?_, fun unresolved => ?_⟩
  · have outcome := State.resolvesAt.reportedWalk last
    rw [← State.compareCurrent_within near] at outcome
    exact outcome
  · by_cases near : within
    · have settled := State.reported_settles (s := s) (b := b) (.inr fun last => unresolved ⟨near, last⟩)
      rw [← State.compareCurrent_within near] at settled
      rw [settled]
      refine ⟨rfl, fun a other => ?_, fun _ => ⟨rfl, ?_⟩, fun far => absurd near far, fun far => absurd near far⟩
      · rw [State.setBay_bay, if_neg other]
      · exact State.setBay_bay_self _ _ _
    · have above := State.compareCurrent_above near
      rcases Nat.eq_zero_or_pos x.overdrawStreak with first | second
      · rw [above, State.overdrawn_first first]
        refine ⟨rfl, fun a other => ?_, fun h => absurd h near, fun _ _ => ⟨rfl, State.setBay_bay_self _ _ _⟩, fun _ h => by omega⟩
        rw [State.setBay_bay, if_neg other]
      · obtain ⟨ports, raised⟩ := State.overdrawn_second second current
        have own : (s.overdrawn b current).bay b =
            { s.overdrawnBay b current with counters := ((s.bay b).afterCount .overdraw).counters } := by
          rw [raised]
          exact (get_set _ _ _ _).trans (if_pos rfl)
        have counters : ((s.overdrawn b current).bay b).counters = ((s.bay b).afterCount .overdraw).counters := by rw [own]
        rw [above] at moves ⊢
        refine ⟨?_, fun a other => ?_, fun h => absurd h near, fun _ h => by omega, fun _ _ => ⟨?_, ?_, fun k other => ?_,
          fun raises q takes => ?_⟩⟩
        · rw [raised]
        · rw [raised]
          exact (get_set _ _ _ _).trans (if_neg other)
        · rw [counters, own]
          rfl
        · rw [counters]
          exact Bay.afterCount_own _ _
        · rw [counters]
          exact Bay.afterCount_other _ _ other
        · have last : (s.overdrawn b current).port q = ports[q].deliver .grant (.bay b) := by
            rw [raised]
            exact (congrArg (·[q]) (if_pos raises)).trans (get_updateAll _ _ _)
          exact (moves q).raises_last last takes

theorem clampInt_eq {low high : Int} (h : low ≤ high) (n : Int) : clampInt low high n = min high (max low n) := by
  unfold clampInt
  split_ifs <;> omega

/-- The power of a current at an EMPTY bay (R104). -/
theorem State.powerOf_empty {s : State} {b : BayId} (empty : (s.bay b).stage = .empty) (v : Nat) :
    s.powerOf b v = (v * 9999 + 699) / 700 := by
  unfold State.powerOf State.powerTerms
  rw [if_pos (by simp [empty])]
  rfl

theorem reportOf_current (params : List Byte) : (reportOf params).current = (min 2500 (max 0 (s16At params 1))).toNat := by
  unfold reportOf
  dsimp only
  rw [clampInt_eq (by decide)]

/-! ### The confirm timer (R126) -/

/-- A bay whose confirm timer gives up (R126, steps 1 and 2): the reduction is resolved, and the timeout counted. -/
def Bay.givenUp (x : Bay) : Bay := { x.afterCount .confirmTimeout with reduction := false, confirmTimer := none }

/-- The bay once it is faulted as well, unless it is EMPTY (R126, step 3). -/
def Bay.timedOut (x : Bay) : Bay :=
  if x.stage = .empty then x.givenUp
  else { x.givenUp with inhibits := addFlag x.inhibits Inhibit.fault.bit, grant := 0 }

theorem State.changeBay_ceases (s : State) (b : BayId) (f : Bay → Bay) (barred : (f (s.bay b)).eligible = false) :
    s.Ceases b (f (s.bay b)) (s.changeBay b f) := by
  refine ⟨s.ports, ?_⟩
  rw [State.changeBay_eq, barred, State.withoutBay]
  simp

theorem State.faultUnconfirmed_ceases (s : State) (b : BayId) :
    s.Ceases b { s.bay b with inhibits := addFlag (s.bay b).inhibits Inhibit.fault.bit, grant := 0 } (s.faultUnconfirmed b) := by
  have barred : ({ s.bay b with inhibits := addFlag (s.bay b).inhibits Inhibit.fault.bit, grant := 0 } : Bay).eligible = false :=
    Bay.eligible_of_inhibited (r := .fault) (by simp [Bay.carries])
  have changed := s.changeBay_ceases b (fun x => { x with inhibits := addFlag x.inhibits Inhibit.fault.bit, grant := 0 }) barred
  unfold State.faultUnconfirmed
  dsimp only
  split
  · exact (changed.notify _ _).notify _ _
  · exact changed.notify _ _

/-- The state of R126 before what waits is released. -/
def State.gaveUp (s : State) (b : BayId) : State :=
  let cleared := (s.count b .confirmTimeout).modBay b fun x => { x with reduction := false, confirmTimer := none }
  if (s.bay b).stage == .empty then cleared else cleared.faultUnconfirmed b

theorem State.timeOut_eq (s : State) (b : BayId) : s.timeOut b = (s.gaveUp b).releaseIfResolved := rfl

theorem State.gaveUp_ceases (s : State) (b : BayId) : s.Ceases b (s.bay b).timedOut (s.gaveUp b) := by
  obtain ⟨ports, counted⟩ := s.count_eq b .confirmTimeout
  have cleared : (s.count b .confirmTimeout).modBay b (fun x => { x with reduction := false, confirmTimer := none }) =
      { s with bays := s.bays.set b (s.bay b).givenUp, ports := ports } := by
    rw [counted]
    simp only [State.modBay, State.setBay, State.bay, get_set, Vector.set_set]
    rfl
  unfold State.gaveUp
  rw [cleared]
  dsimp only
  generalize kept : ({ s with bays := s.bays.set b (s.bay b).givenUp, ports := ports } : State) = u
  have own : u.bay b = (s.bay b).givenUp := by
    rw [← kept]
    exact (get_set _ _ _ _).trans (if_pos rfl)
  by_cases empty : (s.bay b).stage = .empty
  · rw [if_pos (beq_iff_eq.2 empty), Bay.timedOut, if_pos empty, ← kept]
    have was : (s.bay b).eligible = false := by simp [Bay.eligible, empty, Stage.charging]
    refine ⟨ports, ?_⟩
    rw [State.withoutBay, was]
    simp
  · rw [if_neg (mt beq_iff_eq.1 empty), Bay.timedOut, if_neg empty]
    obtain ⟨after, faulted⟩ := u.faultUnconfirmed_ceases b
    refine ⟨after, ?_⟩
    have can : (s.bay b).givenUp.eligible = (s.bay b).eligible := rfl
    rw [faulted, State.withoutBay, own, can, ← kept, State.withoutBay]
    simp only [Vector.set_set]
    rfl

theorem State.Ceases.allResolved {s t : State} {b : BayId} {x : Bay} (h : s.Ceases b x t) (resolved : x.reduction = false) :
    t.allResolved = true ↔ ∀ a, a ≠ b → (s.bay a).reduction = false := by
  obtain ⟨ports, same⟩ := h
  rw [same]
  exact s.allResolved_setBay b resolved

/-- The notices of R126, step 3. -/
theorem State.faultUnconfirmed_noticed (s : State) (b : BayId) (q : PortId) :
    ((s.port q).role.takes .fault (.bay b) = true →
      hasFlag ((s.faultUnconfirmed b).port q).raised NoticeKind.fault.bit = true) ∧
    (0 < (s.bay b).grant → (s.port q).role.takes .grant (.bay b) = true →
      hasFlag ((s.faultUnconfirmed b).port q).raised NoticeKind.grant.bit = true) := by
  have port : (s.changeBay b fun x => { x with inhibits := addFlag x.inhibits Inhibit.fault.bit, grant := 0 }).port q = s.port q := by
    rw [State.changeBay_eq]
    rfl
  unfold State.faultUnconfirmed
  dsimp only
  rw [State.notify_port]
  refine ⟨fun takes => Port.deliver_raised ?_, fun lowers takes => ?_⟩
  · split
    · rw [State.notify_port, port, (PortMoves.deliver _ _ _).role]
      exact takes
    · rw [port]
      exact takes
  · rw [if_pos lowers, State.notify_port, port]
    exact (PortMoves.deliver _ _ _).raised _ (Port.deliver_raised takes)

theorem State.gaveUp_noticed {s : State} {b : BayId} (docked : (s.bay b).stage ≠ .empty) (q : PortId) :
    ((s.port q).role.takes .fault (.bay b) = true → hasFlag ((s.gaveUp b).port q).raised NoticeKind.fault.bit = true) ∧
    (0 < (s.bay b).grant → (s.port q).role.takes .grant (.bay b) = true →
      hasFlag ((s.gaveUp b).port q).raised NoticeKind.grant.bit = true) := by
  obtain ⟨ports, counted⟩ := s.count_eq b .confirmTimeout
  have noticed := State.faultUnconfirmed_noticed
    ((s.count b .confirmTimeout).modBay b fun x => { x with reduction := false, confirmTimer := none }) b q
  have role : (((s.count b .confirmTimeout).modBay b fun x => { x with reduction := false, confirmTimer := none }).port q).role =
      (s.port q).role := ((s.count_evolves b .confirmTimeout).ports q).role
  have grant : (((s.count b .confirmTimeout).modBay b fun x => { x with reduction := false, confirmTimer := none }).bay b).grant =
      (s.bay b).grant := by
    rw [State.modBay_bay, if_pos rfl, counted, State.bay, get_set, if_pos rfl]
  rw [role, grant] at noticed
  unfold State.gaveUp
  rw [if_neg (mt beq_iff_eq.1 docked)]
  exact noticed

theorem State.releaseIfResolved_bay (s : State) (a : BayId) : ∃ g n p,
    s.releaseIfResolved.bay a = { s.bay a with grant := g, allowance := n, power := p } := by
  unfold State.releaseIfResolved
  split
  · exact State.releaseAll_bay s.pendingList s a
  · exact ⟨_, _, _, rfl⟩

theorem State.releaseIfResolved_eq (s : State) : ∃ bays pendingList ports, s.releaseIfResolved =
    { s with bays := bays, pendingList := pendingList, ports := ports } := by
  unfold State.releaseIfResolved
  split
  · exact ⟨_, _, _, s.release_eq⟩
  · exact ⟨s.bays, s.pendingList, s.ports, rfl⟩

theorem Bay.timedOut_counters (x : Bay) : x.timedOut.counters = (x.afterCount .confirmTimeout).counters := by
  unfold Bay.timedOut
  split <;> rfl

/-- A bay's counters after its confirm timer gave up: the walk that may follow leaves them. -/
theorem State.timeOut_counters (s : State) (b : BayId) :
    ((s.timeOut b).bay b).counters = ((s.bay b).afterCount .confirmTimeout).counters := by
  obtain ⟨g, n, p, walked⟩ := (s.gaveUp b).releaseIfResolved_bay b
  rw [State.timeOut_eq, walked, (s.gaveUp_ceases b).own]
  exact Bay.timedOut_counters _

end Sys2Proof.Machine

open Sys2Proof Sys2Proof.Machine

/-- Settles O30: an acknowledgement of the grant is a confirmation (State.confirm_resolves, State.confirm_settles). -/
theorem grantAckConfirms : Obligations.GrantAckConfirms := by
  unfold Obligations.GrantAckConfirms
  intro p params s b accepted named resolves
  have took {t : State} {r : ResultCode} (acts : (if u16At params 1 = (s.bay b).grant then (s.confirm b).reply .ok else s.reply .stale) =
      t.reply r) (moves : PortMoves (s.port p) (t.port p)) :
      exec (.grantAck p params) s = .next (t.setPort p ((t.port p).wrote params r)) :=
    congrArg Host.Outcome.next (State.clusterCommand_writes accepted rfl named acts moves)
  refine ⟨fun acknowledged resolved => ?_, fun acknowledged settled => ?_, fun other => took (if_neg other) (.refl _)⟩
  · obtain ⟨frame, walk, noticed⟩ := State.resolvesAt.walk resolved
    rw [State.resolvesAt.confirmedBay resolved] at walk
    refine ⟨_, took (if_pos acknowledged) ((s.confirm_evolves b).ports p), ?_, walk.of_bays rfl, fun a q differs takes => ?_,
      fun q => State.wrote_moves (s.confirm_evolves b).ports p q params .ok⟩
    · rw [frame]
      rfl
    · rw [State.wrote_raised]
      exact noticed a q differs takes
  · have confirmed := State.confirm_settles settled
    refine (took (if_pos acknowledged) ((s.confirm_evolves b).ports p)).trans ?_
    have port : (s.confirm b).port p = s.port p := by
      rw [confirmed]
      split <;> rfl
    rw [port, confirmed]
    rfl

/-- Settles O24: a report for an EMPTY bay is its current compared with the grant, and nothing else. -/
theorem reportForEmptyBay : Obligations.ReportForEmptyBay := by
  unfold Obligations.ReportForEmptyBay
  intro p params s b accepted named empty x current tolerated rounded resolves
  have took : exec (.report p params) s = .next ((s.compareCurrent b current).setPort p
      (((s.compareCurrent b current).port p).wrote params .ok)) := by
    refine congrArg Host.Outcome.next (State.clusterCommand_writes accepted rfl named ?_ ((s.compareCurrent_evolves b current).ports p))
    rw [if_pos (by simp [empty]), reportOf_current]
  have compared := s.compareCurrent_comparedTo b current
  obtain ⟨moves, -, unresolved⟩ := compared
  have power (v : Nat) : s.powerOf b v = (v * 9999 + 699) / 700 := State.powerOf_empty empty v
  have result : (((s.compareCurrent b current).setPort p (((s.compareCurrent b current).port p).wrote params .ok)).port p).lastResult =
    .ok := State.wrote_lastResult _ p params .ok
  refine ⟨fun resolved => ?_, fun settled => ⟨_, took, ?_⟩⟩
  · obtain ⟨near, last⟩ := resolved
    obtain ⟨frame, walk, noticed⟩ := State.resolvesAt.reportedWalk last
    rw [← State.compareCurrent_within near] at frame walk noticed
    rw [State.resolvesAt.confirmedBay last, power] at walk
    refine ⟨_, took, ?_, walk.of_bays rfl, fun a q differs takes => ?_, fun q => State.wrote_moves moves p q params .ok⟩
    · rw [frame]
      rfl
    · rw [State.wrote_raised]
      exact noticed a q differs takes
  · by_cases near : current ≤ x.grant + tolerated
    · have kept := State.reported_settles (s := s) (b := b) (settled.imp_right fun open' last => open' ⟨near, last⟩)
      rw [← State.compareCurrent_within near] at kept
      have ports (q : PortId) (other : q ≠ p) : ((s.compareCurrent b current).setPort p
          (((s.compareCurrent b current).port p).wrote params .ok)).port q = s.port q := by
        rw [State.setPort_port_ne _ _ other, kept]
        rfl
      have own : (s.compareCurrent b current).bay b = _ := kept ▸ State.setBay_bay_self _ _ _
      refine ⟨by rw [kept]; rfl, fun a other => ?_, fun _ held => ⟨own.trans ?_, ports⟩, fun _ clear low => ⟨own.trans ?_, ports⟩,
        fun far => absurd near (by omega), fun far => absurd near (by omega), result⟩
      · rw [State.setPort_bay, kept, State.setBay_bay, if_neg other]
      · rw [if_pos held, State.confirmedBay, power]
      · rw [if_neg (fun held => held.elim (Bool.eq_false_iff.1 clear) (Nat.not_lt.2 low))]
    · obtain ⟨frame, others, -, first, second⟩ := unresolved fun resolved => near resolved.1
      have ports (same : (s.compareCurrent b current).ports = s.ports) (q : PortId) (other : q ≠ p) :
          ((s.compareCurrent b current).setPort p (((s.compareCurrent b current).port p).wrote params .ok)).port q = s.port q := by
        rw [State.setPort_port_ne _ _ other, State.port, same]
        rfl
      refine ⟨by rw [frame]; rfl, others, fun h => absurd h near, fun h => absurd h near, fun _ fresh => ?_, fun _ again => ?_, result⟩
      · obtain ⟨same, own⟩ := first near fresh
        exact ⟨own, ports same⟩
      · obtain ⟨own, counted, others, noticed⟩ := second near again
        rw [power] at own
        refine ⟨own, counted, others, fun raises q takes => ?_⟩
        rw [State.wrote_raised]
        exact noticed raises q takes

/-- Settles O48: the state before the release is said by State.gaveUp_ceases, and what waits is released from there where no reduction is
left unresolved. -/
theorem confirmTimerGivesUp : Obligations.ConfirmTimerGivesUp := by
  unfold Obligations.ConfirmTimerGivesUp
  intro s b x waiting released
  refine ⟨fun running due => ?_, fun idle => congrArg Host.Outcome.next (if_neg (timerDue_iff.not.2 (by tauto)))⟩
  have ran : exec (.confirmTimerExpiry b) s = .next (s.timeOut b) := congrArg Host.Outcome.next (if_pos (timerDue_iff.2 ⟨running, due⟩))
  refine ⟨_, ran, ?_⟩
  intro resolved left
  have moves := (s.timeOut_evolves b).ports
  have ceases := s.gaveUp_ceases b
  have counters := s.timeOut_counters b
  have leftIs : left = x.timedOut := by
    show (if x.stage = .empty then resolved else _) = _
    unfold Bay.timedOut
    refine if_congr Iff.rfl ?_ ?_
    · rw [show resolved = { x with reduction := false, confirmTimer := none, counters := _ } from rfl, counters]
      rfl
    · rw [show resolved = { x with reduction := false, confirmTimer := none, counters := _ } from rfl, counters]
      rfl
  have all := ceases.allResolved (by unfold Bay.timedOut; split <;> rfl)
  have later (q : PortId) : PortMoves ((s.gaveUp b).port q) ((s.timeOut b).port q) :=
    (s.gaveUp b).releaseIfResolved_evolves.ports q
  refine ⟨?_, fun waits => ?_, fun resolves => ?_, fun docked => ⟨fun q takes => ?_, fun lowers q takes => ?_⟩, ?_, fun k other => ?_,
    moves⟩
  · obtain ⟨bays, pendingList, ports, freed⟩ := (s.gaveUp b).releaseIfResolved_eq
    rw [State.timeOut_eq, freed, ceases.frame]
  · have stands : s.timeOut b = s.gaveUp b := if_neg (mt all.1 waits)
    rw [stands, leftIs]
    refine ⟨?_, fun a => ?_⟩
    · rw [ceases.frame]
      rfl
    · split
      · rename_i own
        rw [own, ceases.own]
      · rename_i other
        exact ceases.other other
  · have frees : s.timeOut b = (s.gaveUp b).release := if_pos (all.2 resolves)
    rw [frees, leftIs]
    obtain ⟨ports, gave⟩ := ceases
    have walk := State.release_walk (s := s.gaveUp b) (u := s.setBay b x.timedOut) (by rw [gave]; exact ⟨rfl, rfl, rfl, rfl⟩)
    have waits : (s.gaveUp b).pendingList = waiting := congrArg State.pendingList gave
    have bays (a : BayId) : (s.gaveUp b).bay a = (s.setBay b x.timedOut).bay a := by
      rw [gave]
      rfl
    rw [waits] at walk
    refine ⟨rfl, walk, fun a q differs takes => (s.gaveUp b).release_noticed a q (by rw [bays]; exact differs) ?_⟩
    have role : ((s.gaveUp b).port q).role = (s.port q).role := by
      rw [← (later q).role, (moves q).role]
    exact role ▸ takes
  · exact (later q).raised _ ((State.gaveUp_noticed docked q).1 takes)
  · exact (later q).raised _ ((State.gaveUp_noticed docked q).2 lowers takes)
  · rw [counters]
    exact Bay.afterCount_own _ _
  · rw [counters]
    exact Bay.afterCount_other _ _ other

end

section
/-!
HOLD, RESUME and the zone commands (R91, R93, R95, R96): what a walk over every bay makes of the bays, of the request for a pass and of
the pending increases.
-/

namespace Sys2Proof.Machine

/-! ### A walk over the bays -/

/-- A visit that changes its bay by g, requests a pass where m says so, and drops the bay's increase where d says so. -/
def State.Visited (s : State) (b : BayId) (g : Bay → Bay) (m d : Bay → Bool) (t : State) : Prop :=
  ∃ ports, t = { s with
    bays := s.bays.set b (g (s.bay b)), passMark := s.passMark || m (s.bay b), ports := ports
    pendingList := s.pendingList.filter fun x => !(x.bay == b && d (s.bay b)) }

/-- The walk of such visits over some bays, each visited once. -/
theorem State.foldl_visited {s : State} {visit : State → BayId → State} {g : Bay → Bay} {m d : Bay → Bool}
    (each : ∀ (t : State) (b : BayId), t.site = s.site → t.Visited b g m d (visit t b)) (l : List BayId) (once : l.Nodup) (t : State)
    (site : t.site = s.site) :
    ∃ bays ports, l.foldl visit t = { t with
        bays := bays, ports := ports, passMark := t.passMark || l.any fun b => m (t.bay b)
        pendingList := t.pendingList.filter fun x => !(decide (x.bay ∈ l) && d (t.bay x.bay)) } ∧
      ∀ a, bays[a] = if a ∈ l then g (t.bay a) else t.bay a := by
  induction l generalizing t with
  | nil => exact ⟨t.bays, t.ports, by simp, fun a => rfl⟩
  | cons b l ih =>
    obtain ⟨fresh, rest⟩ := List.nodup_cons.mp once
    obtain ⟨ports, visited⟩ := each t b site
    obtain ⟨bays, after, walked, places⟩ := ih rest (visit t b) (by rw [visited, site])
    have other (a : BayId) (later : a ∈ l) : (visit t b).bay a = t.bay a := by
      rw [visited]
      exact (get_set _ _ _ _).trans (if_neg (ne_of_mem_of_not_mem later fresh))
    have requests : (l.any fun a => m ((visit t b).bay a)) = l.any fun a => m (t.bay a) := by
      rw [Bool.eq_iff_iff]
      simp only [List.any_eq_true]
      exact exists_congr fun a => and_congr_right fun later => by rw [other a later]
    refine ⟨bays, after, ?_, fun a => ?_⟩
    · rw [List.foldl_cons, walked, requests, visited]
      simp only [List.filter_filter, List.any_cons, Bool.or_assoc]
      congr 1
      refine List.filter_congr fun x _ => ?_
      by_cases own : x.bay = b
      · rw [own]
        simp [fresh]
      · by_cases later : x.bay ∈ l
        · rw [← visited, other _ later]
          simp [own, later]
        · simp [own, later]
    · rw [places]
      by_cases own : a = b
      · subst own
        rw [if_neg fresh, if_pos List.mem_cons_self, visited]
        exact (get_set _ _ _ _).trans (if_pos rfl)
      · by_cases later : a ∈ l
        · rw [if_pos later, if_pos (List.mem_cons_of_mem b later), other a later]
        · rw [if_neg later, if_neg (by simp [own, later]), visited]
          exact (get_set _ _ _ _).trans (if_neg own)

/-- The walk over every bay. -/
theorem State.allBays_visited {s : State} {visit : State → BayId → State} {g : Bay → Bay} {m d : Bay → Bool}
    (each : ∀ (t : State) (b : BayId), t.site = s.site → t.Visited b g m d (visit t b)) :
    ∃ ports, allBays.foldl visit s = { s with
        bays := updateAll s.bays fun _ x => g x, ports := ports, passMark := s.passMark || allBays.any fun b => m (s.bay b)
        pendingList := s.pendingList.filter fun x => !d (s.bay x.bay) } := by
  obtain ⟨bays, ports, walked, places⟩ := State.foldl_visited each allBays (List.nodup_finRange 16) s rfl
  refine ⟨ports, walked.trans ?_⟩
  have all : bays = updateAll s.bays fun _ x => g x := vector_ext fun a => by
    rw [places, if_pos (mem_allBays a), get_updateAll]
    rfl
  simp [all, mem_allBays]

/-! ### HOLD and RESUME (R91, R93) -/

/-- A bay at HOLD (R91, step 3). -/
def Bay.atHold (x : Bay) (timeout : Nat) : Bay := if x.stage = .empty then x else x.inhibited .hold timeout

theorem Bay.eligible_of_empty {x : Bay} (empty : x.stage = .empty) : x.eligible = false := by
  simp [Bay.eligible, empty, Stage.charging]

theorem State.filter_of_eligible (s : State) (b : BayId) :
    (if (s.bay b).eligible = true then s.pendingList.filter fun x => x.bay != b else s.pendingList) =
      s.pendingList.filter fun x => !(x.bay == b && (s.bay b).eligible) := by
  cases (s.bay b).eligible <;> simp [bne]

theorem State.holdBay_visited (t : State) (b : BayId) :
    t.Visited b (fun x => x.atHold t.site.confirmTimeout) Bay.eligible Bay.eligible (t.holdBay b) := by
  unfold State.holdBay Bay.atHold
  by_cases empty : (t.bay b).stage = .empty
  · rw [if_pos (beq_iff_eq.2 empty)]
    refine ⟨t.ports, ?_⟩
    dsimp only
    rw [if_pos empty, Bay.eligible_of_empty empty]
    simp [State.bay]
  · rw [if_neg (mt beq_iff_eq.1 empty)]
    refine ⟨(t.addInhibit b .hold).ports, (t.addInhibit_eq b .hold).trans ?_⟩
    rw [State.filter_of_eligible]
    dsimp only
    rw [if_neg empty]

/-- One visit of the walk that removes an inhibit: a bay that does not carry it stands. -/
theorem State.removeCarried_eq (t : State) (b : BayId) (r : Inhibit) :
    (if (t.bay b).carries r then t.removeInhibit b r else t) = { t with
      bays := t.bays.set b ((t.bay b).uninhibited r)
      passMark := t.passMark || (((t.bay b).uninhibited r).eligible && !(t.bay b).eligible) } := by
  cases carries : (t.bay b).carries r with
  | true => exact t.removeInhibit_eq b r
  | false =>
    rw [Bay.uninhibited_of_not carries]
    simp [State.bay]

theorem State.clearInhibit_eq (s : State) (r : Inhibit) : s.clearInhibit r = { s with
    bays := updateAll s.bays fun _ x => x.uninhibited r
    passMark := s.passMark || allBays.any fun b => ((s.bay b).uninhibited r).eligible && !(s.bay b).eligible } := by
  have stands (l : List BayId) (t : State) :
      (l.foldl (fun t b => if (t.bay b).carries r then t.removeInhibit b r else t) t).ports = t.ports := by
    induction l generalizing t with
    | nil => rfl
    | cons b l ih =>
      rw [List.foldl_cons, ih, State.removeCarried_eq]
  obtain ⟨ports, walked⟩ := State.allBays_visited (s := s)
    (visit := fun t b => if (t.bay b).carries r then t.removeInhibit b r else t) (g := fun x => x.uninhibited r)
    (m := fun x => (x.uninhibited r).eligible && !x.eligible) (d := fun _ => false)
    fun t b _ => ⟨t.ports, by rw [State.removeCarried_eq]; simp⟩
  have same := stands allBays s
  unfold State.clearInhibit
  rw [walked] at same ⊢
  simp only at same
  simp [same]

theorem State.windDown_eq (s : State) : s.windDown = { s with
    bays := updateAll s.bays fun _ x => x.atHold s.site.confirmTimeout
    supply := { s.supply with hold := .windingDown, elapsed := none, windDown := some 10 }
    passMark := s.passMark || (allBays.any fun b => (s.bay b).eligible) || decide (0 < s.supply.passFigure)
    pendingList := s.pendingList.filter fun x => !(s.bay x.bay).eligible
    ports := updateAll (allBays.foldl State.holdBay s).ports fun _ y => y.deliver .supply .part } := by
  obtain ⟨ports, walked⟩ := State.allBays_visited (s := s) (visit := State.holdBay)
    (g := fun x => x.atHold s.site.confirmTimeout) (m := Bay.eligible) (d := Bay.eligible)
    fun t b site => site ▸ t.holdBay_visited b
  unfold State.windDown
  rw [walked]
  unfold State.resupply
  dsimp only
  rw [State.checkBudget_eq]
  rfl

theorem State.windDown_bay (s : State) (b : BayId) : s.windDown.bay b = (s.bay b).atHold s.site.confirmTimeout := by
  have bays : s.windDown.bays = updateAll s.bays fun _ x => x.atHold s.site.confirmTimeout := by rw [State.windDown_eq]
  exact (congrArg (·[b]) bays).trans (get_updateAll _ _ _)

theorem State.windDown_port (s : State) (q : PortId) :
    s.windDown.port q = ((allBays.foldl State.holdBay s).port q).deliver .supply .part := by
  rw [State.windDown_eq]
  exact get_updateAll _ _ _

theorem State.windDown_moves (s : State) (q : PortId) : PortMoves (s.port q) (s.windDown.port q) := by
  rw [State.windDown_port]
  exact ((Evolves.foldl State.holdBay (fun t b => t.holdBay_evolves b) allBays s).ports q).trans (.deliver _ _ _)

/-- RESUME in HELD (R93): HOLD leaves every bay and the ramp begins. -/
theorem State.resumed_eq (s : State) : (s.clearInhibit .hold).startRamp = { s with
    bays := updateAll s.bays fun _ x => x.uninhibited .hold
    supply := s.supply.startingRamp s.site.rampTime
    passMark := (s.passMark || allBays.any fun b => ((s.bay b).uninhibited .hold).eligible && !(s.bay b).eligible) ||
      decide ((s.setSupply (s.supply.startingRamp s.site.rampTime)).budget < s.supply.passFigure)
    ports := updateAll s.ports fun _ y => y.deliver .supply .part } := by
  rw [State.startRamp_eq, State.clearInhibit_eq]
  rfl

theorem State.resumed_port (s : State) (q : PortId) :
    ((s.clearInhibit .hold).startRamp).port q = (s.port q).deliver .supply .part := by
  rw [State.resumed_eq]
  exact get_updateAll _ _ _

theorem State.resumed_bay (s : State) (b : BayId) : ((s.clearInhibit .hold).startRamp).bay b = (s.bay b).uninhibited .hold := by
  have bays : ((s.clearInhibit .hold).startRamp).bays = updateAll s.bays fun _ x => x.uninhibited .hold := by rw [State.resumed_eq]
  exact (congrArg (·[b]) bays).trans (get_updateAll _ _ _)

/-- A bay becomes eligible as an inhibit leaves it, exactly where it carried it and nothing else bars it (R40). -/
theorem Bay.uninhibited_gains (x : Bay) (r : Inhibit) :
    ((x.uninhibited r).eligible && !x.eligible) = true ↔ x.carries r = true ∧ (x.uninhibited r).eligible = true := by
  cases carries : x.carries r with
  | true => simp [Bay.eligible_of_inhibited carries]
  | false => simp [Bay.uninhibited_of_not carries]

/-! ### The zone commands (R95, R96) -/

/-- A bay treated by its place in the zone (R96). -/
def State.rezonedBay (s : State) (b : BayId) : Bay :=
  if (s.bay b).stage = .empty then s.bay b
  else if s.supply.insideZone b then (s.bay b).uninhibited .restricted
  else if (s.bay b).carries .restricted then s.bay b
  else (s.bay b).inhibited .restricted s.site.confirmTimeout

theorem State.rezoneBay_bayIs (s : State) (b : BayId) : s.BayIs b (s.rezonedBay b) (s.rezoneBay b) := by
  unfold State.rezonedBay State.rezoneBay
  by_cases empty : (s.bay b).stage = .empty
  · rw [if_pos empty, if_pos (beq_iff_eq.2 empty)]
    exact .refl s b
  · rw [if_neg empty, if_neg (mt beq_iff_eq.1 empty)]
    by_cases inside : s.supply.insideZone b = true
    · rw [if_pos inside, if_pos inside, State.removeCarried_eq]
      exact ⟨_, _, _, rfl⟩
    · rw [if_neg inside, if_neg inside]
      split
      · exact .refl s b
      · exact s.addInhibit_bayIs b .restricted

theorem State.BaysAre.supply {s t : State} {v : Vector Bay 16} (h : s.BaysAre v t) : t.supply = s.supply := by
  obtain ⟨_, _, _, same⟩ := h
  rw [same]

theorem State.BaysAre.bays {s t : State} {v : Vector Bay 16} (h : s.BaysAre v t) : t.bays = v := by
  obtain ⟨_, _, _, same⟩ := h
  rw [same]

/-- Every bay, once the zone is re-evaluated. -/
theorem State.rezoneAll_baysAre (s : State) : s.BaysAre (Vector.ofFn s.rezonedBay) (allBays.foldl State.rezoneBay s) := by
  refine foldl_writes (Holds := s.BaysAre) (.refl s) fun w t b holds waits => ?_
  have visited := t.rezoneBay_bayIs b
  have own : t.bay b = s.bay b := (holds.bay b).trans waits
  have same : t.rezonedBay b = s.rezonedBay b := by
    unfold State.rezonedBay
    rw [own, holds.supply, holds.site]
  unfold State.BayIs at visited
  rw [same, holds.bays] at visited
  exact holds.trans visited

theorem State.rezone_eq (s : State) : ∃ pendingList ports, s.rezone = { s with
    bays := Vector.ofFn s.rezonedBay, passMark := true, pendingList := pendingList
    ports := updateAll ports fun _ y => y.deliver .supply .part } := by
  obtain ⟨_, pendingList, ports, walked⟩ := s.rezoneAll_baysAre
  refine ⟨pendingList, ports, ?_⟩
  unfold State.rezone
  rw [walked]
  rfl

theorem State.rezone_bay (s : State) (b : BayId) : s.rezone.bay b = s.rezonedBay b := by
  obtain ⟨_, _, rezoned⟩ := s.rezone_eq
  exact (congrArg (·.bay b) rezoned).trans (get_ofFn _ _)

theorem State.rezone_port (s : State) (q : PortId) : ∃ y : Port, s.rezone.port q = y.deliver .supply .part := by
  obtain ⟨_, ports, rezoned⟩ := s.rezone_eq
  exact ⟨ports[q], (congrArg (·.port q) rezoned).trans (get_updateAll _ _ _)⟩

/-- The zone switched off (R96). -/
theorem State.switchZoneOff_eq (s : State) : s.switchZoneOff = { s with
    supply := { s.supply with zoneOn := false }
    bays := updateAll s.bays fun _ x => x.uninhibited .restricted, passMark := true
    ports := updateAll s.ports fun _ y => y.deliver .supply .part } := by
  unfold State.switchZoneOff
  rw [State.clearInhibit_eq]
  rfl

theorem State.switchZoneOff_bay (s : State) (b : BayId) : s.switchZoneOff.bay b = (s.bay b).uninhibited .restricted := by
  have bays : s.switchZoneOff.bays = updateAll s.bays fun _ x => x.uninhibited .restricted := by rw [State.switchZoneOff_eq]
  exact (congrArg (·[b]) bays).trans (get_updateAll _ _ _)

/-- The part with the zone's ends written. -/
def State.zoned (s : State) (first last : BayId) : State := s.setSupply { s.supply with zoneFirst := first, zoneLast := last }

theorem State.setZone_of_off {s : State} (off : s.supply.zoneOn = false) (first last : BayId) :
    s.setZone first last = s.zoned first last := if_neg (by simp [off])

theorem State.setZone_of_on {s : State} (on : s.supply.zoneOn = true) (first last : BayId) :
    s.setZone first last = (s.zoned first last).rezone := if_pos on

theorem State.setZone_moves (s : State) (first last : BayId) (q : PortId) : PortMoves (s.port q) ((s.setZone first last).port q) := by
  cases on : s.supply.zoneOn with
  | false =>
    rw [State.setZone_of_off on]
    exact .refl _
  | true =>
    rw [State.setZone_of_on on]
    exact (s.zoned first last).rezone_evolves.ports q

end Sys2Proof.Machine

open Sys2Proof Sys2Proof.Machine

/-- Settles O34: HOLD is a walk that bars every bay that is not EMPTY, RESUME one that lifts HOLD from every bay (State.windDown_eq,
State.resumed_eq). -/
theorem holdAndResume : Obligations.HoldAndResume := by
  unfold Obligations.HoldAndResume
  refine ⟨fun p s accepted => ⟨fun on => ?_, fun off => ?_⟩, fun p s accepted => ⟨fun held => ?_, fun down => ?_, fun on => ?_⟩⟩
  · have took : exec (.hold p) s = .next (s.windDown.setPort p ((s.windDown.port p).wrote [] .ok)) := by
      refine congrArg Host.Outcome.next (State.transact_writes accepted rfl ?_ (s.windDown_moves p).lastResult)
      rcases on with on | on <;> rw [on]
    refine ⟨_, took, ?_, fun b => ?_, fun q other => ?_, State.wrote_lastResult _ p [] .ok, fun q on => ?_⟩
    · rw [State.windDown_eq, Bool.or_assoc, Bool.or_assoc, Bool.or_comm (decide _)]
      rfl
    · rw [State.setPort_bay, State.windDown_bay]
      rfl
    · rw [State.setPort_port_ne _ _ other]
      exact s.windDown_moves q
    · rw [State.wrote_raised]
      exact (s.windDown_moves q).raises_last (s.windDown_port q) (Role.takes_supply on)
  · refine congrArg Host.Outcome.next (State.transact_writes accepted rfl ?_ rfl)
    rcases off with off | off <;> rw [off]
  · intro lifted
    have took : exec (.resume p) s = .next (((s.clearInhibit .hold).startRamp).setPort p
        ((((s.clearInhibit .hold).startRamp).port p).wrote [] .ok)) := by
      refine congrArg Host.Outcome.next (State.transact_writes accepted rfl (by rw [held]) ?_)
      rw [State.resumed_port]
      exact (PortMoves.deliver _ _ _).lastResult
    refine ⟨_, took, ?_, fun b => ?_, ?_, fun q => State.wrote_port s _ p q _ [] .ok s.resumed_port⟩
    · rw [State.resumed_eq]
      rfl
    · rw [State.setPort_bay, State.resumed_bay]
      rfl
    · rw [State.setPort_passMark, State.resumed_eq]
      simp only [Bool.or_eq_true, List.any_eq_true, Bay.uninhibited_gains, decide_eq_true_eq, or_assoc, mem_allBays, true_and]
      rfl
  · exact congrArg Host.Outcome.next (State.transact_writes accepted rfl (by rw [down]) rfl)
  · refine congrArg Host.Outcome.next (State.transact_writes accepted rfl ?_ rfl)
    rcases on with on | on <;> rw [on]

/-- Settles O35: a zone command with the zone on is a walk that treats every bay by its place (State.rezone_bay). -/
theorem zoneCommandsRestrict : Obligations.ZoneCommandsRestrict := by
  unfold Obligations.ZoneCommandsRestrict
  intro p s inside rezoned
  have placed (u : State) (bays : u.bays = s.bays) (site : u.site = s.site) (b : BayId) :
      u.rezonedBay b = rezoned u.supply.zoneFirst.val u.supply.zoneLast.val b (s.bay b) := by
    unfold State.rezonedBay State.bay
    rw [bays, site]
    rfl
  refine ⟨fun params first last accepted one two => ?_, fun params accepted range => ?_, fun accepted off => ?_,
    fun accepted on => ?_, fun accepted on => ?_, fun accepted off => ?_⟩
  · have set : exec (.setZone p params) s = .next ((s.setZone first last).setPort p
        (((s.setZone first last).port p).wrote params .ok)) := by
      refine congrArg Host.Outcome.next (State.transact_writes accepted rfl ?_ ?_)
      · rw [one, two, index_val, index_val]
      · exact (s.setZone_moves first last p).lastResult
    refine ⟨_, set, ?_⟩
    cases on : s.supply.zoneOn with
    | false =>
      rw [State.setZone_of_off on]
      refine ⟨?_, fun b => rfl, fun _ => ⟨rfl, fun q => State.wrote_port s _ p q id params .ok fun _ => rfl⟩, fun h => absurd h (by decide)⟩
      rw [Bool.or_false]
      rfl
    | true =>
      have moves := s.setZone_moves first last
      rw [State.setZone_of_on on] at moves ⊢
      refine ⟨?_, fun b => ?_, fun h => absurd h (by decide), fun _ q takes => ?_⟩
      · obtain ⟨pendingList, ports, rezoned⟩ := (s.zoned first last).rezone_eq
        rw [rezoned, Bool.or_true]
        rfl
      · rw [State.setPort_bay, State.rezone_bay, placed (s.zoned first last) rfl rfl b, if_pos rfl]
        rfl
      · rw [State.wrote_raised]
        obtain ⟨y, last⟩ := (s.zoned first last).rezone_port q
        exact (moves q).raises_last last (Role.takes_supply takes)
  · refine congrArg Host.Outcome.next (State.transact_writes accepted rfl ?_ rfl)
    rcases range with far | far
    · rw [index_eq_none.2 far]
    · rw [index_eq_none.2 far]
      cases index 16 (byteAt params 0) <;> rfl
  · have took : exec (.zoneOn p) s = .next (s.switchZoneOn.setPort p ((s.switchZoneOn.port p).wrote [] .ok)) :=
      congrArg Host.Outcome.next (State.transact_writes accepted rfl (by rw [if_neg (by simp [off])])
        (((s.setSupply { s.supply with zoneOn := true }).rezone_evolves).ports p).lastResult)
    refine ⟨_, took, ?_, fun b => ?_⟩
    · obtain ⟨pendingList, ports, rezoned⟩ := (s.setSupply { s.supply with zoneOn := true }).rezone_eq
      rw [State.switchZoneOn, rezoned]
      rfl
    · rw [State.setPort_bay, State.switchZoneOn, State.rezone_bay]
      exact placed _ rfl rfl b
  · have port (q : PortId) : s.switchZoneOff.port q = (s.port q).deliver .supply .part := by
      rw [State.switchZoneOff_eq]
      exact get_updateAll _ _ _
    have took : exec (.zoneOff p) s = .next (s.switchZoneOff.setPort p ((s.switchZoneOff.port p).wrote [] .ok)) :=
      congrArg Host.Outcome.next (State.transact_writes accepted rfl (by rw [if_pos on])
        (by rw [port]; exact (PortMoves.deliver _ _ _).lastResult))
    refine ⟨_, took, ?_, fun b => ?_, fun q => State.wrote_port s _ p q _ [] .ok port⟩
    · rw [State.switchZoneOff_eq]
      rfl
    · rw [State.setPort_bay, State.switchZoneOff_bay]
      rfl
  · exact congrArg Host.Outcome.next (State.transact_writes accepted rfl (by rw [if_pos on]) rfl)
  · exact congrArg Host.Outcome.next (State.transact_writes accepted rfl (by rw [if_neg (by simp [off])]) rfl)

end

section
/-!
The figures of an allocation pass and its two fills (R104 to R115): the power, the caps and the urgency as their tables say, the order as
the sorted keys say, and each target of a fill as the largest that fits the pool left.
-/

namespace Sys2Proof.Machine

/-! ### The figures (R104, R106 to R112) -/

theorem ceilDiv_eq (a b : Nat) : ceilDiv a b = (a + b - 1) / b := by
  unfold ceilDiv
  rcases Nat.eq_zero_or_pos b with rfl | pos
  · simp
  · rw [Nat.add_sub_assoc pos]

theorem State.powerOf_powerIs (s : State) (b : BayId) (v : Nat) : s.powerIs b v (s.powerOf b v) := by
  unfold State.powerIs State.powerOf State.powerTerms
  simp only [ceilDiv_eq]
  refine ⟨fun unpriced => ?_, fun docked valid => ⟨fun silent => ?_, fun l last => ?_⟩⟩
  · rw [if_pos (by simpa using unpriced)]
  · rw [if_neg (by simp [docked, valid]), silent]
  · rw [if_neg (by simp [docked, valid]), Option.mem_def.1 last]

theorem State.capOf_capIs {s : State} {b : BayId} {i : SlotId} (slot : (s.bay b).slot = some i) :
    s.capIs b (s.record i) (s.capOf b) := by
  have docked : s.dockedRecord b = s.record i := by
    unfold State.dockedRecord
    rw [slot]
  unfold State.capIs State.capOf capBeforeRounding
  rw [docked]
  simp only [beq_iff_eq]
  refine ⟨fun absorb => ?_, fun equalise => ?_, fun other another => ?_⟩
  · rw [absorb]
    rfl
  · rw [equalise]
    rfl
  · cases stage : (s.bay b).stage with
    | absorb => exact absurd stage other
    | equalise => exact absurd stage another
    | _ => rfl

theorem weekMinutes_eq (earlier later : Nat) : (weekMinutes earlier later : Int) = minutesFrom earlier later := by
  unfold weekMinutes minutesFrom
  omega

/-- The seconds to departure of an entry in a window (R111), in whole numbers. -/
theorem Entry.secondsTo_eq (x : Entry) (site : Site) (c : Clock) : x.secondsTo site c =
    if minutesFrom x.minute c.minute ≤ site.grace then -(minutesFrom x.minute c.minute * 60 + c.second)
    else minutesFrom c.minute x.minute * 60 - c.second := by
  unfold Entry.secondsTo Entry.windowAt Entry.timeSince Entry.timeTo
  simp only [← weekMinutes_eq, Nat.cast_le]
  by_cases due : weekMinutes x.minute c.minute ≤ site.grace
  · simp only [if_pos due]
    push_cast
    rfl
  · simp only [if_neg due]
    split
    · split at * <;> contradiction
    · push_cast
      rfl

/-- An entry in one of its windows (R142). -/
theorem State.inWindow_iff {s : State} {c : Clock} (clock : s.clock = some c) (e : EntryId) :
    (s.windowOf e == some .due || s.windowOf e == some .active) = true ↔ (s.entry e).valid = true ∧
      (minutesFrom (s.entry e).minute c.minute ≤ s.site.grace ∨ minutesFrom c.minute (s.entry e).minute ≤ s.site.horizon) := by
  unfold State.windowOf Entry.windowAt Entry.timeSince Entry.timeTo
  simp only [clock, ← weekMinutes_eq, Nat.cast_le]
  cases (s.entry e).valid with
  | false => simp
  | true =>
    by_cases due : weekMinutes (s.entry e).minute c.minute ≤ s.site.grace
    · simp [due]
    · by_cases active : weekMinutes c.minute (s.entry e).minute ≤ s.site.horizon
      · simp [due, active]
      · simp [due, active]

theorem urgencyOf_row (n : Nat) (d : Int) (cap a : Nat) : urgencyRow n d cap a (urgencyOf n d cap a) := by
  unfold urgencyRow urgencyOf
  simp only [ceilDiv_eq]
  refine ⟨fun none => if_pos none, fun some past => ?_, fun some ahead idle => ?_, fun some ahead runs => ?_⟩
  · rw [if_neg (by omega), if_pos past]
  · rw [if_neg (by omega), if_neg (by omega), if_pos idle]
  · rw [if_neg (by omega), if_neg (by omega), if_neg (by omega)]

theorem State.urgency_urgencyIs {s : State} {b : BayId} {i : SlotId} (slot : (s.bay b).slot = some i) :
    s.urgencyIs b (s.record i) (s.urgency b) := by
  have docked : s.dockedRecord b = s.record i := by
    unfold State.dockedRecord
    rw [slot]
  unfold State.urgencyIs State.urgency State.reservedFor
  rw [docked]
  refine ⟨fun none => ?_, fun c clock e reserved => ?_⟩
  · rcases none with none | none
    · rw [none]
      rfl
    · rw [none]
      cases s.clock <;> rfl
  · rw [Option.mem_def.1 clock, Option.mem_def.1 reserved]
    dsimp only
    have inWindow := State.inWindow_iff (Option.mem_def.1 clock) e
    refine ⟨fun outside => ?_, fun valid open' => ?_⟩
    · rw [if_neg]
      · rfl
      · rw [inWindow]
        rintro ⟨valid, near⟩
        rcases outside with invalid | ⟨late, early⟩
        · simp [valid] at invalid
        · omega
    · rw [if_pos (inWindow.2 ⟨valid, open'⟩)]
      refine ⟨_, rfl, ?_⟩
      dsimp only
      rw [State.needOf, docked, Entry.secondsTo_eq]
      exact urgencyOf_row _ _ _ _

theorem State.needRate_eq (s : State) (b : BayId) :
    (s.urgency b = none → s.needRate b = 0) ∧ ∀ r d, s.urgency b = some (r, d) → s.needRate b = r := by
  unfold State.needRate
  exact ⟨fun h => by rw [h]; rfl, fun r d h => by rw [h]; rfl⟩

theorem State.fixedLoad_eq (s : State) : s.fixedLoad = ((List.finRange 16).map fun b =>
    if (s.bay b).eligible = false ∨ (s.bay b).reduction = true ∨ (s.bay b).grant < (s.bay b).allowance then (s.bay b).power
    else 0).sum := by
  unfold State.fixedLoad allBays Bay.fixed
  simp only [Bool.or_eq_true, Bool.not_eq_true', decide_eq_true_eq, or_assoc]

theorem Bay.eligible_iff (x : Bay) : x.eligible = true ↔
    (x.stage = .bulk ∨ x.stage = .absorb ∨ x.stage = .equalise) ∧ x.inhibits = 0 ∧ x.report = .normal := by
  unfold Bay.eligible
  simp only [Bool.and_eq_true, beq_iff_eq, and_assoc]
  refine and_congr_left fun _ => ?_
  cases x.stage <;> simp [Stage.charging]

/-! ### One target of a fill (R114, R115) -/

theorem State.powerOf_zero (s : State) (b : BayId) : s.powerOf b 0 = 0 := by
  unfold State.powerOf
  rw [ceilDiv_eq, Nat.zero_mul, Nat.zero_add]
  rcases Nat.eq_zero_or_pos (10 * (s.powerTerms b).2) with none | some
  · rw [none]
  · exact Nat.div_eq_of_lt (by omega)

/-- The least current a bay charges with. -/
def State.leastOf (s : State) (b : BayId) : Nat := (s.profile (s.bay b).profile).minCurrent

theorem State.wanted_le (s : State) (b : BayId) : s.wanted b ≤ s.capOf b := by
  unfold State.wanted
  split
  · exact Nat.zero_le _
  · exact Nat.min_le_left _ _

/-- A target v of the first fill is the largest that fits the pool left (R114). -/
structure State.FirstFits (s : State) (pool : Nat) (b : BayId) (v : Nat) : Prop where
  wanted : v ≤ s.wanted b
  within : s.powerOf b v ≤ pool
  five : v % 5 = 0
  least : v = 0 ∨ s.leastOf b ≤ v
  largest : ∀ w, v < w → w % 5 = 0 → w ≤ s.wanted b → s.leastOf b ≤ w → pool < s.powerOf b w

theorem State.firstTarget_fits (s : State) (pool : Nat) (b : BayId) : s.FirstFits pool b (s.firstTarget pool b) := by
  have free : s.powerOf b 0 ≤ pool := by rw [s.powerOf_zero b]; exact Nat.zero_le _
  unfold State.firstTarget
  cases step : largestStep (fun v => s.powerOf b v ≤ pool) (s.wanted b / 5) with
  | none =>
    have zero : (if (none : Option Nat).getD 0 < (s.bayProfile b).minCurrent then 0 else (none : Option Nat).getD 0) = 0 := by simp
    dsimp only
    rw [zero]
    refine ⟨Nat.zero_le _, free, rfl, .inl rfl, fun w above five most _ => ?_⟩
    simpa using largestStep_none _ _ _ step five above (by omega)
  | some v =>
    obtain ⟨five, fits, pos, most⟩ := largestStep_spec _ _ _ step
    have larger (w : Nat) (above : v < w) (wFive : w % 5 = 0) (wMost : w ≤ s.wanted b) : pool < s.powerOf b w := by
      simpa using largestStep_most _ _ _ _ step wFive above (by omega)
    dsimp only [Option.getD_some]
    by_cases low : v < (s.bayProfile b).minCurrent
    · rw [if_pos low]
      exact ⟨Nat.zero_le _, free, rfl, .inl rfl, fun w above wFive wMost least => larger w (lt_of_lt_of_le low least) wFive wMost⟩
    · rw [if_neg low]
      exact ⟨by omega, by simpa using fits, five, .inr (Nat.not_lt.1 low), fun w above wFive wMost _ => larger w above wFive wMost⟩

/-- A target v of the second fill is the largest that fits the pool left, at or above that of the first (R115). -/
structure State.SecondFits (s : State) (pool : Nat) (t : Target) (v : Nat) : Prop where
  keeps : t.current ≤ v
  within : s.powerOf t.bay v - s.powerOf t.bay t.current ≤ pool
  capped : v = t.current ∨ v ≤ s.capOf t.bay ∧ (t.current ≠ 0 ∨ s.leastOf t.bay ≤ v)
  largest : ∀ w, v < w → w % 5 = 0 → w ≤ s.capOf t.bay → t.current ≠ 0 ∨ s.leastOf t.bay ≤ w →
    pool < s.powerOf t.bay w - s.powerOf t.bay t.current

/-- The test of the second fill (R115). -/
def State.secondTest (s : State) (pool : Nat) (t : Target) (v : Nat) : Bool :=
  t.current < v && s.powerOf t.bay v - s.powerOf t.bay t.current ≤ pool && (t.current != 0 || (s.bayProfile t.bay).minCurrent ≤ v)

theorem State.secondTest_iff (s : State) (pool : Nat) (t : Target) (v : Nat) : s.secondTest pool t v = true ↔
    t.current < v ∧ s.powerOf t.bay v - s.powerOf t.bay t.current ≤ pool ∧ (t.current ≠ 0 ∨ s.leastOf t.bay ≤ v) := by
  simp only [State.secondTest, State.leastOf, State.bayProfile, Bool.and_eq_true, Bool.or_eq_true, bne_iff_ne, ne_eq, and_assoc]
  exact and_congr decide_eq_true_iff (and_congr decide_eq_true_iff (or_congr Iff.rfl decide_eq_true_iff))

theorem State.secondTarget_fits (s : State) (pool : Nat) (t : Target) : s.SecondFits pool t (s.secondTarget pool t) := by
  have fails {w : Nat} (no : s.secondTest pool t w = false) (above : t.current < w)
      (least : t.current ≠ 0 ∨ s.leastOf t.bay ≤ w) : pool < s.powerOf t.bay w - s.powerOf t.bay t.current := by
    by_contra fits
    rw [(s.secondTest_iff pool t w).2 ⟨above, by omega, least⟩] at no
    contradiction
  have target : s.secondTarget pool t = (largestStep (s.secondTest pool t) (s.capOf t.bay / 5)).getD t.current := rfl
  rw [target]
  cases step : largestStep (s.secondTest pool t) (s.capOf t.bay / 5) with
  | none =>
    refine ⟨le_refl _, by simp, .inl rfl, fun w above five most least => fails ?_ above least⟩
    exact largestStep_none _ _ _ step five (by have := above; omega) (by omega)
  | some v =>
    obtain ⟨five, fits, pos, most⟩ := largestStep_spec _ _ _ step
    obtain ⟨above, within, least⟩ := (s.secondTest_iff pool t v).1 fits
    rw [Option.getD_some]
    refine ⟨above.le, within, .inr ⟨by omega, least⟩, fun w larger wFive wMost wLeast => fails ?_ (above.trans larger) wLeast⟩
    exact largestStep_most _ _ _ _ step wFive larger (by omega)

/-! ### The fills (R114, R115) -/

/-- The power of a target. -/
def State.targetPower (s : State) (x : Target) : Nat := s.powerOf x.bay x.current

theorem State.firstFill_cons (s : State) (pool : Nat) (b : BayId) (l : List BayId) :
    s.firstFill pool (b :: l) = ((s.firstFill (pool - s.powerOf b (s.firstTarget pool b)) l).1,
      ⟨b, s.firstTarget pool b⟩ :: (s.firstFill (pool - s.powerOf b (s.firstTarget pool b)) l).2) := rfl

theorem State.firstFill_bays (s : State) (l : List BayId) (pool : Nat) : (s.firstFill pool l).2.map (·.bay) = l := by
  induction l generalizing pool with
  | nil => rfl
  | cons b l ih => rw [State.firstFill_cons, List.map_cons, ih]

/-- The pool left is what the targets of the first fill leave. -/
theorem State.firstFill_left (s : State) (l : List BayId) (pool : Nat) :
    (s.firstFill pool l).1 + ((s.firstFill pool l).2.map s.targetPower).sum = pool := by
  induction l generalizing pool with
  | nil => rfl
  | cons b l ih =>
    have within := (s.firstTarget_fits pool b).within
    have rest := ih (pool - s.powerOf b (s.firstTarget pool b))
    rw [State.firstFill_cons, List.map_cons, List.sum_cons, State.targetPower]
    dsimp only
    omega

/-- Each target of the first fill is found in the pool that those before it leave. -/
theorem State.firstFill_each (s : State) (l : List BayId) (pool : Nat) (pre : List Target) (x : Target) (post : List Target)
    (place : (s.firstFill pool l).2 = pre ++ x :: post) : s.FirstFits (pool - (pre.map s.targetPower).sum) x.bay x.current := by
  induction l generalizing pool pre with
  | nil => simp [State.firstFill] at place
  | cons b l ih =>
    rw [State.firstFill_cons] at place
    cases pre with
    | nil =>
      obtain ⟨rfl, -⟩ := List.cons.inj place
      exact s.firstTarget_fits pool b
    | cons y pre =>
      obtain ⟨rfl, rest⟩ := List.cons.inj place
      have fits := ih _ pre rest
      rw [Nat.sub_sub] at fits
      exact fits

theorem State.secondFill_bays (s : State) (l : List Target) (pool : Nat) : (s.secondFill pool l).map (·.bay) = l.map (·.bay) := by
  induction l generalizing pool with
  | nil => rfl
  | cons t l ih => rw [State.secondFill, List.map_cons, List.map_cons, ih]

/-- The second fill spends no more than the pool left. -/
theorem State.secondFill_within (s : State) (l : List Target) (pool : Nat) :
    ((s.secondFill pool l).map s.targetPower).sum ≤ (l.map s.targetPower).sum + pool := by
  induction l generalizing pool with
  | nil => exact Nat.zero_le _
  | cons t l ih =>
    have within := (s.secondTarget_fits pool t).within
    have rest := ih (pool - (s.powerOf t.bay (s.secondTarget pool t) - s.powerOf t.bay t.current))
    rw [State.secondFill]
    simp only [List.map_cons, List.sum_cons, State.targetPower] at rest ⊢
    omega

/-- Each target of the second fill is found in the pool that those before it leave. -/
theorem State.secondFill_each (s : State) (l : List Target) (pool : Nat) (pre : List (Target × Target)) (y x : Target)
    (post : List (Target × Target)) (place : l.zip (s.secondFill pool l) = pre ++ (y, x) :: post) :
    x.bay = y.bay ∧ s.SecondFits (pool - (pre.map fun z => s.targetPower z.2 - s.targetPower z.1).sum) y x.current := by
  induction l generalizing pool pre with
  | nil => simp [State.secondFill] at place
  | cons t l ih =>
    rw [State.secondFill] at place
    cases pre with
    | nil =>
      obtain ⟨here, -⟩ := List.cons.inj place
      cases here
      exact ⟨rfl, s.secondTarget_fits pool y⟩
    | cons z pre =>
      obtain ⟨rfl, rest⟩ := List.cons.inj place
      obtain ⟨same, fits⟩ := ih _ pre rest
      rw [Nat.sub_sub] at fits
      exact ⟨same, fits⟩

theorem State.firstFill_mem (s : State) (l : List BayId) (pool : Nat) {y : Target} (mem : y ∈ (s.firstFill pool l).2) :
    ∃ left, s.FirstFits left y.bay y.current := by
  obtain ⟨pre, post, place⟩ := List.append_of_mem mem
  exact ⟨_, s.firstFill_each l pool pre y post place⟩

theorem State.secondFill_mem (s : State) (l : List Target) (pool : Nat) {x : Target} (mem : x ∈ s.secondFill pool l) :
    ∃ y ∈ l, ∃ left, x.bay = y.bay ∧ s.SecondFits left y x.current := by
  induction l generalizing pool with
  | nil => simp [State.secondFill] at mem
  | cons t l ih =>
    rw [State.secondFill] at mem
    rcases List.mem_cons.1 mem with rfl | later
    · exact ⟨t, List.mem_cons_self, pool, rfl, s.secondTarget_fits pool t⟩
    · obtain ⟨y, member, left, same⟩ := ih _ later
      exact ⟨y, List.mem_cons_of_mem t member, left, same⟩

/-- The targets of a pass's eligible bays are at most their caps, and 0 or at least the least current (R114, R115). -/
theorem State.filledTargets_bounds (s : State) {x : Target} (mem : x ∈ s.filledTargets) :
    x.current ≤ s.capOf x.bay ∧ (x.current = 0 ∨ s.leastOf x.bay ≤ x.current) := by
  obtain ⟨y, member, left, same, second⟩ := s.secondFill_mem _ _ mem
  obtain ⟨pool, first⟩ := s.firstFill_mem _ _ member
  have capped : y.current ≤ s.capOf y.bay := first.wanted.trans (s.wanted_le _)
  rw [same]
  rcases second.capped with stays | ⟨most, least⟩
  · rw [stays]
    exact ⟨capped, first.least⟩
  · refine ⟨most, .inr ?_⟩
    rcases least with some | least
    · exact (first.least.resolve_left some).trans second.keeps
    · exact least

theorem State.filledTargets_within (s : State) : (s.filledTargets.map s.targetPower).sum ≤ s.pool := by
  have first := s.firstFill_left s.allocationOrder s.pool
  have second := s.secondFill_within (s.firstFill s.pool s.allocationOrder).2 (s.firstFill s.pool s.allocationOrder).1
  unfold State.filledTargets
  dsimp only
  omega

theorem State.filledTargets_bays (s : State) : s.filledTargets.map (·.bay) = s.allocationOrder := by
  unfold State.filledTargets
  dsimp only
  rw [State.secondFill_bays, State.firstFill_bays]

/-! ### The allocation order (R113) -/

theorem State.mem_allocationOrder (s : State) (b : BayId) : b ∈ s.allocationOrder ↔ (s.bay b).eligible = true := by
  unfold State.allocationOrder sortByKey
  rw [List.mem_insertionSort, List.mem_filter]
  exact and_iff_right (mem_allBays b)

theorem State.allocationOrder_nodup (s : State) : s.allocationOrder.Nodup :=
  (List.perm_insertionSort _ _).nodup_iff.2 ((List.nodup_finRange 16).filter _)

theorem pairwise_sortByKey {α : Type} (key : α → List Int) (l : List α) :
    (sortByKey key l).Pairwise fun a b => keyLe (key a) (key b) = true := by
  have total : Std.Total fun a b => keyLe (key a) (key b) = true := ⟨fun a b => keyLe_total _ _⟩
  have trans : IsTrans α fun a b => keyLe (key a) (key b) = true := ⟨fun _ _ _ => keyLe_trans⟩
  exact List.pairwise_insertionSort (fun a b => keyLe (key a) (key b) = true) l

/-- A bay stands before another in the allocation order (R113). -/
def State.precedes (s : State) (a b : BayId) : Prop :=
  match s.urgency a, s.urgency b with
  | some (_, none), some (_, none) => a ≤ b
  | some (_, none), some (_, some _) => True
  | some (_, some _), some (_, none) => False
  | some (_, some u), some (_, some v) => u < v ∨ u = v ∧ a ≤ b
  | some _, none => True
  | none, some _ => False
  | none, none => (s.dockedRecord a).percent < (s.dockedRecord b).percent ∨
      (s.dockedRecord a).percent = (s.dockedRecord b).percent ∧ a ≤ b

theorem keyLe_cons (a b : Int) (as bs : List Int) : keyLe (a :: as) (b :: bs) = true ↔ a < b ∨ a = b ∧ keyLe as bs = true := by
  rw [keyLe]
  split_ifs with below above
  · simp [below]
  · simp [below]
    omega
  · have same : a = b := by omega
    simp [same]

theorem bay_le_iff (a b : BayId) : a ≤ b ↔ a < b ∨ (a.val : Int) = b.val ∧ keyLe [] [] = true := by
  rw [Fin.le_def, Fin.lt_def, and_iff_left (show keyLe [] [] = true from rfl)]
  omega

/-- The key of the order spells out what precedes (R113). -/
theorem State.precedes_of_key {s : State} {a b : BayId} (h : keyLe (s.orderKey a) (s.orderKey b) = true) : s.precedes a b := by
  unfold State.orderKey at h
  unfold State.precedes
  generalize s.urgency a = u at h ⊢
  generalize s.urgency b = v at h ⊢
  match u, v, h with
  | some (_, none), some (_, none), h => simpa [keyLe_cons, bay_le_iff] using h
  | some (_, none), some (_, some _), _ => trivial
  | some (_, some _), some (_, none), h => simp [keyLe_cons] at h
  | some (_, some _), some (_, some _), h => simpa [keyLe_cons, bay_le_iff] using h
  | some (_, none), none, _ => trivial
  | some (_, some _), none, _ => trivial
  | none, some (_, none), h => simp [keyLe_cons] at h
  | none, some (_, some _), h => simp [keyLe_cons] at h
  | none, none, h => simpa [keyLe_cons, bay_le_iff] using h

end Sys2Proof.Machine

open Sys2Proof Sys2Proof.Machine

/-- Settles O52: the figures are those of their tables, each target is the largest step that fits (State.FirstFits, State.SecondFits), and
the order is that of the sorted keys (State.precedes). -/
theorem fillsStayWithinThePool : Obligations.FillsStayWithinThePool := by
  unfold Obligations.FillsStayWithinThePool
  intro s
  refine ⟨s.filledTargets_within, fun fixed => Nat.sub_add_cancel fixed, fun x mem => ⟨?_, ?_, ?_⟩, s.filledTargets_bays,
    s.mem_allocationOrder, s.allocationOrder_nodup, fun b => (s.bay b).eligible_iff, s.powerOf_powerIs, s.fixedLoad_eq,
    fun above => Nat.sub_eq_zero_of_le above.le, fun b i slot => ⟨State.capOf_capIs slot, State.urgency_urgencyIs slot, ?_⟩,
    s.needRate_eq, ⟨s.firstFill_bays _ _, fun pre x post place => ?_, fun pre y x post place => ?_⟩, ?_⟩
  · rw [← s.mem_allocationOrder, ← s.filledTargets_bays]
    exact List.mem_map_of_mem mem
  · exact s.secondFill_five _ _ (s.firstFill_five _ _) x mem
  · exact s.filledTargets_bounds mem
  · unfold State.dockedRecord PackRecord.percent
    rw [slot]
  · have fits := s.firstFill_each _ _ pre x post place
    exact ⟨fits.wanted, fits.within, fits.five, fits.least, fits.largest⟩
  · obtain ⟨same, fits⟩ := s.secondFill_each _ _ pre y x post place
    have left := s.firstFill_left s.allocationOrder s.pool
    rw [show (s.firstFill s.pool s.allocationOrder).1 = s.pool - ((s.firstFill s.pool s.allocationOrder).2.map s.targetPower).sum by
      omega] at fits
    obtain ⟨bay, current⟩ := x
    subst same
    exact ⟨fits.keeps, fits.within, fits.largest⟩
  · exact (pairwise_sortByKey s.orderKey _).imp State.precedes_of_key

end

section
/-!
A REPORT as a whole (R51): what each of its steps keeps of the reading it records, of the other bays and of the other records.
-/

namespace Sys2Proof.Machine

/-! ### The reading recorded (R51, steps 1 and 2) -/

theorem State.recordReport_bay (s : State) (b a : BayId) (l : LastReport) (clamped : Bool) :
    (s.recordReport b l clamped).bay a =
      if a = b then { s.bay b with last := some l, sinceReport := 0, silence := 0, sensorLimit := clamped } else s.bay a := by
  unfold State.recordReport
  dsimp only
  split
  · exact (State.notify_bay _ _ _ _).trans (State.modBay_bay _ _ _ _)
  · exact State.modBay_bay _ _ _ _

theorem State.recordReport_eq (s : State) (b : BayId) (l : LastReport) (clamped : Bool) : s.recordReport b l clamped =
    { s with bays := (s.recordReport b l clamped).bays, ports := (s.recordReport b l clamped).ports } := by
  unfold State.recordReport
  dsimp only
  split <;> rfl

theorem State.returnToNormal_of_normal {s : State} {b : BayId} (normal : (s.bay b).report = .normal) : s.returnToNormal b = s :=
  if_pos (beq_iff_eq.2 normal)

/-- A bay that was silent reports again (R68): the bay may become eligible. -/
theorem State.returnToNormal_of_silent {s : State} {b : BayId} (silent : (s.bay b).report ≠ .normal) :
    s.returnToNormal b = { s with
      bays := s.bays.set b { s.bay b with report := .normal }
      passMark := s.passMark || ({ s.bay b with report := .normal } : Bay).eligible
      ports := updateAll s.ports fun _ y => y.deliver .bay (.bay b) } := by
  unfold State.returnToNormal
  rw [if_neg (mt beq_iff_eq.1 silent), State.changeBay_eq, Bay.ineligible_of_silent silent]
  simp only [Bool.bne_false, Bool.false_eq_true, false_and, if_false]
  rfl

theorem State.returnToNormal_bay (s : State) (b a : BayId) :
    (s.returnToNormal b).bay a = if a = b then { s.bay b with report := .normal } else s.bay a := by
  by_cases normal : (s.bay b).report = .normal
  · rw [State.returnToNormal_of_normal normal, ← normal]
    split
    · rename_i own
      rw [own]
    · rfl
  · rw [State.returnToNormal_of_silent normal]
    exact get_set _ _ _ _

theorem State.returnToNormal_record (s : State) (b : BayId) (i : SlotId) : (s.returnToNormal b).record i = s.record i := by
  by_cases normal : (s.bay b).report = .normal
  · rw [State.returnToNormal_of_normal normal]
  · rw [State.returnToNormal_of_silent normal]
    rfl

theorem State.returnToNormal_pendingList (s : State) (b : BayId) : (s.returnToNormal b).pendingList = s.pendingList := by
  by_cases normal : (s.bay b).report = .normal
  · rw [State.returnToNormal_of_normal normal]
  · rw [State.returnToNormal_of_silent normal]

/-! ### What the later steps keep (R51, steps 3 to 7) -/

/-- The fields of a bay that a report records, and those that say which pack stands there. -/
def Bay.reading (x : Bay) :
    Option LastReport × Nat × Nat × ReportState × Fin 6 × Tag × Option SlotId × ProfileId × Bool :=
  (x.last, x.sinceReport, x.silence, x.report, x.band, x.tag, x.slot, x.profile, x.sensorLimit)

theorem Bay.reading_inj {x y : Bay} (h : x.reading = y.reading) : x.last = y.last ∧ x.sinceReport = y.sinceReport ∧
    x.silence = y.silence ∧ x.report = y.report ∧ x.band = y.band ∧ x.tag = y.tag ∧ x.slot = y.slot ∧ x.profile = y.profile ∧
    x.sensorLimit = y.sensorLimit := by
  simpa [Bay.reading] using h

/-- A step of a report at bay b keeps its reading, the other bays but for what a release grants them, and the other records. -/
structure State.KeepsReading (b : BayId) (s t : State) : Prop where
  own : (t.bay b).reading = (s.bay b).reading
  others : ∀ a, a ≠ b → (t.bay a).stage = (s.bay a).stage ∧ (t.bay a).inhibits = (s.bay a).inhibits ∧
    (t.bay a).last = (s.bay a).last ∧ (s.bay a).grant ≤ (t.bay a).grant
  records : ∀ j, (s.bay b).slot ≠ some j → t.record j = s.record j

theorem State.KeepsReading.refl (b : BayId) (s : State) : State.KeepsReading b s s :=
  ⟨rfl, fun _ _ => ⟨rfl, rfl, rfl, le_refl _⟩, fun _ _ => rfl⟩

theorem Bay.slot_of_reading {x y : Bay} (h : x.reading = y.reading) : x.slot = y.slot :=
  congrArg (fun r => r.2.2.2.2.2.2.1) h

theorem State.KeepsReading.trans {b : BayId} {s t u : State} (h : State.KeepsReading b s t) (g : State.KeepsReading b t u) :
    State.KeepsReading b s u := by
  refine ⟨g.own.trans h.own, fun a other => ?_, fun j free => ?_⟩
  · obtain ⟨stage, inhibits, last, grant⟩ := h.others a other
    obtain ⟨stage', inhibits', last', grant'⟩ := g.others a other
    exact ⟨stage'.trans stage, inhibits'.trans inhibits, last'.trans last, grant.trans grant'⟩
  · rw [g.records j (by rw [Bay.slot_of_reading h.own]; exact free), h.records j free]

/-- A step that touches its own bay and its own record alone. -/
theorem State.KeepsReading.ofBay {b : BayId} {s t : State} (own : (t.bay b).reading = (s.bay b).reading)
    (others : ∀ a, a ≠ b → t.bay a = s.bay a) (records : ∀ j, (s.bay b).slot ≠ some j → t.record j = s.record j) :
    State.KeepsReading b s t :=
  ⟨own, fun a other => by rw [others a other]; exact ⟨rfl, rfl, rfl, le_refl _⟩, records⟩

theorem State.setBay_keepsReading (s : State) (b : BayId) {x : Bay} (own : x.reading = (s.bay b).reading) :
    State.KeepsReading b s (s.setBay b x) :=
  .ofBay (by rw [State.setBay_bay_self]; exact own) (fun a other => by rw [State.setBay_bay, if_neg other]) fun _ _ => rfl

/-! ### The current compared (R51, step 3) -/

/-- The walk raises a bay above its grant, or to an increase of it. -/
theorem State.releaseValue_above {s : State} {x : Increase} {v : Nat} (value : s.releaseValue x = some v) :
    v = x.grant ∨ (s.bay x.bay).grant < v := by
  by_cases fits : s.releaseFits x.bay x.grant = true
  · have full : s.releaseValue x = some x.grant := if_pos fits
    rw [full] at value
    exact .inl (Option.some.inj value).symm
  · exact .inr (State.releaseValue_part fits value).1

/-- No grant falls below what it was when every increase of the walk stood at or above it. -/
theorem State.releaseAll_grant (l : List Increase) (grant : BayId → Nat) (rises : ∀ x ∈ l, grant x.bay ≤ x.grant) (s : State)
    (from' : ∀ a, grant a ≤ (s.bay a).grant) (a : BayId) : grant a ≤ ((l.foldl State.releaseOne s).bay a).grant := by
  induction l generalizing s with
  | nil => exact from' a
  | cons x l ih =>
    refine ih (fun y mem => rises y (List.mem_cons_of_mem x mem)) (s.releaseOne x) fun c => ?_
    by_cases own : c = x.bay
    · subst own
      cases value : s.releaseValue x with
      | none =>
        rw [State.releaseOne_of_none value]
        exact from' _
      | some v =>
        rw [State.releaseOne_of_some value, State.notify_bay, State.setBay_bay_self]
        rcases State.releaseValue_above value with full | above
        · exact full ▸ rises x List.mem_cons_self
        · exact (from' _).trans above.le
    · rw [s.releaseOne_other x own]
      exact from' c

theorem State.release_keepsReading {s : State} (b : BayId) (rises : ∀ x ∈ s.pendingList, (s.bay x.bay).grant ≤ x.grant) :
    State.KeepsReading b s s.release := by
  have bay (a : BayId) : ∃ g n p, s.release.bay a = { s.bay a with grant := g, allowance := n, power := p } :=
    State.releaseAll_bay s.pendingList s a
  refine ⟨?_, fun a _ => ?_, fun j _ => ?_⟩
  · obtain ⟨g, n, p, own⟩ := bay b
    rw [own]
    rfl
  · have above := State.releaseAll_grant s.pendingList (fun c => (s.bay c).grant) rises s (fun _ => le_refl _) a
    obtain ⟨g, n, p, walked⟩ := bay a
    refine ⟨?_, ?_, ?_, above⟩ <;> rw [walked]
  · rw [s.release_eq]
    rfl

theorem State.compareCurrent_keepsReading {s : State} (b : BayId) (current : Nat)
    (rises : ∀ x ∈ s.pendingList, (s.bay x.bay).grant ≤ x.grant) : State.KeepsReading b s (s.compareCurrent b current) := by
  by_cases near : current ≤ (s.bay b).grant + tolerance (s.bay b).grant
  · rw [State.compareCurrent_within near]
    by_cases last : s.resolvesAt b
    · rw [last.reported]
      refine (s.setBay_keepsReading b (by rfl)).trans (State.release_keepsReading b fun x mem => ?_)
      rw [State.setBay_bay]
      split
      · rename_i own
        exact own ▸ rises x mem
      · exact rises x mem
    · rw [State.reported_settles (.inr last)]
      split
      · exact s.setBay_keepsReading b (by rfl)
      · exact s.setBay_keepsReading b (by rfl)
  · rw [State.compareCurrent_above near]
    rcases Nat.eq_zero_or_pos (s.bay b).overdrawStreak with first | second
    · rw [State.overdrawn_first first]
      exact s.setBay_keepsReading b (by rfl)
    · obtain ⟨ports, raised⟩ := State.overdrawn_second second current
      rw [raised]
      refine .ofBay ?_ (fun a other => (get_set _ _ _ _).trans (if_neg other)) fun _ _ => rfl
      exact (congrArg Bay.reading ((get_set _ _ _ _).trans (if_pos rfl))).trans (by rfl)

theorem State.complete_reading (s : State) (b : BayId) {i : SlotId} (slot : (s.bay b).slot = some i) :
    ((s.complete b i).bay b).reading = (s.bay b).reading := by
  rw [State.complete_bay slot, if_pos rfl]
  unfold Bay.rested
  split_ifs <;> rfl

/-! ### The charge credited and the stage moved (R51, steps 4 to 6) -/

theorem State.creditCharge_keepsReading (s : State) (b : BayId) (current interval : Nat) :
    State.KeepsReading b s (s.creditCharge b current interval) := by
  cases slot : (s.bay b).slot with
  | none =>
    rw [State.creditCharge_of_none slot]
    exact .refl b s
  | some i =>
    obtain ⟨-, others, bays, own, -⟩ := (creditConservesCharge.1 s b current interval).2 i slot
    refine .ofBay (by rw [own]; rfl) bays fun j free => others j fun same => free ?_
    rw [slot, same]

/-- A report whose band stays where it is touches the count alone (R54). -/
theorem State.trackBand_keepsReading {s : State} {b : BayId} {temperature : Int}
    (stays : (s.bayProfile b).candidateBand (s.bay b).band temperature = (s.bay b).band) :
    State.KeepsReading b s (s.trackBand b temperature) := by
  unfold State.trackBand
  dsimp only
  rw [if_pos stays]
  split
  · exact .refl b s
  · exact s.setBay_keepsReading b (by rfl)

theorem State.moveStage_keepsReading (s : State) (b : BayId) (l : LastReport) (uninhibited : Bool) :
    State.KeepsReading b s (s.moveStage b l uninhibited) := by
  cases slot : (s.bay b).slot with
  | none =>
    have stands : s.moveStage b l uninhibited = s := by
      unfold State.moveStage
      rw [slot]
    rw [stands]
    exact .refl b s
  | some i =>
    obtain ⟨barred, free⟩ := stageMovesAtAReport s b i l uninhibited slot
    cases carries : (s.bay b).carries .profile with
    | true =>
      rw [barred carries]
      exact .refl b s
    | false =>
      obtain ⟨bays, records, -⟩ := free carries
      refine .ofBay ?_ bays fun j other => records j fun same => other ?_
      · have reevaluated := s.reevaluateBulk_bayIs b
        have entered := reevaluated.noticed (s.record i).overcharged
        have stood : (s.absorbed (s.bay b)).reading = (s.bay b).reading := by
          rw [State.absorbed_eq]
          rfl
        rw [State.moveStage_eq slot carries]
        split
        · rw [State.complete_reading, entered.own, stood]
          rw [entered.own, State.absorbed_eq]
          exact slot
        · rw [reevaluated.own, stood]
      · rw [slot, same]

/-! ### The last step (R51, step 7) -/

theorem State.addFault_bay (s : State) (b a : BayId) :
    (s.addFault b).bay a = if a = b then (s.bay b).inhibited .fault s.site.confirmTimeout else s.bay a :=
  (State.notify_bay _ _ _ _).trans (s.addInhibit_bay b a .fault)

theorem State.addFault_noticed {s : State} {b : BayId} {q : PortId} (takes : (s.port q).role.takes .fault (.bay b) = true) :
    hasFlag ((s.addFault b).port q).raised NoticeKind.fault.bit = true :=
  ((s.addFault_evolves b).ports q).raises_last (State.notify_port _ _ _ _) takes

theorem State.addFault_keepsReading (s : State) (b : BayId) : State.KeepsReading b s (s.addFault b) := by
  refine .ofBay ?_ (fun a other => ?_) fun j _ => ?_
  · rw [State.addFault_bay, if_pos rfl]
    rfl
  · rw [State.addFault_bay, if_neg other]
  · rw [State.addFault, State.notify_record, State.addInhibit_eq]
    rfl

theorem State.judgeProbation_keepsReading (s : State) (b : BayId) (current : Nat) :
    State.KeepsReading b s (s.judgeProbation b current) := by
  by_cases good : s.provesGood b
  · rw [State.judgeProbation_of_good current good]
    split_ifs
    · exact s.setBay_keepsReading b (by rfl)
    · exact s.setBay_keepsReading b (by rfl)
    · refine .ofBay ?_ (fun a other => ?_) fun j _ => rfl
      · rw [State.clearStall_bay, if_pos rfl]
        rfl
      · rw [State.clearStall_bay, if_neg other]
  · rw [State.judgeProbation_of_not current good]
    exact .refl b s

theorem State.declaration_keepsReading (s : State) (b : BayId) {f : Bay → Bay} (r : Inhibit)
    (reads : ∀ x, (f x).reading = x.reading) : State.KeepsReading b s (s.declaration b f r) := by
  refine .ofBay ?_ (fun a other => ?_) fun j _ => ?_
  · rw [State.declaration_bay, if_pos rfl]
    exact reads _
  · rw [State.declaration_bay, if_neg other]
  · obtain ⟨ports, counted⟩ := s.count_eq b .stall
    rw [State.declaration, State.notify_record, State.addInhibit_eq, counted]
    rfl

theorem State.judgeStall_keepsReading (s : State) (b : BayId) (current : Nat) :
    State.KeepsReading b s (s.judgeStall b current) := by
  unfold State.judgeStall
  split_ifs
  · exact s.setBay_keepsReading b (by rfl)
  · rw [State.declareStall_eq]
    split
    · exact s.declaration_keepsReading b _ fun _ => rfl
    · exact s.declaration_keepsReading b _ fun _ => rfl
  · exact s.setBay_keepsReading b (by rfl)

theorem State.supervise_keepsReading (s : State) (b : BayId) (l : LastReport) : State.KeepsReading b s (s.supervise b l) := by
  have faulted : State.KeepsReading b s (if l.chargerFault then s.addFault b else s) := by
    split
    · exact s.addFault_keepsReading b
    · exact .refl b s
  exact (faulted.trans (State.judgeProbation_keepsReading _ b _)).trans (State.judgeStall_keepsReading _ b _)

theorem State.judgeProbation_bars (s : State) (b : BayId) (current : Nat) :
    ((s.judgeProbation b current).bay b).inhibits = (s.bay b).inhibits ∧
      ((s.judgeProbation b current).bay b).grant = (s.bay b).grant := by
  by_cases good : s.provesGood b
  · rw [State.judgeProbation_of_good current good]
    split_ifs
    · rw [State.modBay_bay, if_pos rfl]
      exact ⟨rfl, rfl⟩
    · rw [State.modBay_bay, if_pos rfl]
      exact ⟨rfl, rfl⟩
    · rw [State.clearStall_bay, if_pos rfl]
      exact ⟨rfl, rfl⟩
  · rw [State.judgeProbation_of_not current good]
    exact ⟨rfl, rfl⟩

/-- A barred bay triggers no stall. -/
theorem State.judgeStall_of_ineligible {s : State} {b : BayId} (barred : (s.bay b).eligible = false) (current : Nat) :
    s.judgeStall b current = s.modBay b fun x => { x with stallStreak := 0 } :=
  if_neg (by simp [State.stallTrigger, barred])

/-- A charger fault leaves the bay barred with no grant, whatever the judgements say (R70). -/
theorem State.supervise_faults {s : State} {b : BayId} {l : LastReport} (fault : l.chargerFault = true) :
    ((s.supervise b l).bay b).carries .fault = true ∧ ((s.supervise b l).bay b).grant = 0 := by
  obtain ⟨inhibits, grant⟩ := (s.addFault b).judgeProbation_bars b l.current
  have faulted : (s.addFault b).bay b = (s.bay b).inhibited .fault s.site.confirmTimeout := by rw [State.addFault_bay, if_pos rfl]
  have carries : (((s.addFault b).judgeProbation b l.current).bay b).carries .fault = true := by
    rw [Bay.carries, inhibits, faulted, ← Bay.carries, Bay.inhibited_carries]
    simp
  have supervised : s.supervise b l = ((s.addFault b).judgeProbation b l.current).judgeStall b l.current := by
    unfold State.supervise
    rw [if_pos fault]
  rw [supervised, State.judgeStall_of_ineligible (Bay.eligible_of_inhibited carries), State.modBay_bay, if_pos rfl]
  have lowered : ((s.addFault b).bay b).grant = 0 := by
    rw [faulted]
    rfl
  rw [lowered] at grant
  generalize ((s.addFault b).judgeProbation b l.current).bay b = y at carries grant ⊢
  exact ⟨carries, grant⟩

/-- The steps of a report after the first two, where the band stays where it is. -/
theorem State.report_keepsReading {s : State} (b : BayId) (l : LastReport) (uninhibited : Bool)
    (stays : (s.bayProfile b).candidateBand (s.bay b).band l.temperature = (s.bay b).band)
    (rises : ∀ x ∈ s.pendingList, (s.bay x.bay).grant ≤ x.grant) :
    State.KeepsReading b s (((((s.compareCurrent b l.current).creditCharge b l.current l.interval).trackBand b l.temperature).moveStage
      b l uninhibited).supervise b l) := by
  have credited := (State.compareCurrent_keepsReading b l.current rises).trans
    (State.creditCharge_keepsReading (s.compareCurrent b l.current) b l.current l.interval)
  have frame := ((s.compareCurrent_evolves b l.current).trans
    (State.creditCharge_evolves (s.compareCurrent b l.current) b l.current l.interval)).frame
  generalize (s.compareCurrent b l.current).creditCharge b l.current l.interval = u at credited frame ⊢
  have band : (u.bay b).band = (s.bay b).band := congrArg (fun r => r.2.2.2.2.1) credited.own
  have profile : u.bayProfile b = s.bayProfile b := by
    have copy : (u.bay b).profile = (s.bay b).profile := congrArg (fun r => r.2.2.2.2.2.2.2.1) credited.own
    unfold State.bayProfile State.profile
    rw [copy, frame.profiles]
  have tracked := State.trackBand_keepsReading (s := u) (b := b) (temperature := l.temperature) (by rw [profile, band, stays])
  exact ((credited.trans tracked).trans (State.moveStage_keepsReading _ b l _)).trans (State.supervise_keepsReading _ b l)

/-! ### The report as sent -/

theorem reportOf_eq (params : List Byte) : reportOf params = {
    current := (min 2500 (max 0 (s16At params 1))).toNat, voltage := min 9999 (u16At params 3)
    temperature := min 85 (max (-40) (s8At params 5)), interval := u16At params 6
    terminated := (params.getD 8 0).getLsbD 0, chargerFault := (params.getD 8 0).getLsbD 1 } := by
  unfold reportOf clampTemperature
  rw [clampInt_eq (by decide), clampInt_eq (by decide)]

theorem reportClamped_eq (params : List Byte) :
    reportClamped params = decide (s8At params 5 < -40 ∨ 85 < s8At params 5) := by
  unfold reportClamped clampTemperature
  rw [clampInt_eq (by decide), Bool.eq_iff_iff, bne_iff_ne, decide_eq_true_iff]
  omega

end Sys2Proof.Machine

open Sys2Proof Sys2Proof.Machine

/-- Settles O25: the steps are run in the order of R51, and each keeps what the first has recorded (State.KeepsReading). -/
theorem reportIsRecorded : Obligations.ReportIsRecorded := by
  unfold Obligations.ReportIsRecorded
  intro p params s b accepted named docked sound temperature l recorded returned credited moved u
  have run : u = s.takeReport b (reportOf params) (reportClamped params) := by
    rw [reportOf_eq, reportClamped_eq]
    rfl
  have took : exec (.report p params) s = .next (u.setPort p ((u.port p).wrote params .ok)) := by
    rw [run]
    refine congrArg Host.Outcome.next (State.clusterCommand_writes accepted rfl named ?_
      ((s.takeReport_evolves b (reportOf params) (reportClamped params)).ports p))
    rw [if_neg (mt beq_iff_eq.1 docked), sound.accessDocked]
  have recordedIs (a : BayId) : recorded.bay a = if a = b then { s.bay b with
      last := some l, sinceReport := 0, silence := 0, sensorLimit := decide (s8At params 5 < -40 ∨ 85 < s8At params 5) }
      else s.bay a := s.recordReport_bay b a l _
  have own := (recordedIs b).trans (if_pos rfl)
  have report : (recorded.bay b).report = (s.bay b).report := by rw [own]
  have frame : recorded = { s with bays := recorded.bays, ports := recorded.ports } := s.recordReport_eq b l _
  clear_value recorded
  refine ⟨took, fun normal => State.returnToNormal_of_normal (report.trans normal), fun silent => ⟨?_, ?_, ?_⟩,
    returned.compareCurrent_comparedTo b l.current, ⟨rfl, fun fault => ⟨?_, ?_⟩⟩, frame, ?_, own, ?_⟩
  · have silent' : (recorded.bay b).report ≠ .normal := fun normal => silent (report.symm.trans normal)
    have back := State.returnToNormal_of_silent silent'
    have self : returned.bay b = { recorded.bay b with report := .normal } := (recorded.returnToNormal_bay b b).trans (if_pos rfl)
    rw [self, show s.passMark = recorded.passMark from (congrArg State.passMark frame).symm]
    exact back.trans (by rw [show returned = _ from back])
  · exact recorded.returnToNormal_bay b
  · intro q
    have silent' : (recorded.bay b).report ≠ .normal := fun normal => silent (report.symm.trans normal)
    exact (congrArg (·.port q) (State.returnToNormal_of_silent silent')).trans (get_updateAll _ _ _)
  · intro a
    rw [if_pos fault]
    exact moved.addFault_bay b a
  · intro q takes
    rw [if_pos fault]
    exact State.addFault_noticed takes
  · exact fun a other => (recordedIs a).trans (if_neg other)
  · intro stays rises t
    have returnedIs (a : BayId) : returned.bay a = if a = b then { recorded.bay b with report := .normal } else recorded.bay a :=
      recorded.returnToNormal_bay b a
    have first := (returnedIs b).trans (if_pos rfl)
    have others (a : BayId) (other : a ≠ b) : returned.bay a = s.bay a := by
      rw [returnedIs, if_neg other, recordedIs, if_neg other]
    have grant (a : BayId) : (returned.bay a).grant = (s.bay a).grant := by
      by_cases self : a = b
      · rw [self, first, own]
      · rw [others a self]
    have waits : returned.pendingList = s.pendingList := (recorded.returnToNormal_pendingList b).trans (by rw [frame])
    have profiles : returned.profiles = s.profiles := (recorded.returnToNormal_evolves b).frame.profiles.trans (by rw [frame])
    have candidate : (returned.bayProfile b).candidateBand (returned.bay b).band l.temperature = (returned.bay b).band := by
      unfold State.bayProfile State.profile
      rw [profiles, first, own]
      exact stays
    have keeps : State.KeepsReading b returned u := returned.report_keepsReading b l (decide ((s.bay b).inhibits = 0)) candidate fun x mem => by
      rw [grant]
      exact rises x (waits ▸ mem)
    have faults (fault : l.chargerFault = true) : (u.bay b).carries .fault = true ∧ (u.bay b).grant = 0 := State.supervise_faults fault
    have frames := (s.takeReport_evolves b (reportOf params) (reportClamped params)).frame
    rw [← run] at frames
    have reading := keeps.own
    have slot : (returned.bay b).slot = (s.bay b).slot := by rw [first, own]
    have records (j : SlotId) : returned.record j = s.record j := (recorded.returnToNormal_record b j).trans (by rw [frame]; rfl)
    clear_value u returned
    have wrote : (t.port p).lastResult = .ok := State.wrote_lastResult u p params .ok
    have bays (a : BayId) : t.bay a = u.bay a := rfl
    have tables : t.profiles = u.profiles ∧ t.supply = u.supply ∧ t.clock = u.clock ∧ t.site = u.site ∧ ∀ j, t.record j = u.record j :=
      ⟨rfl, rfl, rfl, rfl, fun _ => rfl⟩
    clear_value t
    obtain ⟨last, since, silence, normal, band, tag, slotIs, -, limit⟩ := Bay.reading_inj reading
    obtain ⟨profilesIs, supply, clock, site, recordIs⟩ := tables
    simp only [bays]
    rw [first, own] at last since silence normal band tag slotIs limit
    refine ⟨last, since, silence, normal, band, tag, slotIs, ?_, faults, fun j free => ?_, fun a other => ?_,
      profilesIs.trans frames.profiles, supply.trans frames.supply, clock.trans frames.clock, site.trans frames.site, wrote⟩
    · rw [limit, decide_eq_true_iff]
    · rw [recordIs, keeps.records j (slot ▸ free), records]
    · rw [← others a other]
      exact keeps.others a other

end

section
/-!
Counters latched and the minute change (R80 to R82, R133, R143 to R151): the latch, and the planning pass of a sound roster as
State.PlannedTo says it. The choices of a pass are followed as a list of entries with their packs; both sides of every reservation are
read off that list.
-/

namespace Sys2Proof.Machine

/-! ### Settlement (R144) -/

/-- Settlement writes an entry's status, reservation and renewal mark alone. -/
theorem State.settledEntry_eq (s : State) (e : EntryId) : s.settledEntry e = { s.entry e with
    status := (s.settledEntry e).status, reserved := (s.settledEntry e).reserved, renewal := (s.settledEntry e).renewal } := by
  unfold State.settledEntry
  split
  · unfold Entry.settled
    split
    · rfl
    · rfl
    · rfl
    · split <;> rfl
    · split <;> rfl
    · rfl
    · rfl
    · rfl
  · unfold Entry.renewed
    split <;> rfl
  · rfl

/-- An entry in a window keeps its reservation at the settlement. -/
theorem State.settledEntry_reserved {s : State} {e : EntryId} (inside : s.windowOf e = some .due ∨ s.windowOf e = some .active) :
    (s.settledEntry e).reserved = (s.entry e).reserved := by
  have renewed : (s.entry e).renewed.reserved = (s.entry e).reserved := by
    unfold Entry.renewed
    split <;> rfl
  unfold State.settledEntry
  rcases inside with inside | inside <;> rw [inside] <;> exact renewed

theorem Entry.settled_missed (x : Entry) :
    x.settled.status = .missed ∧ x.status ≠ .missed ↔ x.status = .planned ∨ x.status = .short ∨ x.status = .late := by
  unfold Entry.settled
  cases status : x.status <;> cases x.weekly <;> simp [status]

theorem Entry.renewed_missed (x : Entry) : ¬ (x.renewed.status = .missed ∧ x.status ≠ .missed) := by
  unfold Entry.renewed
  split
  · simp
  · exact fun h => h.2 h.1

/-- An entry becomes MISSED at the settlement as R144 says. -/
theorem State.becomesMissed_iff (s : State) (e : EntryId) : s.becomesMissed e = true ↔ s.misses e := by
  unfold State.becomesMissed State.misses State.settledEntry
  rw [Bool.and_eq_true, beq_iff_eq, bne_iff_ne]
  cases window : s.windowOf e with
  | none => simp
  | some w =>
    cases w with
    | outside =>
      dsimp only
      rw [Entry.settled_missed]
      simp
    | due => exact iff_of_false (Entry.renewed_missed _) (by simp)
    | active => exact iff_of_false (Entry.renewed_missed _) (by simp)

theorem State.settle_eq (s : State) : ∃ ports, s.settle = { s with
      entries := updateAll s.entries fun e _ => s.settledEntry e, ports := ports } ∧
    ((∃ e, s.misses e) → ports = updateAll s.ports fun _ y => y.deliver .short .part) ∧
    ((¬ ∃ e, s.misses e) → ports = s.ports) := by
  have any : allEntries.any s.becomesMissed = true ↔ ∃ e, s.misses e := by
    simp [List.any_eq_true, allEntries, State.becomesMissed_iff]
  unfold State.settle
  dsimp only
  split
  · rename_i some
    exact ⟨_, rfl, fun _ => rfl, fun none => absurd (any.1 some) none⟩
  · rename_i none
    exact ⟨_, rfl, fun some => absurd (any.2 some) none, fun _ => rfl⟩

/-! ### The choice of a pack (R146 to R148) -/

/-- A slot is a candidate that no earlier choice took (R146). -/
theorem State.mem_candidates (s : State) (chosen : List Choice) (e : EntryId) (i : SlotId) (n : Nat) :
    (i, n) ∈ s.candidates chosen e ↔ (∀ c ∈ chosen, c.slot ≠ i) ∧ s.projection e i = some n := by
  unfold State.candidates
  simp only [List.mem_filterMap, mem_allSlots, true_and]
  have taken (j : SlotId) : (chosen.any fun c => c.slot == j) = true ↔ ¬ ∀ c ∈ chosen, c.slot ≠ j := by
    simp [List.any_eq_true]
  refine ⟨fun ⟨j, offered⟩ => ?_, fun ⟨free, time⟩ => ⟨i, ?_⟩⟩
  · by_cases free : ∀ c ∈ chosen, c.slot ≠ j
    · rw [if_neg (fun h => (taken j).1 h free)] at offered
      obtain ⟨m, time, same⟩ := Option.map_eq_some_iff.1 offered
      cases same
      exact ⟨free, time⟩
    · rw [if_pos ((taken j).2 free)] at offered
      contradiction
  · rw [if_neg (fun h => (taken i).1 h free), time]
    rfl

/-- A slot whose pack is a candidate and makes it (R147). -/
def State.making (s : State) (chosen : List Choice) (e : EntryId) : List SlotId :=
  ((s.candidates chosen e).filter fun c => makesIt (s.departureIn e) c.2).map (·.1)

theorem makesIt_iff (d : Int) (n : Nat) : makesIt d n = true ↔ n = 0 ∨ (n : Int) ≤ d := by
  simp [makesIt]

theorem State.mem_making (s : State) (chosen : List Choice) (e : EntryId) (i : SlotId) : i ∈ s.making chosen e ↔
    ∃ n, ((∀ c ∈ chosen, c.slot ≠ i) ∧ s.projection e i = some n) ∧ (n = 0 ∨ (n : Int) ≤ s.departureIn e) := by
  unfold State.making
  simp only [List.mem_map, List.mem_filter, makesIt_iff, Prod.exists, State.mem_candidates, exists_and_right, exists_eq_right]

/-- The rotation key spells out the order of R147. -/
theorem State.rotatesBefore_of_key {s : State} {i j : SlotId} (h : keyLe (s.rotationKey i) (s.rotationKey j) = true) :
    s.rotatesBefore i j := by
  unfold State.rotationKey at h
  simp only [keyLe_cons] at h
  unfold State.rotatesBefore
  rw [Fin.le_def]
  omega

/-- The reserved pack of an entry, where it makes it (R148). -/
def State.keptPack (s : State) (chosen : List Choice) (e : EntryId) : Option SlotId :=
  (s.making chosen e).find? fun i => (s.entry e).reserved == some i

theorem State.keptPack_some {s : State} {chosen : List Choice} {e : EntryId} {i : SlotId} :
    s.keptPack chosen e = some i ↔ (s.entry e).reserved = some i ∧ i ∈ s.making chosen e := by
  unfold State.keptPack
  refine ⟨fun found => ⟨by simpa using List.find?_some found, List.mem_of_find?_eq_some found⟩, fun ⟨reserved, makes⟩ => ?_⟩
  cases found : (s.making chosen e).find? fun i => (s.entry e).reserved == some i with
  | none => exact absurd (by simpa using reserved) (List.find?_eq_none.1 found i makes)
  | some j =>
    have other : (s.entry e).reserved = some j := by simpa using List.find?_some found
    exact other.symm.trans reserved

/-- The first pack by the rotation key among those that make it (R148). -/
def State.firstPack (s : State) (chosen : List Choice) (e : EntryId) : Option SlotId :=
  (sortByKey s.rotationKey (s.making chosen e)).head?

/-- The pack of least projected time (R148). -/
def State.soonestPack (s : State) (chosen : List Choice) (e : EntryId) : Option (SlotId × Nat) :=
  (sortByKey (fun c => (c.2 : Int) :: s.rotationKey c.1) (s.candidates chosen e)).head?

section Choose

variable {s : State} {chosen : List Choice} {e : EntryId}

theorem State.choose_kept {i : SlotId} (kept : s.keptPack chosen e = some i) : s.choose chosen e = (some i, .planned) := by
  unfold State.keptPack State.making at kept
  unfold State.choose
  dsimp only
  rw [kept]

theorem State.choose_first {i : SlotId} (kept : s.keptPack chosen e = none) (first : s.firstPack chosen e = some i) :
    s.choose chosen e = (some i, .planned) := by
  unfold State.keptPack State.making at kept
  unfold State.firstPack State.making at first
  unfold State.choose
  dsimp only
  rw [kept, first]

theorem State.choose_soonest {c : SlotId × Nat} (kept : s.keptPack chosen e = none) (first : s.firstPack chosen e = none)
    (soonest : s.soonestPack chosen e = some c) : s.choose chosen e = (some c.1, .late) := by
  unfold State.keptPack State.making at kept
  unfold State.firstPack State.making at first
  unfold State.soonestPack at soonest
  unfold State.choose
  dsimp only
  rw [kept, first, soonest]

theorem State.choose_short (kept : s.keptPack chosen e = none) (first : s.firstPack chosen e = none)
    (soonest : s.soonestPack chosen e = none) : s.choose chosen e = (none, .short) := by
  unfold State.keptPack State.making at kept
  unfold State.firstPack State.making at first
  unfold State.soonestPack at soonest
  unfold State.choose
  dsimp only
  rw [kept, first, soonest]

end Choose

theorem head?_sortByKey_none {α : Type} (key : α → List Int) {l : List α} : (sortByKey key l).head? = none ↔ l = [] := by
  rw [List.head?_eq_none_iff, ← List.length_eq_zero_iff, ← List.length_eq_zero_iff, sortByKey, List.length_insertionSort]

theorem head?_sortByKey_mem {α : Type} (key : α → List Int) {l : List α} {a : α} (first : (sortByKey key l).head? = some a) : a ∈ l :=
  (List.mem_insertionSort _).1 (List.mem_of_mem_head? first)

/-- A chosen pack is a candidate that no earlier choice took. -/
theorem State.choose_offered {s : State} {chosen : List Choice} {e : EntryId} {i : SlotId} (picked : (s.choose chosen e).1 = some i) :
    ∃ n, (i, n) ∈ s.candidates chosen e := by
  have offered {j : SlotId} (makes : j ∈ s.making chosen e) : ∃ n, (j, n) ∈ s.candidates chosen e := by
    obtain ⟨n, offers, -⟩ := (s.mem_making chosen e j).1 makes
    exact ⟨n, (s.mem_candidates chosen e j n).2 offers⟩
  cases kept : s.keptPack chosen e with
  | some j =>
    rw [State.choose_kept kept] at picked
    cases picked
    exact offered (State.keptPack_some.1 kept).2
  | none =>
    cases first : s.firstPack chosen e with
    | some j =>
      rw [State.choose_first kept first] at picked
      cases picked
      exact offered (head?_sortByKey_mem _ first)
    | none =>
      cases soonest : s.soonestPack chosen e with
      | some c =>
        rw [State.choose_soonest kept first soonest] at picked
        cases picked
        exact ⟨c.2, head?_sortByKey_mem _ soonest⟩
      | none =>
        rw [State.choose_short kept first soonest] at picked
        contradiction

/-- The status of a choice says whether it took a pack (R148). -/
theorem State.choose_status (s : State) (chosen : List Choice) (e : EntryId) :
    ((s.choose chosen e).2 = .planned ∨ (s.choose chosen e).2 = .late ↔ (s.choose chosen e).1 ≠ none) ∧
      ((s.choose chosen e).2 = .short ↔ (s.choose chosen e).1 = none) := by
  cases kept : s.keptPack chosen e with
  | some j =>
    rw [State.choose_kept kept]
    simp
  | none =>
    cases first : s.firstPack chosen e with
    | some j =>
      rw [State.choose_first kept first]
      simp
    | none =>
      cases soonest : s.soonestPack chosen e with
      | some c =>
        rw [State.choose_soonest kept first soonest]
        simp
      | none =>
        rw [State.choose_short kept first soonest]
        simp

/-! ### One entry planned (R148) -/

/-- An entry with this status is a reason for a SHORT notice (R148). -/
def EntryStatus.fallsShort (x : EntryStatus) : Prop := x = .short ∨ x = .late

theorem State.planEntry_eq (v : State) (chosen : List Choice) (e : EntryId) :
    ∃ ports, State.planEntry (v, chosen) e = ({ v with
        entries := v.entries.set e { v.entry e with status := (v.choose chosen e).2 }, ports := ports },
        chosen ++ ((v.choose chosen e).1.map (Choice.mk e)).toList) ∧
      ((v.choose chosen e).2.fallsShort ∧ (v.entry e).status ≠ (v.choose chosen e).2 →
        ports = updateAll v.ports fun _ y => y.deliver .short .part) ∧
      (¬ ((v.choose chosen e).2.fallsShort ∧ (v.entry e).status ≠ (v.choose chosen e).2) → ports = v.ports) := by
  have tells : (((v.choose chosen e).2 == .short || (v.choose chosen e).2 == .late) && (v.entry e).status != (v.choose chosen e).2) = true ↔
      (v.choose chosen e).2.fallsShort ∧ (v.entry e).status ≠ (v.choose chosen e).2 := by
    simp [EntryStatus.fallsShort]
  unfold State.planEntry
  dsimp only
  generalize v.choose chosen e = c at tells ⊢
  obtain ⟨pick, status⟩ := c
  dsimp only at tells ⊢
  by_cases short : (((status == .short || status == .late) && (v.entry e).status != status) = true)
  · rw [if_pos short]
    refine ⟨updateAll v.ports fun _ y => y.deliver .short .part, ?_, fun _ => rfl, fun quiet => absurd (tells.1 short) quiet⟩
    cases pick with
    | none => simp only [Option.map_none, Option.toList_none, List.append_nil]; rfl
    | some i => rfl
  · rw [if_neg short]
    refine ⟨v.ports, ?_, fun loud => absurd (tells.2 loud) short, fun _ => rfl⟩
    cases pick with
    | none => simp only [Option.map_none, Option.toList_none, List.append_nil]; rfl
    | some i => rfl

/-! ### What a choice reads -/

/-- Two states agree on all that the choice of a pack reads. -/
structure State.PlansAs (u v : State) : Prop where
  records : v.records = u.records
  bays : v.bays = u.bays
  profiles : v.profiles = u.profiles
  clock : v.clock = u.clock
  site : v.site = u.site
  entries : ∀ e, (v.entry e).minute = (u.entry e).minute ∧ (v.entry e).profile = (u.entry e).profile ∧
    (v.entry e).required = (u.entry e).required

section PlansAs

variable {u v : State} (h : u.PlansAs v)

include h

theorem State.PlansAs.projection (e : EntryId) (i : SlotId) : v.projection e i = u.projection e i := by
  obtain ⟨-, profile, required⟩ := h.entries e
  unfold State.projection Entry.requiredCharge State.record State.bay State.profile
  rw [h.records, h.bays, h.profiles, profile, required]

theorem State.PlansAs.departureIn (e : EntryId) : v.departureIn e = u.departureIn e := by
  obtain ⟨minute, -, -⟩ := h.entries e
  unfold State.departureIn Entry.secondsTo Entry.windowAt Entry.timeSince Entry.timeTo
  rw [h.clock, h.site, minute]

theorem State.PlansAs.rotationKey (i : SlotId) : v.rotationKey i = u.rotationKey i := by
  unfold State.rotationKey State.record
  rw [h.records]

theorem State.PlansAs.candidates (chosen : List Choice) (e : EntryId) : v.candidates chosen e = u.candidates chosen e := by
  unfold State.candidates
  simp only [h.projection]

theorem State.PlansAs.choose (chosen : List Choice) {e : EntryId} (reserved : (v.entry e).reserved = (u.entry e).reserved) :
    v.choose chosen e = u.choose chosen e := by
  unfold State.choose
  rw [h.candidates, h.departureIn, reserved, funext h.rotationKey]

end PlansAs

/-! ### The entries planned in their order (R148) -/

/-- The state and the choices once these entries are planned. -/
def State.plannedBy (u : State) (l : List EntryId) : State × List Choice := l.foldl State.planEntry (u, [])

/-- The choices made once these entries are planned. -/
def State.picks (u : State) (l : List EntryId) : List Choice := (u.plannedBy l).2

/-- The choice made for an entry after these. -/
def State.choiceAfter (u : State) (before : List EntryId) (e : EntryId) : Option SlotId × EntryStatus := u.choose (u.picks before) e

theorem State.plannedBy_append (u : State) (l : List EntryId) (e : EntryId) :
    u.plannedBy (l ++ [e]) = State.planEntry (u.plannedBy l) e := by
  unfold State.plannedBy
  rw [List.foldl_append]
  rfl

/-- Planning writes statuses and raises notices alone. -/
theorem State.plannedBy_frame (u : State) (l : List EntryId) : ∃ entries ports,
    (u.plannedBy l).1 = { u with entries := entries, ports := ports } ∧
      ∀ e, ((u.plannedBy l).1.entry e) = { u.entry e with status := ((u.plannedBy l).1.entry e).status } := by
  induction l using List.reverseRecOn with
  | nil => exact ⟨u.entries, u.ports, rfl, fun _ => rfl⟩
  | append_singleton l e ih =>
    obtain ⟨entries, ports, frame, same⟩ := ih
    obtain ⟨after, planned, -, -⟩ := State.planEntry_eq (u.plannedBy l).1 (u.plannedBy l).2 e
    rw [State.plannedBy_append, planned]
    refine ⟨_, after, by rw [frame], fun d => ?_⟩
    unfold State.entry at same ⊢
    rw [get_set]
    split
    · rename_i own
      rw [own, same]
    · exact same d

theorem State.plannedBy_plansAs (u : State) (l : List EntryId) : u.PlansAs (u.plannedBy l).1 := by
  obtain ⟨entries, ports, frame, same⟩ := u.plannedBy_frame l
  refine ⟨?_, ?_, ?_, ?_, ?_, fun e => ?_⟩
  · rw [frame]
  · rw [frame]
  · rw [frame]
  · rw [frame]
  · rw [frame]
  · rw [same]
    exact ⟨rfl, rfl, rfl⟩

theorem State.plannedBy_choose (u : State) (l : List EntryId) (e : EntryId) :
    (u.plannedBy l).1.choose (u.plannedBy l).2 e = u.choiceAfter l e := by
  refine (u.plannedBy_plansAs l).choose _ ?_
  obtain ⟨entries, ports, -, same⟩ := u.plannedBy_frame l
  rw [same]

theorem State.picks_append (u : State) (l : List EntryId) (e : EntryId) :
    u.picks (l ++ [e]) = u.picks l ++ ((u.choiceAfter l e).1.map (Choice.mk e)).toList := by
  obtain ⟨after, planned, -, -⟩ := State.planEntry_eq (u.plannedBy l).1 (u.plannedBy l).2 e
  rw [State.plannedBy_choose] at planned
  rw [State.picks, State.plannedBy_append, planned]
  rfl

theorem State.plannedBy_status (u : State) (l : List EntryId) (e d : EntryId) :
    ((u.plannedBy (l ++ [e])).1.entry d).status =
      if d = e then (u.choiceAfter l e).2 else ((u.plannedBy l).1.entry d).status := by
  obtain ⟨after, planned, -, -⟩ := State.planEntry_eq (u.plannedBy l).1 (u.plannedBy l).2 e
  rw [State.plannedBy_choose] at planned
  rw [State.plannedBy_append, planned]
  show (((u.plannedBy l).1.entries.set e _)[d]).status = _
  rw [get_set]
  split <;> rfl

theorem State.mem_picks_append (u : State) (l : List EntryId) (e : EntryId) (c : Choice) :
    c ∈ u.picks (l ++ [e]) ↔ c ∈ u.picks l ∨ c.entry = e ∧ (u.choiceAfter l e).1 = some c.slot := by
  rw [State.picks_append, List.mem_append]
  refine or_congr Iff.rfl ?_
  cases (u.choiceAfter l e).1 with
  | none => simp
  | some i =>
    obtain ⟨d, j⟩ := c
    simp [eq_comm]

/-- A choice is made for an entry planned. -/
theorem State.picks_entry {u : State} {l : List EntryId} {c : Choice} (mem : c ∈ u.picks l) : c.entry ∈ l := by
  induction l using List.reverseRecOn with
  | nil => simp [State.picks, State.plannedBy] at mem
  | append_singleton l e ih =>
    rcases (u.mem_picks_append l e c).1 mem with before | ⟨own, -⟩
    · exact List.mem_append_left _ (ih before)
    · simp [own]

theorem State.plannedBy_away {u : State} {l : List EntryId} {e : EntryId} (away : e ∉ l) :
    ((u.plannedBy l).1.entry e).status = (u.entry e).status := by
  induction l using List.reverseRecOn with
  | nil => rfl
  | append_singleton l d ih =>
    rw [List.mem_append, List.mem_singleton, not_or] at away
    rw [State.plannedBy_status, if_neg away.2, ih away.1]

/-- What an entry is given stands to the end of the pass. -/
theorem State.picks_at {u : State} {before after : List EntryId} {e : EntryId} (once : (before ++ e :: after).Nodup) :
    ((u.plannedBy (before ++ e :: after)).1.entry e).status = (u.choiceAfter before e).2 ∧
      ∀ d ∈ before ++ [e], ∀ i, (⟨d, i⟩ : Choice) ∈ u.picks (before ++ e :: after) ↔ (⟨d, i⟩ : Choice) ∈ u.picks (before ++ [e]) := by
  induction after using List.reverseRecOn with
  | nil => exact ⟨(u.plannedBy_status before e e).trans (if_pos rfl), fun _ _ _ => Iff.rfl⟩
  | append_singleton after f ih =>
    have split : before ++ e :: (after ++ [f]) = (before ++ e :: after) ++ [f] := by simp
    rw [split] at once ⊢
    obtain ⟨earlier, -, apart⟩ := List.nodup_append.1 once
    obtain ⟨status, members⟩ := ih earlier
    refine ⟨?_, fun d mem i => ?_⟩
    · rw [State.plannedBy_status, if_neg (apart e (by simp) f (by simp)), status]
    · rw [State.mem_picks_append, members d mem]
      have other : d ≠ f := apart d (by
        rcases List.mem_append.1 mem with early | own
        · exact List.mem_append_left _ early
        · rw [List.mem_singleton.1 own]
          simp) f (by simp)
      simp [other]

/-- The choices of a pass take each slot once, each for an entry of its own, and only candidates (R146). -/
theorem State.picks_distinct (u : State) (l : List EntryId) (once : l.Nodup) :
    (u.picks l).Pairwise (fun c d => c.slot ≠ d.slot ∧ c.entry ≠ d.entry) ∧
      ∀ c ∈ u.picks l, ∃ n, u.projection c.entry c.slot = some n := by
  induction l using List.reverseRecOn with
  | nil => exact ⟨.nil, by simp [State.picks, State.plannedBy]⟩
  | append_singleton l e ih =>
    obtain ⟨earlier, -, apart⟩ := List.nodup_append.1 once
    obtain ⟨pairs, offered⟩ := ih earlier
    rw [State.picks_append]
    cases picked : (u.choiceAfter l e).1 with
    | none => simpa using ⟨pairs, offered⟩
    | some i =>
      obtain ⟨n, candidate⟩ := State.choose_offered picked
      obtain ⟨free, time⟩ := (u.mem_candidates _ e i n).1 candidate
      refine ⟨List.pairwise_append.2 ⟨pairs, by simp, fun c mem d last => ?_⟩, fun c mem => ?_⟩
      · obtain rfl : d = ⟨e, i⟩ := by simpa using last
        exact ⟨free c mem, apart c.entry (State.picks_entry mem) e (by simp)⟩
      · rcases List.mem_append.1 mem with before | last
        · exact offered c before
        · obtain rfl : c = ⟨e, i⟩ := by simpa using last
          exact ⟨n, time⟩

/-! ### SHORT notices of the entries planned (R148) -/

/-- An entry of these becomes SHORT or LATE from another status (R148). -/
def State.shortBy (u : State) (l : List EntryId) : Prop :=
  ∃ e ∈ l, ((u.plannedBy l).1.entry e).status.fallsShort ∧ ((u.plannedBy l).1.entry e).status ≠ (u.entry e).status

/-- The entry planned last is a reason for a notice. -/
def State.shortAt (u : State) (before : List EntryId) (e : EntryId) : Prop :=
  (u.choiceAfter before e).2.fallsShort ∧ (u.choiceAfter before e).2 ≠ (u.entry e).status

theorem State.shortBy_append {u : State} {l : List EntryId} {e : EntryId} (away : e ∉ l) :
    u.shortBy (l ++ [e]) ↔ u.shortBy l ∨ u.shortAt l e := by
  have early {d : EntryId} (mem : d ∈ l) : ((u.plannedBy (l ++ [e])).1.entry d).status = ((u.plannedBy l).1.entry d).status :=
    (u.plannedBy_status l e d).trans (if_neg fun own : d = e => away (own ▸ mem))
  have last : ((u.plannedBy (l ++ [e])).1.entry e).status = (u.choiceAfter l e).2 := (u.plannedBy_status l e e).trans (if_pos rfl)
  unfold State.shortBy State.shortAt
  refine ⟨fun ⟨d, mem, short⟩ => ?_, fun short => ?_⟩
  · rcases List.mem_append.1 mem with before | own
    · rw [early before] at short
      exact .inl ⟨d, before, short⟩
    · obtain rfl := List.mem_singleton.1 own
      rw [last] at short
      exact .inr short
  · rcases short with ⟨d, before, short⟩ | short
    · exact ⟨d, List.mem_append_left _ before, by rwa [early before]⟩
    · exact ⟨e, by simp, by rwa [last]⟩

/-- The SHORT notices of the entries planned are raised where one becomes SHORT or LATE, and no other notice is. -/
theorem State.plannedBy_ports (u : State) (l : List EntryId) (once : l.Nodup) :
    (u.shortBy l → ∀ q, (u.port q).role.takes .short .part = true →
      hasFlag ((u.plannedBy l).1.port q).raised NoticeKind.short.bit = true) ∧
    (¬ u.shortBy l → (u.plannedBy l).1.ports = u.ports) := by
  induction l using List.reverseRecOn with
  | nil => exact ⟨fun ⟨_, mem, _⟩ => absurd mem List.not_mem_nil, fun _ => rfl⟩
  | append_singleton l e ih =>
    obtain ⟨earlier, -, apart⟩ := List.nodup_append.1 once
    have away : e ∉ l := fun mem => apart e mem e (by simp) rfl
    obtain ⟨loud, quiet⟩ := ih earlier
    have moves (q : PortId) : PortMoves (u.port q) ((u.plannedBy l).1.port q) := (State.planEntries_evolves l (u, [])).ports q
    have further (q : PortId) : PortMoves ((u.plannedBy l).1.port q) ((u.plannedBy (l ++ [e])).1.port q) := by
      rw [State.plannedBy_append]
      exact (State.planEntry_evolves _ e).ports q
    obtain ⟨after, planned, tells, keeps⟩ := State.planEntry_eq (u.plannedBy l).1 (u.plannedBy l).2 e
    rw [State.plannedBy_choose, State.plannedBy_away away] at tells keeps
    have ports : (u.plannedBy (l ++ [e])).1.ports = after := by rw [State.plannedBy_append, planned]
    rw [State.shortBy_append away]
    refine ⟨fun short q takes => ?_, fun none => ?_⟩
    · rcases short with before | ⟨falls, differs⟩
      · exact (further q).raised _ (loud before q takes)
      · refine ((moves q).trans (further q)).raises_last (y := (u.plannedBy l).1.port q) ?_ takes
        rw [State.port, ports, tells ⟨falls, differs.symm⟩]
        exact get_updateAll _ _ _
    · obtain ⟨calm, last⟩ := not_or.1 none
      rw [ports, keeps fun ⟨falls, differs⟩ => last ⟨falls, differs.symm⟩, quiet calm]

/-! ### Both sides of every reservation (R149) -/

/-- A state that differs in its records and in the marks of its ports alone. -/
structure State.Rerecorded (s : State) (records : Vector PackRecord 64) (t : State) : Prop where
  same : t = { s with records := records, ports := t.ports }
  raised : ∀ q, (t.port q).raised = (s.port q).raised

/-- A record as the choices of a pass reserve it. -/
def State.reservedRecord (s : State) (chosen : List Choice) (i : SlotId) : PackRecord :=
  { s.record i with reservation := chosenFor chosen i }

theorem State.reserveSlot_eq {t : State} {chosen : List Choice} (sound : t.sound) {i : SlotId}
    (kept : chosenFor chosen i ≠ none → (t.record i).lifecycle = .docked ∨ (t.record i).lifecycle = .ready) :
    State.reserveSlot chosen t i =
      if (t.record i).reservation = chosenFor chosen i then t else t.putRecord i (t.reservedRecord chosen i) := by
  unfold State.reserveSlot State.reservedRecord
  dsimp only
  rw [sound.access]
  split
  · rfl
  · split
    · rfl
    · rename_i out
      have none : chosenFor chosen i = none := by
        by_contra some
        exact out (by simpa using kept some)
      rw [none]

theorem State.Rerecorded.reserveSlot {s t : State} {chosen : List Choice} {records : Vector PackRecord 64} (h : s.Rerecorded records t)
    (sound : s.sound) {i : SlotId} (waits : records[i] = s.record i)
    (kept : chosenFor chosen i ≠ none → (s.record i).lifecycle = .docked ∨ (s.record i).lifecycle = .ready) :
    s.Rerecorded (records.set i (s.reservedRecord chosen i)) (State.reserveSlot chosen t i) := by
  have now : t.sound := sound.of_checks (by rw [h.same])
  have record : t.record i = s.record i := by
    rw [h.same]
    exact waits
  have reserves : t.reservedRecord chosen i = s.reservedRecord chosen i := by
    unfold State.reservedRecord
    rw [record]
  rw [State.reserveSlot_eq now (by rwa [record]), reserves, record]
  split
  · rename_i same
    have stands : s.reservedRecord chosen i = records[i] := by
      rw [State.reservedRecord, ← same, waits]
    rw [stands]
    simpa only [Fin.getElem_fin, Vector.set_getElem_self] using h
  · refine ⟨?_, fun q => ?_⟩
    · obtain ⟨ports, written⟩ := now.putRecord i (s.reservedRecord chosen i)
      rw [written, h.same]
    · rw [State.putRecord_port, ← h.raised q]
      split <;> rfl

theorem State.sound.reserveSlots {s : State} (h : s.sound) {chosen : List Choice}
    (kept : ∀ i, chosenFor chosen i ≠ none → (s.record i).lifecycle = .docked ∨ (s.record i).lifecycle = .ready) :
    s.Rerecorded (Vector.ofFn (s.reservedRecord chosen)) (allSlots.foldl (State.reserveSlot chosen) s) :=
  foldl_writes (Holds := s.Rerecorded) ⟨rfl, fun _ => rfl⟩ fun _ _ i holds waits => holds.reserveSlot h waits (kept i)

section Chosen

variable {chosen : List Choice} (distinct : chosen.Pairwise fun c d => c.slot ≠ d.slot ∧ c.entry ≠ d.entry)

include distinct

theorem choice_unique {c d : Choice} (memC : c ∈ chosen) (memD : d ∈ chosen) (shares : c.slot = d.slot ∨ c.entry = d.entry) : c = d := by
  by_contra differ
  have swaps : Std.Symm fun c d : Choice => c.slot ≠ d.slot ∧ c.entry ≠ d.entry := ⟨fun _ _ apart => ⟨apart.1.symm, apart.2.symm⟩⟩
  have apart := distinct.forall memC memD differ
  rcases shares with slots | entries
  · exact apart.1 slots
  · exact apart.2 entries

theorem chosenFor_eq_some {i : SlotId} {e : EntryId} : chosenFor chosen i = some e ↔ (⟨e, i⟩ : Choice) ∈ chosen := by
  unfold chosenFor
  rw [Option.map_eq_some_iff]
  constructor
  · rintro ⟨c, found, rfl⟩
    obtain rfl : c.slot = i := by simpa using List.find?_some found
    exact List.mem_of_find?_eq_some found
  · intro mem
    cases found : chosen.find? fun c => c.slot == i with
    | none => exact absurd (List.find?_eq_none.1 found _ mem) (by simp)
    | some c =>
      have own : c.slot = i := by simpa using List.find?_some found
      rw [choice_unique distinct (List.mem_of_find?_eq_some found) mem (.inl own)]
      exact ⟨_, rfl, rfl⟩

theorem State.reservedSlot_eq_some {t : State} (recorded : ∀ i, (t.record i).reservation = chosenFor chosen i) {e : EntryId} {i : SlotId} :
    t.reservedSlot chosen e = some i ↔ (⟨e, i⟩ : Choice) ∈ chosen := by
  unfold State.reservedSlot
  cases found : chosen.find? fun c => c.entry == e with
  | none =>
    refine iff_of_false (by simp) fun mem => ?_
    exact absurd (List.find?_eq_none.1 found _ mem) (by simp)
  | some c =>
    have mem := List.mem_of_find?_eq_some found
    obtain rfl : c.entry = e := by simpa using List.find?_some found
    dsimp only
    rw [if_pos ((recorded c.slot).trans ((chosenFor_eq_some distinct).2 mem)), Option.some_inj]
    refine ⟨fun same => same ▸ mem, fun other => ?_⟩
    rw [choice_unique distinct mem other (.inr rfl)]

end Chosen

/-- The reservations of t are these choices, and s is left otherwise (R149). -/
structure State.Reserves (s : State) (chosen : List Choice) (t : State) : Prop where
  frame : t = { s with records := t.records, entries := t.entries, passMark := t.passMark, ports := t.ports }
  records : ∀ i, t.record i = { s.record i with reservation := (t.record i).reservation }
  entries : ∀ e, t.entry e = { s.entry e with reserved := (t.entry e).reserved }
  reservation : ∀ i e, (t.record i).reservation = some e ↔ (⟨e, i⟩ : Choice) ∈ chosen
  reserved : ∀ e i, (t.entry e).reserved = some i ↔ (⟨e, i⟩ : Choice) ∈ chosen
  request : t.passMark = true ↔ s.passMark = true ∨ ∃ i, (t.record i).reservation ≠ (s.record i).reservation
  raised : ∀ q, (t.port q).raised = (s.port q).raised

theorem State.Reserves.of_tables {s : State} {chosen : List Choice} {records : Vector PackRecord 64} {entries : Vector Entry 48}
    {ports : Vector Port 6} {mark : Bool} (distinct : chosen.Pairwise fun c d => c.slot ≠ d.slot ∧ c.entry ≠ d.entry)
    (record : ∀ i : SlotId, records[i] = s.reservedRecord chosen i)
    (entry : ∀ e : EntryId, entries[e] = { s.entry e with reserved := (entries[e]).reserved })
    (reserved : ∀ (e : EntryId) (i : SlotId), (entries[e]).reserved = some i ↔ (⟨e, i⟩ : Choice) ∈ chosen)
    (request : mark = true ↔ s.passMark = true ∨ ∃ i : SlotId, (records[i]).reservation ≠ (s.record i).reservation)
    (raised : ∀ q : PortId, (ports[q]).raised = (s.port q).raised) :
    s.Reserves chosen { s with records := records, entries := entries, passMark := mark, ports := ports } where
  frame := rfl
  records i := by
    show records[i] = { s.record i with reservation := (records[i]).reservation }
    rw [record]
    rfl
  entries := entry
  reservation i e := by
    show (records[i]).reservation = some e ↔ _
    rw [record, ← chosenFor_eq_some distinct]
    rfl
  reserved := reserved
  request := request
  raised := raised

/-- Step 4 of a pass on a sound roster, for distinct packs that are DOCKED or READY. -/
theorem State.sound.writeReservations {s : State} (h : s.sound) {chosen : List Choice}
    (distinct : chosen.Pairwise fun c d => c.slot ≠ d.slot ∧ c.entry ≠ d.entry)
    (kept : ∀ c ∈ chosen, (s.record c.slot).lifecycle = .docked ∨ (s.record c.slot).lifecycle = .ready) :
    s.Reserves chosen (s.writeReservations chosen) := by
  obtain ⟨same, raised⟩ := h.reserveSlots (chosen := chosen) fun i some => by
    obtain ⟨e, own⟩ := Option.ne_none_iff_exists'.1 some
    exact kept _ ((chosenFor_eq_some distinct).1 own)
  unfold State.writeReservations
  dsimp only
  generalize allSlots.foldl (State.reserveSlot chosen) s = t at same raised
  have record (i : SlotId) : t.record i = s.reservedRecord chosen i := by
    rw [same]
    exact get_ofFn _ i
  have reservation (i : SlotId) : (t.record i).reservation = chosenFor chosen i := by
    rw [record]
    rfl
  have stands : (allSlots.all fun i => (t.record i).reservation == (s.record i).reservation) = true ↔
      ∀ i, (t.record i).reservation = (s.record i).reservation := by
    simp [List.all_eq_true, mem_allSlots]
  have entry (e : EntryId) : (updateAll t.entries fun e x => { x with reserved := t.reservedSlot chosen e })[e] =
      { s.entry e with reserved := t.reservedSlot chosen e } := by
    have stays : t.entries[e] = s.entry e := by
      rw [same]
      rfl
    rw [get_updateAll, stays]
  have agrees (mark : Bool) (asks : mark = true ↔ s.passMark = true ∨ ∃ i, (t.record i).reservation ≠ (s.record i).reservation) :=
    State.Reserves.of_tables (s := s) (records := t.records) (ports := t.ports) (mark := mark) distinct record
      (entries := updateAll t.entries fun e x => { x with reserved := t.reservedSlot chosen e }) (fun e => by rw [entry])
      (fun e i => by rw [entry]; exact State.reservedSlot_eq_some distinct reservation) asks raised
  generalize updateAll t.entries (fun e x => { x with reserved := t.reservedSlot chosen e }) = entries at agrees
  have entered : ({ t with entries := entries } : State) =
      { s with records := t.records, entries := entries, ports := t.ports } := by rw [same]
  split
  · rename_i every
    rw [entered]
    exact agrees s.passMark ⟨.inl, fun asks => asks.elim id fun ⟨i, changed⟩ => absurd (stands.1 every i) changed⟩
  · rename_i differ
    rw [entered]
    refine agrees true (iff_of_true rfl (.inr ?_))
    by_contra none
    exact differ (stands.2 fun i => by_contra fun changed => none ⟨i, changed⟩)

/-! ### The planning order of a settled roster (R145) -/

theorem State.settle_entry (s : State) (e : EntryId) : s.settle.entry e = s.settledEntry e := by
  obtain ⟨ports, settled, -, -⟩ := s.settle_eq
  rw [settled]
  show (updateAll s.entries fun d _ => s.settledEntry d)[e] = s.settledEntry e
  rw [get_updateAll]

theorem State.settle_clock (s : State) : s.settle.clock = s.clock := by
  obtain ⟨ports, settled, -, -⟩ := s.settle_eq
  rw [settled]

theorem State.settle_site (s : State) : s.settle.site = s.site := by
  obtain ⟨ports, settled, -, -⟩ := s.settle_eq
  rw [settled]

theorem State.settle_windowOf (s : State) (e : EntryId) : s.settle.windowOf e = s.windowOf e := by
  unfold State.windowOf
  rw [s.settle_clock, s.settle_site, s.settle_entry, s.settledEntry_eq]
  rfl

/-- Settlement changes nothing that the choice of a pack reads. -/
theorem State.settle_plansAs (s : State) : s.PlansAs s.settle := by
  obtain ⟨ports, settled, -, -⟩ := s.settle_eq
  refine ⟨?_, ?_, ?_, s.settle_clock, s.settle_site, fun e => ?_⟩
  · rw [settled]
  · rw [settled]
  · rw [settled]
  · rw [s.settle_entry, s.settledEntry_eq]
    exact ⟨rfl, rfl, rfl⟩

theorem State.settle_plansBefore (s : State) (a b : EntryId) : s.settle.plansBefore a b ↔ s.plansBefore a b := by
  have since (e : EntryId) (m : Nat) : (s.settle.entry e).timeSince m = (s.entry e).timeSince m := by
    rw [s.settle_entry, s.settledEntry_eq]
    rfl
  have ahead (e : EntryId) (m : Nat) : (s.settle.entry e).timeTo m = (s.entry e).timeTo m := by
    rw [s.settle_entry, s.settledEntry_eq]
    rfl
  unfold State.plansBefore
  simp only [s.settle_clock, s.settle_windowOf, since, ahead]

theorem State.planKey_isSome (s : State) (e : EntryId) :
    (s.planKey e).isSome = true ↔ s.windowOf e = some .due ∨ s.windowOf e = some .active := by
  unfold State.planKey
  cases clock : s.clock with
  | none =>
    have none : s.windowOf e = none := by
      unfold State.windowOf
      rw [clock]
    simp [none]
  | some c =>
    cases s.windowOf e with
    | none => simp
    | some w => cases w <;> simp

/-- The planning key spells out the order of R145. -/
theorem State.plansBefore_of_key {s : State} {a b : EntryId} (differ : a ≠ b) (placed : (s.planKey a).isSome = true)
    (follows : (s.planKey b).isSome = true) (le : keyLe ((s.planKey a).getD []) ((s.planKey b).getD []) = true) : s.plansBefore a b := by
  rw [s.planKey_isSome] at placed follows
  have numbers : a.val ≠ b.val := fun same => differ (Fin.ext same)
  unfold State.planKey at le
  unfold State.plansBefore
  cases clock : s.clock with
  | none =>
    unfold State.windowOf at placed
    simp [clock] at placed
  | some c =>
    refine ⟨c, rfl, ?_⟩
    simp only [Fin.lt_def]
    rcases placed with first | first
    · rcases follows with second | second
      · simp only [clock, first, second, Option.getD_some, keyLe_cons] at le ⊢
        omega
      · simp only [first, second]
    · rcases follows with second | second
      · simp only [clock, first, second, Option.getD_some, keyLe_cons] at le
        omega
      · simp only [clock, first, second, Option.getD_some, keyLe_cons] at le ⊢
        omega

theorem State.mem_planOrder (s : State) (e : EntryId) : e ∈ s.planOrder ↔ (s.windowOf e = some .due ∨ s.windowOf e = some .active) ∧
    (s.entry e).status ≠ .called ∧ (s.entry e).status ≠ .served ∧ (s.entry e).status ≠ .finished := by
  unfold State.planOrder sortByKey
  rw [List.mem_insertionSort, List.mem_filter]
  simp [allEntries, State.planKey_isSome, and_assoc]

theorem State.planOrder_nodup (s : State) : s.planOrder.Nodup := by
  unfold State.planOrder sortByKey
  rw [(List.perm_insertionSort _ _).nodup_iff]
  exact (List.nodup_finRange 48).filter _

theorem State.planOrder_pairwise (s : State) : s.planOrder.Pairwise s.plansBefore := by
  have sorted := pairwise_sortByKey (fun e => (s.planKey e).getD []) (allEntries.filter fun e =>
    (s.planKey e).isSome && (s.entry e).status != .called && (s.entry e).status != .served && (s.entry e).status != .finished)
  refine (sorted.and s.planOrder_nodup).imp_of_mem fun memA memB ⟨le, differ⟩ => ?_
  exact State.plansBefore_of_key differ (s.planKey_isSome _ |>.2 ((s.mem_planOrder _).1 memA).1)
    (s.planKey_isSome _ |>.2 ((s.mem_planOrder _).1 memB).1) le

theorem State.settle_plansIn (s : State) : s.plansIn s.settle.planOrder := by
  refine ⟨s.settle.planOrder_pairwise.imp fun before => (s.settle_plansBefore _ _).1 before, fun e => ?_⟩
  rw [s.settle.mem_planOrder, s.settle_windowOf, s.settle_entry]

/-! ### What the pass gives an entry (R146 to R148) -/

section Gives

variable {s u t : State} {before after : List EntryId} {e : EntryId}
  (plans : s.PlansAs u) (once : (before ++ e :: after).Nodup)
  (reserved : ∀ d i, (t.entry d).reserved = some i ↔ (⟨d, i⟩ : Choice) ∈ u.picks (before ++ e :: after))

include once

theorem fresh_of_once : e ∉ before := by
  obtain ⟨-, -, apart⟩ := List.nodup_append.1 once
  exact fun mem => apart e mem e List.mem_cons_self rfl

include reserved

/-- The packs of the entries planned before are the choices made by then. -/
theorem State.free_of_earlier_iff (i : SlotId) : (∀ d ∈ before, (t.entry d).reserved ≠ some i) ↔ ∀ c ∈ u.picks before, c.slot ≠ i := by
  have stands {d : EntryId} (mem : d ∈ before) : (t.entry d).reserved = some i ↔ (⟨d, i⟩ : Choice) ∈ u.picks before := by
    have other : d ≠ e := fun own => fresh_of_once once (own ▸ mem)
    rw [reserved, (State.picks_at once).2 d (List.mem_append_left _ mem), State.mem_picks_append]
    simp [other]
  refine ⟨fun free c mem own => ?_, fun free d mem held => free ⟨d, i⟩ ((stands mem).1 held) rfl⟩
  obtain ⟨d, j⟩ := c
  obtain rfl : j = i := own
  exact free d (State.picks_entry mem) ((stands (State.picks_entry mem)).2 mem)

theorem gives_choice (status : (t.entry e).status = ((u.plannedBy (before ++ e :: after)).1.entry e).status) :
    t.gives e (u.choiceAfter before e).1 (u.choiceAfter before e).2 := by
  refine ⟨Option.ext fun i => ?_, status.trans (State.picks_at once).1⟩
  rw [reserved, (State.picks_at once).2 e (by simp), State.mem_picks_append]
  have early : (⟨e, i⟩ : Choice) ∉ u.picks before := fun mem => fresh_of_once once (State.picks_entry mem)
  simp [early]

include plans

theorem offers_iff_candidates (i : SlotId) (n : Nat) : s.offers t before e i n ↔ (i, n) ∈ u.candidates (u.picks before) e := by
  rw [State.offers_iff, State.mem_candidates, State.free_of_earlier_iff once reserved, plans.projection]

theorem makes_iff_making (i : SlotId) : s.makes t before e i ↔ i ∈ u.making (u.picks before) e := by
  unfold State.makes
  rw [State.mem_making]
  simp only [State.offers_iff, State.free_of_earlier_iff once reserved, plans.projection, plans.departureIn]

/-- The choice of R148 is the first of its three that applies. -/
theorem packChosen (stays : (u.entry e).reserved = (s.entry e).reserved)
    (status : (t.entry e).status = ((u.plannedBy (before ++ e :: after)).1.entry e).status) : s.PackChosen t before e := by
  have gives := gives_choice once reserved status
  have offers := offers_iff_candidates plans once reserved
  have makes := makes_iff_making plans once reserved
  have rotates (i j : SlotId) (le : keyLe (u.rotationKey i) (u.rotationKey j) = true) : s.rotatesBefore i j := by
    rw [plans.rotationKey, plans.rotationKey] at le
    exact State.rotatesBefore_of_key le
  have unkept (never : ∀ i, (s.entry e).reserved = some i → ¬ s.makes t before e i) : u.keptPack (u.picks before) e = none := by
    by_contra some
    obtain ⟨i, kept⟩ := Option.ne_none_iff_exists'.1 some
    obtain ⟨held, making⟩ := State.keptPack_some.1 kept
    exact never i (stays ▸ held) ((makes i).2 making)
  have unmade (never : ∀ i, ¬ s.makes t before e i) : u.firstPack (u.picks before) e = none :=
    (head?_sortByKey_none _).2 (List.eq_nil_iff_forall_not_mem.2 fun i making => never i ((makes i).2 making))
  unfold State.choiceAfter at gives
  refine ⟨fun i held making => ?_, fun never i making least => ?_, fun never i n offered least => ?_, fun never => ?_, ?_⟩
  · rw [State.choose_kept (State.keptPack_some.2 ⟨stays.trans held, (makes i).1 making⟩)] at gives
    exact gives
  · have first : u.firstPack (u.picks before) e = some i :=
      head?_sortByKey _ ((makes i).1 making) fun j other le => State.rotatesBefore_antisymm (rotates j i le) (least j ((makes j).2 other))
    rw [State.choose_first (unkept never) first] at gives
    exact gives
  · have soonest : u.soonestPack (u.picks before) e = some (i, n) := by
      refine head?_sortByKey _ ((offers i n).1 offered) fun ⟨j, m⟩ other le => ?_
      rw [keyLe_cons] at le
      rcases least j m ((offers j m).2 other) with sooner | ⟨level, first⟩
      · dsimp only at le
        omega
      · obtain rfl := level
        rw [State.rotatesBefore_antisymm (rotates j i (le.elim (fun less => absurd less (lt_irrefl _)) (·.2))) first]
    rw [State.choose_soonest (unkept fun i _ => never i) (unmade never) soonest] at gives
    exact gives
  · have unmakes (i : SlotId) : ¬ s.makes t before e i := fun ⟨n, offered, _⟩ => never i n offered
    have soonest : u.soonestPack (u.picks before) e = none :=
      (head?_sortByKey_none _).2 (List.eq_nil_iff_forall_not_mem.2 fun c other => never c.1 c.2 ((offers _ _).2 other))
    rw [State.choose_short (unkept fun i _ => unmakes i) (unmade unmakes) soonest] at gives
    exact gives
  · obtain ⟨held, own⟩ := gives
    rw [held, own]
    exact u.choose_status (u.picks before) e

end Gives

theorem State.projection_held {s : State} {e : EntryId} {i : SlotId} {n : Nat} (time : s.projection e i = some n) :
    (s.record i).lifecycle = .docked ∨ (s.record i).lifecycle = .ready := by
  unfold State.projection at time
  dsimp only at time
  split at time
  · contradiction
  · rename_i offered
    simp only [Bool.or_eq_true, not_or] at offered
    exact Decidable.or_iff_not_imp_left.2 (by simpa using offered.1.1)

/-! ### The pass on a sound roster (R143 to R149) -/

/-- The state that a pass settles, its request taken (R143, R144). -/
def State.settledPlan (s : State) : State := ({ s with planMark := false } : State).settle

/-- The state whose reservations a pass writes (R148). -/
def State.plannedPlan (s : State) : State := (s.settledPlan.plannedBy s.settledPlan.planOrder).1

theorem State.plan_eq (s : State) :
    s.plan = s.plannedPlan.writeReservations (s.settledPlan.picks s.settledPlan.planOrder) := rfl

theorem State.settledPlan_eq (s : State) : ∃ ports, s.settledPlan = { s with
      planMark := false, entries := updateAll s.entries fun e _ => s.settledEntry e, ports := ports } ∧
    ((∃ e, s.misses e) → ports = updateAll s.ports fun _ y => y.deliver .short .part) ∧
    ((¬ ∃ e, s.misses e) → ports = s.ports) := ({ s with planMark := false } : State).settle_eq

theorem State.settledPlan_entry (s : State) (e : EntryId) : s.settledPlan.entry e = s.settledEntry e :=
  ({ s with planMark := false } : State).settle_entry e

theorem State.settledPlan_plansIn (s : State) : s.plansIn s.settledPlan.planOrder :=
  ({ s with planMark := false } : State).settle_plansIn

theorem State.settledPlan_plansAs (s : State) : s.PlansAs s.settledPlan :=
  have plans := ({ s with planMark := false } : State).settle_plansAs
  ⟨plans.records, plans.bays, plans.profiles, plans.clock, plans.site, plans.entries⟩

theorem State.plannedPlan_eq (s : State) : ∃ entries ports,
    s.plannedPlan = { s with planMark := false, entries := entries, ports := ports } := by
  obtain ⟨entries, ports, planned, -⟩ := s.settledPlan.plannedBy_frame s.settledPlan.planOrder
  obtain ⟨_, settled, -, -⟩ := s.settledPlan_eq
  exact ⟨entries, ports, by rw [State.plannedPlan, planned, settled]⟩

theorem State.plannedPlan_entry (s : State) (e : EntryId) :
    s.plannedPlan.entry e = { s.settledEntry e with status := (s.plannedPlan.entry e).status } := by
  obtain ⟨entries, ports, -, same⟩ := s.settledPlan.plannedBy_frame s.settledPlan.planOrder
  rw [← s.settledPlan_entry]
  exact same e

theorem State.plannedPlan_record (s : State) (i : SlotId) : s.plannedPlan.record i = s.record i := by
  obtain ⟨_, _, planned⟩ := s.plannedPlan_eq
  rw [planned]
  rfl

theorem State.sound.plan_reserves {s : State} (h : s.sound) :
    s.plannedPlan.Reserves (s.settledPlan.picks s.settledPlan.planOrder) s.plan := by
  obtain ⟨distinct, offered⟩ := s.settledPlan.picks_distinct s.settledPlan.planOrder s.settledPlan.planOrder_nodup
  have sound : s.plannedPlan.sound := by
    obtain ⟨_, _, planned⟩ := s.plannedPlan_eq
    exact h.of_checks (by rw [planned])
  rw [s.plan_eq]
  refine sound.writeReservations distinct fun c mem => ?_
  obtain ⟨n, time⟩ := offered c mem
  rw [s.settledPlan_plansAs.projection] at time
  rw [s.plannedPlan_record]
  exact State.projection_held time

theorem State.sound.plan_status {s : State} (h : s.sound) (e : EntryId) : (s.plan.entry e).status = (s.plannedPlan.entry e).status := by
  rw [h.plan_reserves.entries]

/-- An entry without a place in the order keeps its settled status. -/
theorem State.sound.plan_status_away {s : State} (h : s.sound) {e : EntryId} (away : e ∉ s.settledPlan.planOrder) :
    (s.plan.entry e).status = (s.settledEntry e).status := by
  rw [h.plan_status, State.plannedPlan, State.plannedBy_away away, s.settledPlan_entry]

theorem State.sound.comesShort_iff {s : State} (h : s.sound) :
    s.comesShort s.plan ↔ (∃ e, s.misses e) ∨ s.settledPlan.shortBy s.settledPlan.planOrder := by
  refine or_congr Iff.rfl ⟨fun ⟨e, falls, differs⟩ => ?_, fun ⟨e, _, falls, differs⟩ => ⟨e, ?_, ?_⟩⟩
  · by_cases placed : e ∈ s.settledPlan.planOrder
    · rw [h.plan_status] at falls differs
      exact ⟨e, placed, falls, by rwa [s.settledPlan_entry]⟩
    · exact absurd (h.plan_status_away placed) differs
  · rw [h.plan_status]
    exact falls
  · rwa [h.plan_status, ← s.settledPlan_entry]

theorem State.sound.plan_noticed {s : State} (h : s.sound) (short : s.comesShort s.plan) (q : PortId)
    (takes : (s.port q).role.takes .short .part = true) : hasFlag (s.plan.port q).raised NoticeKind.short.bit = true := by
  rw [h.plan_reserves.raised]
  have settled : PortMoves (s.port q) (s.settledPlan.port q) := (State.settle_evolves { s with planMark := false }).ports q
  have planned : PortMoves (s.settledPlan.port q) (s.plannedPlan.port q) :=
    (State.planEntries_evolves s.settledPlan.planOrder (s.settledPlan, [])).ports q
  rcases h.comesShort_iff.1 short with missed | changed
  · obtain ⟨ports, settles, loud, -⟩ := s.settledPlan_eq
    refine planned.raised _ (settled.raises_last (y := s.port q) ?_ takes)
    rw [settles, loud missed]
    exact get_updateAll _ _ _
  · refine (s.settledPlan.plannedBy_ports _ s.settledPlan.planOrder_nodup).1 changed q ?_
    rwa [settled.role]

theorem State.sound.plan_quiet {s : State} (h : s.sound) (calm : ¬ s.comesShort s.plan) (q : PortId) :
    (s.plan.port q).raised = (s.port q).raised := by
  rw [h.comesShort_iff, not_or] at calm
  obtain ⟨unmissed, unchanged⟩ := calm
  obtain ⟨ports, settles, -, quiet⟩ := s.settledPlan_eq
  have planned : s.plannedPlan.ports = s.settledPlan.ports :=
    (s.settledPlan.plannedBy_ports _ s.settledPlan.planOrder_nodup).2 unchanged
  rw [h.plan_reserves.raised, State.port, planned, settles, quiet unmissed]
  rfl

theorem State.sound.plan_packChosen {s : State} (h : s.sound) {before after : List EntryId} {e : EntryId}
    (order : s.settledPlan.planOrder = before ++ e :: after) : s.PackChosen s.plan before e := by
  have once := order ▸ s.settledPlan.planOrder_nodup
  refine packChosen s.settledPlan_plansAs once (order ▸ h.plan_reserves.reserved) ?_ ?_
  · obtain ⟨inside, -⟩ := (s.settledPlan_plansIn.2 e).1 (by rw [order]; simp)
    rw [s.settledPlan_entry, State.settledEntry_reserved inside]
  · rw [h.plan_status, State.plannedPlan, order]

/-- A planning pass on a sound roster is the pass that PlannedTo describes. -/
theorem State.sound.plan_plannedTo {s : State} (h : s.sound) : s.PlannedTo s.plan where
  frame := by
    obtain ⟨_, _, planned⟩ := s.plannedPlan_eq
    have frame := h.plan_reserves.frame
    generalize s.plan = t at frame
    rw [planned] at frame
    rw [frame]
  records i := by
    refine ⟨?_, ?_⟩
    · have written := h.plan_reserves.records i
      rwa [s.plannedPlan_record] at written
    · obtain ⟨_, _, planned⟩ := s.plannedPlan_eq
      have checks : s.plan.checks = s.plannedPlan.checks := by rw [h.plan_reserves.frame]
      exact h.of_checks (by rw [checks, planned]) i
  agree i e := (h.plan_reserves.reservation i e).trans (h.plan_reserves.reserved e i).symm
  entries e := by
    rw [h.plan_reserves.entries, s.plannedPlan_entry]
  planned := by
    refine ⟨_, s.settledPlan_plansIn, fun e away => ⟨?_, h.plan_status_away away⟩, fun before e after order => h.plan_packChosen order⟩
    refine Option.eq_none_iff_forall_ne_some.2 fun i held => away ?_
    exact State.picks_entry ((h.plan_reserves.reserved e i).1 held)
  request := by
    obtain ⟨_, _, planned⟩ := s.plannedPlan_eq
    have mark : s.plannedPlan.passMark = s.passMark := by rw [planned]
    have request := h.plan_reserves.request
    simpa only [mark, s.plannedPlan_record] using request
  ports := s.plan_evolves.ports
  noticed := h.plan_noticed
  quiet := h.plan_quiet

/-! ### Counters counted and latched (R80, R81) -/

theorem CounterCell.counted_eq (c : CounterCell) :
    (c.value < 65535 → c.counted = ⟨c.value + 1, c.saturated || decide (c.value + 1 = 65535)⟩) ∧ (65535 ≤ c.value → c.counted = c) := by
  unfold CounterCell.counted
  refine ⟨fun below => ?_, fun there => if_neg (Nat.not_lt.2 there)⟩
  rw [if_pos below]
  congr 2

/-- The count that reaches 65535 raises COUNTER. -/
theorem State.count_port (s : State) (b : BayId) (k : EventCounter) (q : PortId) : (s.count b k).port q =
    if ((s.bay b).counters[k.place]).value + 1 = 65535 then (s.port q).deliver .counter (.bay b) else s.port q := by
  unfold State.count
  dsimp only
  by_cases full : ((s.bay b).counters[k.place]).value + 1 = 65535
  · rw [if_pos (beq_iff_eq.2 full), if_pos full]
    exact State.notify_port _ _ _ _
  · rw [if_neg fun h => full (beq_iff_eq.1 h), if_neg full]
    rfl

theorem State.count_bay (s : State) (b a : BayId) (k : EventCounter) : (s.count b k).bay a =
    if a = b then { s.bay b with
      counters := (s.bay b).counters.set k.place ((s.bay b).counters[k.place]).counted } else s.bay a := by
  obtain ⟨ports, counted⟩ := s.count_eq b k
  rw [counted]
  exact get_set _ _ _ _

theorem State.latch_ports (s : State) : s.latch.ports = s.ports := by
  unfold State.latch
  rfl

theorem State.latch_frame (s : State) (p : PortId) (x : Port) : s.latch.setPort p x = { s with
    bays := (s.latch.setPort p x).bays, latchNumber := if s.latchNumber < 65535 then s.latchNumber + 1 else 0
    ports := (s.latch.setPort p x).ports } := by
  unfold State.latch
  rfl

theorem State.latch_port (s : State) (q : PortId) : s.latch.port q = s.port q := by
  unfold State.port
  rw [s.latch_ports]

theorem State.latch_bay (s : State) (b : BayId) : s.latch.bay b = (s.bay b).latched := by
  unfold State.bay State.latch
  exact get_updateAll _ _ _

theorem execLatchCounters_accepted {p : PortId} {s : State} (accepted : s.accepts p rowLatchCounters [] = true) :
    execLatchCounters p s = .next (s.latch.setPort p ((s.port p).wrote [] .ok)) := by
  unfold execLatchCounters
  rw [State.transact_writes accepted rfl rfl (by rw [s.latch_port]), s.latch_port]

theorem State.latch_wrote_port (s : State) (p q : PortId) : (s.latch.setPort p ((s.port p).wrote [] .ok)).port q =
    if q = p then (s.port q).wrote [] .ok else s.port q := by
  rw [State.setPort_port, s.latch_port]
  split
  · rename_i own
    rw [own]
  · rfl

/-! ### The minute change (R81, R133, R151) -/

theorem Site.shiftStart_iff (x : Site) (m : Nat) : x.shiftStart m = true ↔ ∃ k : Fin 4, x.shiftStarts[k] = m % 1440 := by
  have day : m % 1440 < 1440 := Nat.mod_lt _ (by decide)
  unfold Site.shiftStart
  simp only [List.any_eq_true, List.mem_finRange, true_and, Bool.and_eq_true, bne_iff_ne, beq_iff_eq]
  refine ⟨fun ⟨k, _, starts⟩ => ⟨k, starts⟩, fun ⟨k, starts⟩ => ⟨k, ?_, starts⟩⟩
  rw [starts]
  exact day.ne

/-- A minute change latches in AUTO at a shift start (R81). -/
def State.latches (s : State) (m : Nat) : Prop := s.site.latchMode = .auto ∧ ∃ k : Fin 4, s.site.shiftStarts[k] = m % 1440

/-- The state that the planning pass of a minute change starts from. -/
def State.minuteBase (s : State) (m : Nat) : State :=
  let cleared : State := { s with minuteDue := none }
  if s.site.latchMode == .auto && s.site.shiftStart m then cleared.latch else cleared

theorem State.changeMinute_eq (s : State) (m : Nat) : s.changeMinute m = (s.minuteBase m).plan := rfl

theorem State.minuteBase_latched {s : State} {m : Nat} (latches : s.latches m) :
    s.minuteBase m = ({ s with minuteDue := none } : State).latch :=
  if_pos (by rw [Bool.and_eq_true, beq_iff_eq, Site.shiftStart_iff]; exact latches)

theorem State.minuteBase_quiet {s : State} {m : Nat} (quiet : ¬ s.latches m) : s.minuteBase m = { s with minuteDue := none } :=
  if_neg (by rw [Bool.and_eq_true, beq_iff_eq, Site.shiftStart_iff]; exact quiet)

/-- A minute change touches the mark, the bays' counters and the latch number before its pass. -/
theorem State.minuteBase_eq (s : State) (m : Nat) : s.minuteBase m =
    { s with minuteDue := none, bays := (s.minuteBase m).bays, latchNumber := (s.minuteBase m).latchNumber } := by
  by_cases latches : s.latches m
  · rw [State.minuteBase_latched latches]
    rfl
  · rw [State.minuteBase_quiet latches]

/-- A pass leaves the bays and the latch number, and no request of its own. -/
theorem State.PlannedTo.keeps {u t : State} (h : u.PlannedTo t) : t.bays = u.bays ∧ t.latchNumber = u.latchNumber ∧
    t.minuteDue = u.minuteDue ∧ t.planMark = false ∧ t.clock = u.clock ∧ t.site = u.site ∧ t.supply = u.supply ∧
    t.profiles = u.profiles ∧ t.readyQueues = u.readyQueues ∧ t.draws = u.draws ∧ t.recalls = u.recalls ∧
    t.pendingList = u.pendingList := by
  rw [h.frame]
  exact ⟨rfl, rfl, rfl, rfl, rfl, rfl, rfl, rfl, rfl, rfl, rfl, rfl⟩

theorem execClockMinuteChange_due {s : State} {m : Nat} (running : s.phase = .running) (due : s.minuteDue = some m) :
    execClockMinuteChange s = .next (s.changeMinute m) := by
  unfold execClockMinuteChange
  rw [running, due]

theorem execClockMinuteChange_idle {s : State} (idle : s.phase ≠ .running ∨ s.minuteDue = none) : execClockMinuteChange s = .next s := by
  unfold execClockMinuteChange
  rcases idle with idle | idle
  · cases phase : s.phase with
    | running => exact absurd phase idle
    | scanAfterPowerOn => rfl
    | scanAfterHardReset => rfl
    | heldInReset => rfl
  · rw [idle]
    cases s.phase <;> rfl

end Sys2Proof.Machine

open Sys2Proof Sys2Proof.Machine

/-- Settles O44: the pass of a minute change is followed as a list of choices, off which both sides of every reservation are read; the
latch before it leaves all that the pass reads. -/
theorem latchesCopyTheCounters : Obligations.LatchesCopyTheCounters := by
  unfold Obligations.LatchesCopyTheCounters
  intro latched next
  refine ⟨fun p s accepted => ?_, CounterCell.counted_eq, fun s b k => ?_, fun s => ⟨execClockMinuteChange_idle, fun m running due sound => ?_⟩⟩
  · refine ⟨_, execLatchCounters_accepted accepted, s.latch_frame p _, fun b => ?_, s.latch_wrote_port p⟩
    rw [State.setPort_bay]
    exact s.latch_bay b
  · refine ⟨?_, fun a other => (s.count_bay b a k).trans (if_neg other), ?_, ?_, fun j other => ?_, s.count_port b k⟩
    · obtain ⟨ports, counted⟩ := s.count_eq b k
      rw [counted]
    · rw [s.count_bay, if_pos rfl]
    · rw [s.count_bay, if_pos rfl]
      exact (get_set _ _ _ _).trans (if_pos rfl)
    · rw [s.count_bay, if_pos rfl]
      exact (get_set _ _ _ _).trans (if_neg other)
  · have base := s.minuteBase_eq m
    have sound' : (s.minuteBase m).sound := sound.of_checks (by rw [base])
    have planned := sound'.plan_plannedTo
    refine ⟨_, execClockMinuteChange_due running due, ?_⟩
    rw [s.changeMinute_eq]
    generalize (s.minuteBase m).plan = t at planned
    obtain ⟨bays, latchNumber, minuteDue, planMark, clock, site, supply, profiles, queues, draws, recalls, pending⟩ := planned.keeps
    refine ⟨minuteDue.trans (by rw [base]), planMark, clock.trans (by rw [base]), site.trans (by rw [base]), supply.trans (by rw [base]),
      profiles.trans (by rw [base]), queues.trans (by rw [base]), draws.trans (by rw [base]), recalls.trans (by rw [base]),
      pending.trans (by rw [base]), ?_, fun auto start => ?_, fun quiet => ?_⟩
    · rw [bays, latchNumber, ← base]
      exact planned
    · rw [State.minuteBase_latched ⟨auto, start⟩] at bays latchNumber
      refine ⟨fun b => ?_, latchNumber⟩
      rw [State.bay, bays]
      exact State.latch_bay _ b
    · have silent : ¬ s.latches m := by
        rintro ⟨auto, k, start⟩
        rcases quiet with manual | never
        · exact absurd (auto.symm.trans manual) (by decide)
        · exact never k start
      rw [State.minuteBase_quiet silent] at bays latchNumber
      exact ⟨bays, latchNumber⟩

end

section
/-!
SET_SITE (R181): the settings that its bytes write, and what each owner of a setting makes of a change (R94, R102, R135).
-/

namespace Sys2Proof.Machine

theorem updateAll_self {α : Type} {n : Nat} (v : Vector α n) : (updateAll v fun _ x => x) = v :=
  vector_ext fun j => get_updateAll v _ j

/-- The clamps of R181, said as least and greatest values. -/
theorem siteOf_eq (params : List Byte) : siteOf params =
    { period := min 30 (max 1 (byteAt params 0)), reportTimeout := min 60 (max 2 (byteAt params 1))
      lostTimeout := min 300 (max 10 (u16At params 2)), confirmTimeout := min 15 (max 1 (byteAt params 4))
      criterion := if byteAt params 5 = 0 then .strict else .lenient
      latchMode := if byteAt params 6 = 0 then .manual else .auto
      shiftStarts := #v[min 1440 (u16At params 7), min 1440 (u16At params 9), min 1440 (u16At params 11),
        min 1440 (u16At params 13)]
      horizon := min 1440 (max 60 (u16At params 15)), grace := min 60 (byteAt params 17)
      rampTime := min 120 (byteAt params 18), minimumIssue := min 100 (byteAt params 19) } := by
  unfold siteOf
  rw [clampNat_eq (by decide), clampNat_eq (by decide), clampNat_eq (by decide), clampNat_eq (by decide),
    clampNat_eq (by decide)]
  rfl

theorem State.retime_eq (s : State) (old : Site) : s.retime old =
    { s with periodTimer := if s.site.period = old.period then s.periodTimer else some s.site.period } := by
  unfold State.retime
  split <;> rfl

theorem State.replan_eq (s : State) (old : Site) : s.replan old =
    { s with planMark := s.planMark || decide (s.site.horizon ≠ old.horizon) || decide (s.site.grace ≠ old.grace) } := by
  unfold State.replan
  by_cases same : s.site.horizon = old.horizon ∧ s.site.grace = old.grace
  · obtain ⟨horizon, grace⟩ := same
    simp [horizon, grace]
  · have differs : s.site.horizon ≠ old.horizon ∨ s.site.grace ≠ old.grace := by rwa [← not_and_or]
    rw [if_neg (by simpa using same), Bool.or_assoc, ← Bool.decide_or, decide_eq_true differs, Bool.or_true]
    rfl

/-! ### The ramp (R94) -/

/-- A ramp in progress meets settings with another ramp time than the old ones. -/
abbrev State.reramps (s : State) (old : Site) : Prop := s.site.rampTime ≠ old.rampTime ∧ s.supply.hold = .ramping

/-- It has already lasted the new ramp time, and ends. -/
abbrev State.rerampEnds (s : State) (old : Site) : Prop :=
  s.site.rampTime ≠ old.rampTime ∧ s.supply.hold = .ramping ∧ s.site.rampTime ≤ s.supply.elapsed.getD 0

/-- The supply after the end of a ramp. -/
def Supply.rampEnded (x : Supply) : Supply := { x with hold := .running, elapsed := none }

/-- The supply once a ramp in progress follows the settings. -/
def State.rerampedSupply (s : State) (old : Site) : Supply := if s.rerampEnds old then s.supply.rampEnded else s.supply

theorem State.endRamp_eq (s : State) : s.endRamp = { s with
    supply := s.supply.rampEnded
    passMark := s.passMark || decide ((s.setSupply s.supply.rampEnded).budget < s.supply.passFigure)
    ports := updateAll s.ports fun _ y => y.deliver .supply .part } := by
  unfold State.endRamp State.resupply
  rw [State.checkBudget_eq]
  rfl

theorem State.reramp_eq (s : State) (old : Site) : s.reramp old = { s with
    supply := s.rerampedSupply old
    passMark := s.passMark ||
      (decide (s.reramps old) && decide ((s.setSupply (s.rerampedSupply old)).budget < s.supply.passFigure))
    ports := updateAll s.ports fun _ y => if s.rerampEnds old then y.deliver .supply .part else y } := by
  unfold State.reramp State.rerampedSupply
  by_cases follows : s.reramps old
  · rw [if_neg (by simp [follows.1, follows.2]), decide_eq_true follows, Bool.true_and]
    by_cases lasted : s.site.rampTime ≤ s.supply.elapsed.getD 0
    · have ends : s.rerampEnds old := ⟨follows.1, follows.2, lasted⟩
      simp only [if_pos lasted, if_pos ends]
      exact s.endRamp_eq
    · have lasts : ¬ s.rerampEnds old := fun ends => lasted ends.2.2
      simp only [if_neg lasted, if_neg lasts, updateAll_self]
      exact s.checkBudget_eq
  · have stays : ¬ s.rerampEnds old := fun ends => follows ⟨ends.1, ends.2.1⟩
    have quiet : s.site.rampTime = old.rampTime ∨ s.supply.hold ≠ .ramping := by
      rwa [not_and_or, not_not] at follows
    rw [if_pos (by simpa using quiet)]
    simp only [decide_eq_false follows, Bool.false_and, Bool.or_false, if_neg stays, updateAll_self]

/-! ### The settings written (R181) -/

/-- The settings written, before the owner of any applies its own. -/
def State.withSite (s : State) (x : Site) : State := { s with site := x }

theorem State.setSite_eq (s : State) (x : Site) : s.setSite x = { s with
    site := x
    supply := (s.withSite x).rerampedSupply s.site
    periodTimer := if x.period = s.site.period then s.periodTimer else some x.period
    planMark := s.planMark || decide (x.horizon ≠ s.site.horizon) || decide (x.grace ≠ s.site.grace)
    passMark := s.passMark || (decide ((s.withSite x).reramps s.site) &&
      decide (((s.withSite x).setSupply ((s.withSite x).rerampedSupply s.site)).budget < s.supply.passFigure))
    ports := updateAll s.ports fun _ y => if (s.withSite x).rerampEnds s.site then y.deliver .supply .part else y } := by
  unfold State.setSite
  rw [State.retime_eq, State.reramp_eq, State.replan_eq]
  rfl

theorem State.setSite_port (s : State) (x : Site) (q : PortId) : (s.setSite x).port q =
    if (s.withSite x).rerampEnds s.site then (s.port q).deliver .supply .part else s.port q := by
  rw [State.setSite_eq]
  exact get_updateAll _ _ _

theorem State.setSite_lastResult (s : State) (x : Site) (q : PortId) : ((s.setSite x).port q).lastResult = (s.port q).lastResult := by
  rw [State.setSite_port]
  split
  · exact (PortMoves.deliver _ _ _).lastResult
  · rfl

end Sys2Proof.Machine

open Sys2Proof Sys2Proof.Machine

/-- Settles O36: the settings written are siteOf's, clamped, and State.setSite_eq says what every owner of a setting makes of them. -/
theorem setSiteClampsEverySetting : Obligations.SetSiteClampsEverySetting := by
  unfold Obligations.SetSiteClampsEverySetting
  intro p params s accepted clamp x ends
  have written : siteOf params = x := siteOf_eq params
  have took : exec (.setSite p params) s = .next ((s.setSite x).setPort p (((s.setSite x).port p).wrote params .ok)) :=
    congrArg Host.Outcome.next (State.transact_writes accepted rfl (by rw [written]) (s.setSite_lastResult x p))
  have passMark : (s.setSite x).passMark = (s.passMark || (decide ((s.withSite x).reramps s.site) &&
      decide ((s.setSite x).budget < s.supply.passFigure))) := by
    rw [State.setSite_eq]
    rfl
  refine ⟨_, took, ?_, fun stays => ?_, fun changes ramping => ?_, fun q => ?_⟩
  · rw [State.setSite_eq]
    rfl
  · rw [State.setPort_passMark, passMark, decide_eq_false (by rwa [not_and_or, not_not]), Bool.false_and, Bool.or_false]
  · rw [State.setPort_passMark, passMark, decide_eq_true ⟨changes, ramping⟩, Bool.true_and]
    rfl
  · exact State.wrote_port s _ p q _ params .ok (s.setSite_port x)

end

section
/-!
The ports, the site settings, the supply and the clock at every step (R85, R86, R133, R167, R168, R172, R179, R181). What evolves the part
writes none of the settings and moves the ports by notices and marks alone; what is left are the resets, the writes of a port's own
transaction, and the commands and timers that write the supply, the settings or the clock.
-/

namespace Sys2Proof.Machine

/-! ### One port -/

/-- An OFF port has no notice, and a port holds less than the entry its stream is writing. -/
def Port.orderly (x : Port) : Prop := x.silentWhenOff ∧ x.holdsPart

/-- A write of a port that leaves its notices and its stream. -/
theorem Port.orderly.of_same {x y : Port} (h : x.orderly) (role : y.role = x.role) (raised : y.raised = x.raised)
    (mask : y.mask = x.mask) (summary : y.summary = x.summary) (stream : y.stream = x.stream) (held : y.held = x.held) :
    y.orderly := by
  unfold Port.orderly Port.silentWhenOff Port.holdsPart
  rw [role, raised, mask, summary, stream, held]
  exact h

/-- A write of a port's stream that leaves its notices. -/
theorem Port.orderly.of_stream {x y : Port} (h : x.orderly) (role : y.role = x.role) (raised : y.raised = x.raised)
    (mask : y.mask = x.mask) (summary : y.summary = x.summary) (part : y.holdsPart) : y.orderly := by
  refine ⟨?_, part⟩
  unfold Port.silentWhenOff
  rw [role, raised, mask, summary]
  exact h.1

/-- Notices and marks that join a port reach no OFF port and no stream (R167, R172). -/
theorem PortMoves.orderly {x y : Port} (h : PortMoves x y) (orderly : x.orderly) : y.orderly := by
  obtain ⟨silent, part⟩ := orderly
  refine ⟨fun off => ?_, ?_⟩
  · rw [h.role] at off
    obtain ⟨raised, summary⟩ := h.off off
    have mask : y.mask = x.mask := by rw [h.same]
    rw [raised, summary, mask]
    exact silent off
  · unfold Port.holdsPart
    rw [h.same]
    exact part

/-- A transaction's end closes the stream (R175, notes/assumptions/12.md). -/
theorem Port.orderly.ended {x : Port} (h : x.orderly) (r : ResultCode) (after : List Byte) : (x.ended r after).orderly :=
  h.of_stream rfl rfl rfl rfl rfl

/-- No byte of its first entry has arrived at a stream just opened (R179). -/
theorem Window.open_holdsPart {x : Port} {w : Window} (stream : x.stream = some w.open) (held : x.held = []) : x.holdsPart := by
  unfold Port.holdsPart
  rw [stream, held]
  cases w <;> exact Nat.zero_lt_succ _

/-- No byte has arrived at a port between two entries of its stream (R179). -/
theorem Port.holdsPart_of_none {x : Port} (held : x.held = []) : x.holdsPart := by
  unfold Port.holdsPart
  rw [held]
  split <;> simp

/-- A soft reset leaves an OFF port silent and takes every stream's window away (R173, R183). -/
theorem Port.orderly.softReset {x : Port} (h : x.orderly) : x.softReset.orderly := by
  refine ⟨fun off => ?_, Port.holdsPart_of_none rfl⟩
  have mask := (h.1 off).2.1
  have role : x.role = .off := off
  simp [Port.softReset, role, mask]

/-! ### The settings -/

/-- A write of the hold state, the zone or the pass figure leaves the figures in their ranges. -/
theorem Supply.inRange.of_same {x y : Supply} (h : x.inRange) (limit : y.limit = x.limit) (reserve : y.reserve = x.reserve)
    (readings : y.readings = x.readings) (condition : y.condition = x.condition) (age : y.age = x.age) : y.inRange := by
  unfold Supply.inRange
  rw [limit, reserve, readings, condition, age]
  exact h

/-- A reading clamped to 250 000 joins the window, of which at most eight stand, and the meter is FRESH with age 0 (R86, R87). -/
theorem Supply.inRange.read {x : Supply} (h : x.inRange) {r : Nat} (bound : r ≤ 250000) :
    ({ x with readings := appendReading x.readings r, age := some 0, condition := .fresh } : Supply).inRange := by
  obtain ⟨limit, reserve, few, bounds, -, -⟩ := h
  have some_left : appendReading x.readings r ≠ [] := by
    unfold appendReading
    rw [Ne, List.drop_eq_nil_iff, List.length_append, List.length_singleton]
    omega
  refine ⟨limit, reserve, ?_, fun n mem => ?_, ?_, ?_⟩
  · simp only [appendReading, List.length_drop, List.length_append, List.length_singleton]
    omega
  · rcases List.mem_append.mp (List.mem_of_mem_drop mem) with old | new
    · exact bounds n old
    · exact (List.mem_singleton.mp new).trans_le bound
  · simp [some_left]
  · simp [some_left]

/-- A limit and a reserve within their ranges, with a meter mode (R85). -/
theorem Supply.inRange.limited {x : Supply} (h : x.inRange) {limit reserve : Nat} (low : limit ≤ 250000)
    (least : reserve ≤ 50000) (mode : MeterMode) :
    ({ x with limit := limit, reserve := reserve, meterMode := mode } : Supply).inRange := by
  obtain ⟨-, -, meter⟩ := h
  exact ⟨low, least, meter⟩

/-- A meter that is FRESH becomes STALE with its readings (R87). -/
theorem Supply.inRange.stale {x : Supply} (h : x.inRange) (fresh : x.condition = .fresh) :
    ({ x with condition := .stale } : Supply).inRange := by
  obtain ⟨limit, reserve, few, bounds, empty, aged⟩ := h
  refine ⟨limit, reserve, few, bounds, ?_, aged⟩
  rw [fresh] at empty
  simpa using empty

/-- The reading's age counts on while there is one (R87). -/
theorem Supply.inRange.tick {x : Supply} (h : x.inRange) (n : Nat) : (x.tick n).inRange := by
  obtain ⟨limit, reserve, few, bounds, empty, aged⟩ := h
  refine ⟨limit, reserve, few, bounds, empty, ?_⟩
  have ticks : (x.tick n).age.isSome = x.age.isSome := Option.isSome_map
  rw [ticks]
  exact aged

/-- The clock one second on names a minute of the week (R133). -/
theorem Clock.next_inRange {c : Clock} (minute : c.minute ≤ 10079) : c.next.minute ≤ 10079 ∧ c.next.second ≤ 59 := by
  by_cases early : c.second < 59
  · rw [Clock.next_of_lt early]
    exact ⟨minute, early⟩
  · rw [Clock.next_of_le (not_lt.mp early)]
    dsimp only
    exact ⟨by split <;> omega, Nat.zero_le _⟩

/-- A second keeps the clock and the minute that awaits its change within the week (R133). -/
theorem State.tick_clockInRange {s : State} (h : s.clockInRange) : s.tick.clockInRange := by
  obtain ⟨clock, due⟩ := h
  unfold State.clockInRange
  rw [State.tick_clock, State.tick_minuteDue]
  cases set : s.clock with
  | none =>
    rw [State.ticked_minuteDue_of_none set]
    exact ⟨nofun, due⟩
  | some c =>
    have next := Clock.next_inRange (clock c set).1
    rw [State.ticked_minuteDue_of_some set]
    refine ⟨fun d e => Option.some.inj e ▸ next, fun m awaited => ?_⟩
    split at awaited
    · exact Option.some.inj awaited ▸ next.1
    · exact due m awaited

/-- Clamped settings lie in their ranges (R181). -/
theorem siteOf_inRange (params : List Byte) : (siteOf params).inRange := by
  have clamped {low high : Nat} (n : Nat) (order : low ≤ high) : low ≤ clampNat low high n ∧ clampNat low high n ≤ high := by
    rw [clampNat_eq order]
    omega
  refine ⟨clamped _ (by decide), clamped _ (by decide), clamped _ (by decide), clamped _ (by decide), fun k => ?_,
    clamped _ (by decide), min_le_left _ _, min_le_left _ _, min_le_left _ _⟩
  simp only [siteOf, Fin.getElem_fin, Vector.getElem_ofFn]
  exact min_le_left _ _

/-! ### The part -/

/-- Ports that are orderly in s, and settings that lie in their ranges, are and do so in t. -/
structure KeepsOrder (s t : State) : Prop where
  ports : (∀ q, (s.port q).orderly) → ∀ q, (t.port q).orderly
  site : s.site.inRange → t.site.inRange
  supply : s.supply.inRange → t.supply.inRange
  clock : s.clockInRange → t.clockInRange

theorem KeepsOrder.refl (s : State) : KeepsOrder s s := ⟨id, id, id, id⟩

theorem KeepsOrder.trans {s t u : State} (h : KeepsOrder s t) (g : KeepsOrder t u) : KeepsOrder s u :=
  ⟨g.ports ∘ h.ports, g.site ∘ h.site, g.supply ∘ h.supply, g.clock ∘ h.clock⟩

/-- A write of the ports and of none of the settings. -/
theorem KeepsOrder.ofPorts {s t : State} (site : t.site = s.site) (supply : t.supply = s.supply) (clock : t.clock = s.clock)
    (due : t.minuteDue = s.minuteDue) (ports : ∀ q, (s.port q).orderly → (t.port q).orderly) : KeepsOrder s t := by
  refine ⟨fun h q => ports q (h q), fun h => site ▸ h, fun h => supply ▸ h, fun h => ?_⟩
  unfold State.clockInRange
  rw [clock, due]
  exact h

/-- A write of neither the ports nor the settings. -/
theorem KeepsOrder.ofSame {s t : State} (ports : t.ports = s.ports) (site : t.site = s.site) (supply : t.supply = s.supply)
    (clock : t.clock = s.clock) (due : t.minuteDue = s.minuteDue) : KeepsOrder s t :=
  .ofPorts site supply clock due fun q h => by
    unfold State.port
    rw [ports]
    exact h

/-- What evolves the part keeps its order. -/
theorem Evolves.keepsOrder {s t : State} (h : Evolves s t) : KeepsOrder s t :=
  .ofPorts h.frame.site h.frame.supply h.frame.clock h.frame.minuteDue fun q => (h.ports q).orderly

/-- A reset leaves every port orderly and every setting at its default (R21, R99, R133, R173, R181). -/
theorem KeepsOrder.ofReset {s t : State} {straps : Straps} {marks : FlagSet 8} (ports : t.ports = resetPorts straps marks)
    (site : t.site = defaultSite) (supply : t.supply = resetSupply) (clock : t.clock = none) (due : t.minuteDue = none) :
    KeepsOrder s t := by
  refine ⟨fun _ q => ?_, fun _ => site ▸ defaultSite_inRange, fun _ => supply ▸ resetSupply_inRange, fun _ => ?_⟩
  · have port : t.port q = resetPort straps marks q := by simp [State.port, ports, resetPorts]
    rw [port]
    exact resetPort_lawful straps marks q
  · unfold State.clockInRange
    rw [clock, due]
    exact ⟨nofun, nofun⟩

/-! ### Writes of a command's own -/

theorem State.setPort_keepsOrder (s : State) (p : PortId) (x : Port) (h : (s.port p).orderly → x.orderly) :
    KeepsOrder s (s.setPort p x) :=
  .ofPorts rfl rfl rfl rfl fun q orderly => by
    rw [State.setPort_port]
    split
    · rename_i own
      exact h (own ▸ orderly)
    · exact orderly

theorem State.ended_keepsOrder (s : State) (p : PortId) (r : ResultCode) (after : List Byte) :
    KeepsOrder s (s.setPort p ((s.port p).ended r after)) := s.setPort_keepsOrder p _ fun h => h.ended r after

theorem State.fixResult_keepsOrder (s : State) (p : PortId) (r : ResultCode) (out : List Byte) :
    KeepsOrder s (s.fixResult p r out) := s.setPort_keepsOrder p _ fun h => h.of_stream rfl rfl rfl rfl rfl

/-- The Supply Monitor's state changed within its ranges. -/
theorem State.setSupply_keepsOrder (s : State) (x : Supply) (h : s.supply.inRange → x.inRange) : KeepsOrder s (s.setSupply x) :=
  ⟨id, id, h, id⟩

/-- A write of the Supply Monitor's state that leaves the limit, the reserve and the meter. -/
theorem KeepsOrder.ofSupply {s t : State} (ports : t.ports = s.ports) (site : t.site = s.site) (clock : t.clock = s.clock)
    (due : t.minuteDue = s.minuteDue) (supply : s.supply.inRange → t.supply.inRange) : KeepsOrder s t := by
  have others : KeepsOrder s { t with supply := s.supply } := .ofSame ports site rfl clock due
  exact ⟨others.ports, others.site, supply, others.clock⟩

theorem State.resupply_keepsOrder (s : State) (f : Supply → Supply) (h : s.supply.inRange → (f s.supply).inRange) :
    KeepsOrder s (s.resupply f) :=
  (s.setSupply_keepsOrder _ h).trans (State.checkBudget_evolves _).keepsOrder

theorem State.notify_keepsOrder (s : State) (k : NoticeKind) (w : Scope) : KeepsOrder s (s.notify k w) :=
  (s.notify_evolves k w).keepsOrder

/-- A change at an event of R89, with its SUPPLY notice. -/
theorem State.resupplied_keepsOrder (s : State) (f : Supply → Supply) (h : s.supply.inRange → (f s.supply).inRange) :
    KeepsOrder s ((s.resupply f).notify .supply .part) :=
  (s.resupply_keepsOrder f h).trans (State.notify_keepsOrder _ _ _)

theorem State.startRamp_keepsOrder (s : State) : KeepsOrder s s.startRamp := by
  refine s.resupplied_keepsOrder _ fun h => ?_
  split <;> exact h.of_same rfl rfl rfl rfl rfl

theorem State.endRamp_keepsOrder (s : State) : KeepsOrder s s.endRamp :=
  s.resupplied_keepsOrder _ fun h => h.of_same rfl rfl rfl rfl rfl

theorem State.becomeStale_keepsOrder (s : State) (fresh : s.supply.condition = .fresh) : KeepsOrder s s.becomeStale :=
  s.resupplied_keepsOrder _ fun h => h.stale fresh

theorem State.endWindDown_keepsOrder (s : State) : KeepsOrder s s.endWindDown :=
  s.resupplied_keepsOrder _ fun h => h.of_same rfl rfl rfl rfl rfl

theorem State.takeReading_keepsOrder (s : State) {r : Nat} (bound : r ≤ 250000) : KeepsOrder s (s.takeReading r) := by
  have noticed : KeepsOrder s (if s.supply.condition == .fresh then s else s.notify .supply .part) := by
    split
    · exact .refl s
    · exact s.notify_keepsOrder _ _
  have peaks (t : State) : KeepsOrder t (t.raisePeaks r) := .ofPorts rfl rfl rfl rfl fun q orderly => by
    simp only [State.port, State.raisePeaks, get_updateAll]
    exact orderly.of_same rfl rfl rfl rfl rfl rfl
  exact (noticed.trans (peaks _)).trans (State.resupply_keepsOrder _
    (fun x => { x with readings := appendReading x.readings r, age := some 0, condition := .fresh }) fun h => h.read bound)

theorem State.windDown_keepsOrder (s : State) : KeepsOrder s s.windDown := by
  have held := (Evolves.foldl _ State.holdBay_evolves allBays s).keepsOrder
  unfold State.windDown
  generalize allBays.foldl State.holdBay s = t at held
  exact held.trans (t.resupplied_keepsOrder _ fun h => h.of_same rfl rfl rfl rfl rfl)

/-- The zone moved or switched, before any bay is treated by it (R95, R96). -/
theorem State.zone_keepsOrder (s : State) (first last : BayId) (on : Bool) :
    KeepsOrder s (s.setSupply { s.supply with zoneFirst := first, zoneLast := last, zoneOn := on }) :=
  s.setSupply_keepsOrder _ fun h => h.of_same rfl rfl rfl rfl rfl

theorem State.setZone_keepsOrder (s : State) (first last : BayId) : KeepsOrder s (s.setZone first last) := by
  have placed := s.zone_keepsOrder first last s.supply.zoneOn
  unfold State.setZone
  dsimp only
  split
  · exact placed.trans (State.rezone_evolves _).keepsOrder
  · exact placed

theorem State.switchZoneOn_keepsOrder (s : State) : KeepsOrder s s.switchZoneOn :=
  (s.zone_keepsOrder s.supply.zoneFirst s.supply.zoneLast true).trans (State.rezone_evolves _).keepsOrder

theorem State.switchZoneOff_keepsOrder (s : State) : KeepsOrder s s.switchZoneOff :=
  (s.zone_keepsOrder s.supply.zoneFirst s.supply.zoneLast false).trans
    (((State.clearInhibit_evolves _ _).trans (State.notify_evolves _ _ _)).trans (State.requestPass_evolves _)).keepsOrder

theorem State.setSite_keepsOrder (s : State) {x : Site} (inRange : x.inRange) : KeepsOrder s (s.setSite x) := by
  have site : KeepsOrder s { s with site := x } := ⟨id, fun _ => inRange, id, id⟩
  have retime (t : State) (old : Site) : KeepsOrder t (t.retime old) := by
    rw [State.retime_eq]
    exact .ofSame rfl rfl rfl rfl rfl
  have reramp (t : State) (old : Site) : KeepsOrder t (t.reramp old) := by
    unfold State.reramp
    split
    · exact .refl t
    · split
      · exact t.endRamp_keepsOrder
      · exact t.checkBudget_evolves.keepsOrder
  have replan (t : State) (old : Site) : KeepsOrder t (t.replan old) := by
    rw [State.replan_eq]
    exact .ofSame rfl rfl rfl rfl rfl
  exact ((site.trans (retime _ _)).trans (reramp _ _)).trans (replan _ _)

theorem State.setClock_keepsOrder (s : State) {c : Clock} (minute : c.minute ≤ 10079) (second : c.second ≤ 59) :
    KeepsOrder s (s.setClock c) := by
  have clock : KeepsOrder s { s with clock := some c } :=
    ⟨id, id, id, fun ⟨_, due⟩ => ⟨fun _ e => Option.some.inj e ▸ ⟨minute, second⟩, due⟩⟩
  exact clock.trans ((State.notify_evolves _ .clock .part).trans (State.requestPlan_evolves _)).keepsOrder

theorem State.takeProfile_keepsOrder (s : State) (k : ProfileId) (bytes : Vector Byte 32) :
    KeepsOrder s (s.takeProfile k bytes) := by
  obtain ⟨v, -, evolves⟩ := s.takeProfile_evolves k bytes
  exact KeepsOrder.trans (t := s.setProfile k { profileOfBytes bytes with valid := v }) (.ofSame rfl rfl rfl rfl rfl)
    evolves.keepsOrder

theorem State.allocate_keepsOrder (s : State) : KeepsOrder s s.allocate :=
  KeepsOrder.trans (t := { s with supply := { s.supply with passFigure := s.budget }, passMark := false })
    (.ofSupply rfl rfl rfl rfl fun h => h.of_same rfl rfl rfl rfl rfl) s.allocate_evolves.keepsOrder

theorem State.tick_keepsOrder (s : State) : KeepsOrder s s.tick := by
  have supply : s.tick.supply = s.supply.tick s.site.rampTime := by rw [State.tick_frame]
  have site : s.tick.site = s.site := by rw [State.tick_frame]
  have ports : s.tick.ports = s.ports := by rw [State.tick_frame]
  refine ⟨fun orderly q => ?_, fun h => site ▸ h, fun h => supply ▸ h.tick _, State.tick_clockInRange⟩
  unfold State.port
  rw [ports]
  exact orderly q

theorem State.latch_keepsOrder (s : State) : KeepsOrder s s.latch := by
  unfold State.latch
  exact .ofSame rfl rfl rfl rfl rfl

theorem State.visit_keepsOrder (s : State) : KeepsOrder s s.visit :=
  (s.access_evolves s.scrub).keepsOrder.trans (.ofSame rfl rfl rfl rfl rfl)

theorem State.changeMinute_keepsOrder (s : State) (m : Nat) : KeepsOrder s (s.changeMinute m) := by
  have cleared : KeepsOrder s { s with minuteDue := none } := ⟨id, id, id, fun ⟨clock, _⟩ => ⟨clock, nofun⟩⟩
  unfold State.changeMinute
  dsimp only
  split
  · exact (cleared.trans (State.latch_keepsOrder _)).trans (State.plan_evolves _).keepsOrder
  · exact cleared.trans (State.plan_evolves _).keepsOrder

/-! ### Resets and the scan -/

theorem State.softReset_keepsOrder (s : State) : KeepsOrder s s.softReset := by
  have blocks : KeepsOrder s s.softResetBlocks := by
    have lowered := ((Evolves.foldl _ State.demoteRecord_evolves allSlots s).trans
      (Evolves.foldl (fun t b => t.lower b 0) (fun t b => t.lower_evolves b 0 rfl) allBays _)).keepsOrder
    unfold State.softResetBlocks
    dsimp only
    generalize allBays.foldl (fun t b => State.lower t b 0) (allSlots.foldl State.demoteRecord s) = t at lowered
    exact lowered.trans (.ofSupply rfl rfl rfl rfl fun h => h.of_same rfl rfl rfl rfl rfl)
  unfold State.softReset
  generalize s.softResetBlocks = t at blocks
  refine (blocks.trans t.startRamp_keepsOrder).trans (.ofPorts rfl rfl rfl rfl fun q orderly => ?_)
  simp only [State.port, get_updateAll]
  exact orderly.softReset

theorem State.scanAfterReset_keepsOrder (s : State) : KeepsOrder s s.scanAfterReset := by
  have tables : KeepsOrder s s.scanTables := .ofSame rfl rfl rfl rfl rfl
  have restored := tables.trans ((State.accessAll_evolves _ allSlots).trans
    (Evolves.foldl _ State.scanRecord_evolves allSlots _)).keepsOrder
  have counted (t : State) (n : Nat) : KeepsOrder t { t with seenCounter := n } := .ofSame rfl rfl rfl rfl rfl
  unfold State.scanAfterReset
  dsimp only
  split
  · exact (restored.trans (counted _ _)).trans (State.notify_keepsOrder _ _ _)
  · exact restored.trans (counted _ _)

theorem State.endScan_keepsOrder (s : State) : KeepsOrder s s.endScan :=
  KeepsOrder.trans (t := { s with phase := .running, periodTimer := some s.site.period }) (.ofSame rfl rfl rfl rfl rfl)
    (State.startRamp_keepsOrder _)

/-! ### Commands -/

/-- A command is accepted at no OFF port (R176). -/
theorem State.role_ne_off_of_accepts {s : State} {p : PortId} {row : CommandRow} {params : List Byte}
    (accepted : s.accepts p row params = true) : (s.port p).role ≠ .off := by
  obtain ⟨-, issues, -⟩ := (s.accepts_iff p row params).mp accepted
  intro off
  rw [off] at issues
  exact absurd issues (by simp [Role.mayIssue])

/-- A port that is not OFF may be given any notice, mask and summary. -/
theorem State.setNotices_keepsOrder {s : State} {p : PortId} {row : CommandRow} {params : List Byte} {x : Port}
    (accepted : s.accepts p row params = true) (role : x.role = (s.port p).role) (stream : x.stream = (s.port p).stream)
    (held : x.held = (s.port p).held) : KeepsOrder s (s.setPort p x) := by
  refine s.setPort_keepsOrder p x fun orderly => ⟨fun off => ?_, ?_⟩
  · exact absurd (role.symm.trans off) (State.role_ne_off_of_accepts accepted)
  · unfold Port.holdsPart
    rw [stream, held]
    exact orderly.2

/-- A transaction keeps the order where its command's own effect does, once accepted. -/
theorem State.transact_keepsOrder {s : State} {p : PortId} {row : CommandRow} {params : List Byte} {act : State → Reply}
    (h : s.accepts p row params = true → KeepsOrder s (act s).state) : KeepsOrder s (s.transact p row params act) := by
  rcases s.transact_cases p row params act with ⟨accepted, taken⟩ | ⟨r, after, refused⟩
  · rw [taken]
    exact (h accepted).trans (State.fixResult_keepsOrder _ _ _ _)
  · rw [refused]
    exact s.ended_keepsOrder p r after

/-- A cluster command keeps the order where its own effect does. -/
theorem State.clusterCommand_keepsOrder {s : State} {p : PortId} {row : CommandRow} {params : List Byte}
    {act : BayId → State → Reply} (h : ∀ b, KeepsOrder s (act b s).state) : KeepsOrder s (s.clusterCommand p row params act) := by
  refine State.transact_keepsOrder fun _ => ?_
  split
  · exact h _
  · exact .refl s

/-- A command that names a slot keeps the order where its own effect on the record once accessed evolves the part. -/
theorem State.slotCommand_keepsOrder {s : State} {p : PortId} {row : CommandRow} {params : List Byte}
    {act : SlotId → State → Reply} (h : ∀ i t, Evolves t (act i t).state) : KeepsOrder s (s.slotCommand p row params act) := by
  refine State.transact_keepsOrder fun _ => ?_
  split
  · exact ((s.access_evolves _).trans (h _ _)).keepsOrder
  · exact .refl s

/-- A command's outcome keeps the order: the state it leaves, if it leaves one, does. -/
def Outcome.KeepsOrder (s : State) (r : Result) : Prop := ∀ t, r = .next t → Machine.KeepsOrder s t

theorem Outcome.KeepsOrder.next {s t : State} (h : Machine.KeepsOrder s t) : Outcome.KeepsOrder s (.next t) := by
  intro u e
  cases e
  exact h

/-- An event that takes place only when it is due. -/
theorem Outcome.KeepsOrder.whenDue {s t : State} {due : Bool} (h : due = true → Machine.KeepsOrder s t) :
    Outcome.KeepsOrder s (.next (if due then t else s)) := by
  cases due
  · exact .next (.refl s)
  · exact .next (h rfl)

/-- A transaction whose command's own effect keeps the order once accepted. -/
theorem Outcome.KeepsOrder.transact {s : State} {p : PortId} {row : CommandRow} {params : List Byte} {act : State → Reply}
    (h : s.accepts p row params = true → Machine.KeepsOrder s (act s).state) :
    Outcome.KeepsOrder s (.next (s.transact p row params act)) := .next (State.transact_keepsOrder h)

/-- A read whose command leaves the state as it is. -/
theorem Outcome.KeepsOrder.read {s : State} {p : PortId} {row : CommandRow} {params : List Byte} {act : State → Reply}
    (h : (act s).state = s) : Outcome.KeepsOrder s (.next (s.transact p row params act)) :=
  .transact fun _ => by rw [h]; exact .refl s

/-! One command each. -/

section
variable (p : PortId) (params : List Byte) (s : State)

theorem execReadPack_keepsOrder : Outcome.KeepsOrder s (execReadPack p params s) := by
  have all := (s.accessAll_evolves allSlots).keepsOrder
  refine .transact fun _ => ?_
  split
  · unfold State.readBySlot
    split
    · exact (s.access_evolves _).keepsOrder
    · exact .refl s
  · unfold State.readByTag
    split
    · exact .refl s
    · dsimp only
      split <;> simpa only [State.answerPack_state, State.reply_state] using all
  · unfold State.readByBay
    split
    · exact .refl s
    · split
      · exact (s.access_evolves _).keepsOrder
      · exact .refl s
  · unfold State.readBySweeper
    split
    · exact .refl s
    · split
      · exact .refl s
      · dsimp only
        split <;> simpa only [State.answer_state, State.reply_state] using all
  · exact .refl s

theorem execReadGroup_keepsOrder : Outcome.KeepsOrder s (execReadGroup p params s) := by
  refine .transact fun _ => ?_
  split
  · rename_i g _
    have checked := (s.accessAll_evolves (slotsOf g)).keepsOrder
    generalize s.accessAll (slotsOf g) = t at checked
    exact checked.trans (t.setPort_keepsOrder _ _ fun h => h.of_same rfl rfl rfl rfl rfl rfl)
  · exact .refl s

theorem execReadBay_keepsOrder : Outcome.KeepsOrder s (execReadBay p params s) := by
  refine .read ?_
  split <;> rfl

theorem execReadDeparture_keepsOrder : Outcome.KeepsOrder s (execReadDeparture p params s) := by
  refine .read ?_
  split <;> rfl

theorem execReadQueue_keepsOrder : Outcome.KeepsOrder s (execReadQueue p params s) := by
  refine .transact fun _ => ?_
  split
  · exact (s.accessAll_evolves _).keepsOrder
  · exact .refl s

theorem execReadRecall_keepsOrder : Outcome.KeepsOrder s (execReadRecall p params s) := by
  refine .read ?_
  split
  · split <;> rfl
  · rfl

theorem execSetNoticeMask_keepsOrder : Outcome.KeepsOrder s (execSetNoticeMask p params s) := by
  refine .transact fun accepted => ?_
  split
  · exact State.setNotices_keepsOrder accepted rfl rfl rfl
  · exact .refl s

theorem execDock_keepsOrder : Outcome.KeepsOrder s (execDock p params s) := by
  refine .next (State.clusterCommand_keepsOrder fun b => ?_)
  split
  · exact .refl s
  · split
    · rename_i d docking
      have checked := (s.accessAll_evolves allSlots).keepsOrder
      have seen (t : State) : KeepsOrder t t.countSeen := .ofSame rfl rfl rfl rfl rfl
      unfold State.dockTag
      dsimp only
      split
      · exact checked.trans (State.notify_keepsOrder _ _ _)
      · exact (checked.trans (seen _)).trans ((State.dockRoster_evolves _ b d (dockingOf_sane params d docking)).trans
          (State.dockBay_evolves _ b d _)).keepsOrder
    · exact .refl s

theorem execUndock_keepsOrder : Outcome.KeepsOrder s (execUndock p params s) := by
  refine .next (State.clusterCommand_keepsOrder fun b => ?_)
  have accessed := (s.accessDocked_evolves b).keepsOrder
  have undocked (t : State) : KeepsOrder t (t.undock b) :=
    KeepsOrder.trans (t := t.countSeen) (.ofSame rfl rfl rfl rfl rfl) (t.undock_evolves b).keepsOrder
  split
  · exact .refl s
  · split
    · exact .refl s
    · split
      · exact accessed
      · exact accessed.trans (undocked _)

theorem execReport_keepsOrder : Outcome.KeepsOrder s (execReport p params s) := by
  refine .next (State.clusterCommand_keepsOrder fun b => ?_)
  split
  · exact (s.compareCurrent_evolves b _).keepsOrder
  · exact ((s.accessDocked_evolves b).trans (State.takeReport_evolves _ b _ _)).keepsOrder

theorem execGrantAck_keepsOrder : Outcome.KeepsOrder s (execGrantAck p params s) := by
  refine .next (State.clusterCommand_keepsOrder fun b => ?_)
  split
  · exact (s.confirm_evolves b).keepsOrder
  · exact .refl s

theorem execClearFault_keepsOrder : Outcome.KeepsOrder s (execClearFault p params s) := by
  refine .next (State.clusterCommand_keepsOrder fun b => ?_)
  split
  · exact .refl s
  · split
    · exact .refl s
    · exact ((s.removeInhibit_evolves b .fault).trans (State.notifyFaultClear_evolves _ b)).keepsOrder

theorem execSetClock_keepsOrder : Outcome.KeepsOrder s (execSetClock p params s) := by
  refine .transact fun _ => ?_
  split
  · exact .refl s
  · rename_i passes
    simp only [Bool.or_eq_true, decide_eq_true_eq, not_or, not_lt] at passes
    exact s.setClock_keepsOrder passes.1 passes.2

theorem execSetSupply_keepsOrder : Outcome.KeepsOrder s (execSetSupply p params s) := by
  refine .transact fun _ => ?_
  split
  · rename_i mode _
    exact s.resupply_keepsOrder (fun x => { x with
      limit := min 250000 (u24At params 0), reserve := min 50000 (u16At params 3), meterMode := mode })
      fun h => h.limited (Nat.min_le_left _ _) (Nat.min_le_left _ _) mode
  · exact .refl s

theorem execHold_keepsOrder : Outcome.KeepsOrder s (execHold p s) := by
  refine .transact fun _ => ?_
  split
  · exact s.windDown_keepsOrder
  · exact s.windDown_keepsOrder
  · exact .refl s
  · exact .refl s

theorem execResume_keepsOrder : Outcome.KeepsOrder s (execResume p s) := by
  refine .transact fun _ => ?_
  split
  · exact .refl s
  · exact .refl s
  · exact .refl s
  · exact (s.clearInhibit_evolves .hold).keepsOrder.trans (State.startRamp_keepsOrder _)

theorem execSetZone_keepsOrder : Outcome.KeepsOrder s (execSetZone p params s) := by
  refine .transact fun _ => ?_
  split
  · exact s.setZone_keepsOrder _ _
  · exact .refl s

theorem execZoneOn_keepsOrder : Outcome.KeepsOrder s (execZoneOn p s) := by
  refine .transact fun _ => ?_
  dsimp only [State.reply_state]
  split
  · exact .refl s
  · exact s.switchZoneOn_keepsOrder

theorem execZoneOff_keepsOrder : Outcome.KeepsOrder s (execZoneOff p s) := by
  refine .transact fun _ => ?_
  dsimp only [State.reply_state]
  split
  · exact s.switchZoneOff_keepsOrder
  · exact .refl s

theorem execSetWindow_keepsOrder : Outcome.KeepsOrder s (execSetWindow p params s) := by
  refine .transact fun _ => ?_
  split
  · exact s.setPort_keepsOrder _ _ fun h => h.of_same rfl rfl rfl rfl rfl rfl
  · exact .refl s

theorem execTableWrite_keepsOrder : Outcome.KeepsOrder s (execTableWrite p s) := by
  refine .next ?_
  split
  · exact s.fixResult_keepsOrder _ _ _
  · split
    · exact s.fixResult_keepsOrder _ _ _
    · split
      · exact s.setPort_keepsOrder _ _ fun h => h.of_stream rfl rfl rfl rfl (Window.open_holdsPart rfl rfl)
      · exact s.fixResult_keepsOrder _ _ _

/-- A byte short of a whole entry is held; with the last one the stream stands between two entries (R179). -/
theorem State.holdByte_keepsOrder {b : Byte} (part : ({ s.port p with held := (s.port p).held ++ [b] } : Port).holdsPart) :
    KeepsOrder s (s.holdByte p b) := s.setPort_keepsOrder _ _ fun h => h.of_stream rfl rfl rfl rfl part

theorem State.setStream_keepsOrder (x : Option Stream) : KeepsOrder s (s.setStream p x) :=
  s.setPort_keepsOrder _ _ fun h => h.of_stream rfl rfl rfl rfl (Port.holdsPart_of_none rfl)

theorem State.setReading_keepsOrder (x : Option Stream) : KeepsOrder s (s.setReading p x) :=
  s.setPort_keepsOrder _ _ fun h => h.of_same rfl rfl rfl rfl rfl rfl

theorem State.shiftOut_keepsOrder (bytes : List Byte) : KeepsOrder s (s.shiftOut p bytes) :=
  s.setPort_keepsOrder _ _ fun h => h.of_same rfl rfl rfl rfl rfl rfl

theorem State.closeStream_keepsOrder (r : ResultCode) : KeepsOrder s (s.closeStream p r) :=
  s.setPort_keepsOrder _ _ fun h => h.of_stream rfl rfl rfl rfl rfl

theorem execProfileEntryTake_keepsOrder (b : Byte) : Outcome.KeepsOrder s (execProfileEntryTake p b s) := by
  refine .next ?_
  split
  · rename_i k last stream
    split
    · exact (s.takeProfile_keepsOrder _ _).trans (State.setStream_keepsOrder _ _ _)
    · rename_i incomplete
      refine s.holdByte_keepsOrder p ?_
      unfold Port.holdsPart
      simp only [stream, List.length_append, List.length_singleton]
      simp only [Port.completes, decide_eq_true_eq, not_le] at incomplete
      exact incomplete
  · exact .refl s

theorem execScheduleEntryTake_keepsOrder (b : Byte) : Outcome.KeepsOrder s (execScheduleEntryTake p b s) := by
  refine .next ?_
  split
  · rename_i e last stream
    split
    · exact (s.takeEntry_evolves _ _).keepsOrder.trans (State.setStream_keepsOrder _ _ _)
    · rename_i incomplete
      refine s.holdByte_keepsOrder p ?_
      unfold Port.holdsPart
      simp only [stream, List.length_append, List.length_singleton]
      simp only [Port.completes, decide_eq_true_eq, not_le] at incomplete
      exact incomplete
  · exact .refl s

theorem State.beginReading_keepsOrder : KeepsOrder s (s.beginReading p) := by
  have answered : KeepsOrder s (s.transact p rowTableRead [] fun t =>
      if (t.port p).window.isSome then t.answer [] else t.reply .state) :=
    State.transact_keepsOrder fun _ => by split <;> exact .refl s
  unfold State.beginReading
  dsimp only
  split
  · exact answered.trans (State.setReading_keepsOrder _ _ _)
  · exact answered

theorem State.readEntry_keepsOrder : KeepsOrder s (s.readEntry p) := by
  unfold State.readEntry
  split
  · exact (s.shiftOut_keepsOrder _ _).trans (State.setReading_keepsOrder _ _ _)
  · exact (s.shiftOut_keepsOrder _ _).trans (State.setReading_keepsOrder _ _ _)
  · exact .refl s

theorem execTableRead_keepsOrder (part : ReadPart) : Outcome.KeepsOrder s (execTableRead p part s) := by
  refine .next ?_
  cases part with
  | command => exact s.beginReading_keepsOrder p
  | nextEntry => exact s.readEntry_keepsOrder p

theorem execTableWriteStreamEnd_keepsOrder : Outcome.KeepsOrder s (execTableWriteStreamEnd p s) := by
  refine .next ?_
  split
  · exact s.closeStream_keepsOrder _ _
  · exact s.closeStream_keepsOrder _ _
  · exact .refl s

theorem execAddDeparture_keepsOrder : Outcome.KeepsOrder s (execAddDeparture p params s) := by
  refine .transact fun _ => ?_
  split
  · exact .refl s
  · split
    · exact (s.addDeparture_evolves _ _).keepsOrder
    · exact .refl s

theorem execCancelDeparture_keepsOrder : Outcome.KeepsOrder s (execCancelDeparture p params s) := by
  refine .transact fun _ => ?_
  split
  · exact .refl s
  · split
    · exact .refl s
    · split
      · exact .refl s
      · exact (s.cancelDeparture_evolves _).keepsOrder

theorem execDraw_keepsOrder : Outcome.KeepsOrder s (execDraw p params s) := by
  refine .transact fun _ => ?_
  split
  · split
    · exact .refl s
    · split
      · exact .refl s
      · exact (s.drawPack_evolves _ _).keepsOrder
  · exact .refl s

theorem execCancelDraw_keepsOrder : Outcome.KeepsOrder s (execCancelDraw p params s) := by
  refine .transact fun _ => ?_
  split
  · exact .refl s
  · dsimp only
    split
    · exact ((s.accessDrawn_evolves _).trans (State.cancelDrawOf_evolves _ _)).keepsOrder
    · exact (s.accessDrawn_evolves _).keepsOrder

theorem execQuarantine_keepsOrder : Outcome.KeepsOrder s (execQuarantine p params s) := by
  refine .next (State.slotCommand_keepsOrder fun i t => ?_)
  split
  · exact .refl t
  · exact .refl t
  · exact t.enterQuarantine_evolves i _

theorem execRelease_keepsOrder : Outcome.KeepsOrder s (execRelease p params s) := by
  refine .next (State.slotCommand_keepsOrder fun i t => ?_)
  split
  · exact t.releaseQuarantine_evolves i
  · exact .refl t

theorem execForget_keepsOrder : Outcome.KeepsOrder s (execForget p params s) := by
  refine .next (State.slotCommand_keepsOrder fun i t => ?_)
  split
  · exact t.forgetRecord_evolves i
  · exact .refl t

theorem execScanComplete_keepsOrder : Outcome.KeepsOrder s (execScanComplete s) := by
  unfold execScanComplete
  split
  · exact .next s.endScan_keepsOrder
  · exact .next (s.scanAfterReset_keepsOrder.trans (State.endScan_keepsOrder _))
  · exact .next (.refl s)

theorem execTimebaseSecond_keepsOrder (upsets : List (SlotId × Upset)) : Outcome.KeepsOrder s (execTimebaseSecond upsets s) := by
  have struck : KeepsOrder s (upsets.foldl State.sufferUpset s) := by
    obtain ⟨checks, struck, -⟩ := State.sufferUpsets_eq upsets s
    rw [struck]
    exact .ofSame rfl rfl rfl rfl rfl
  refine .next ?_
  split
  · exact struck.trans (State.tick_keepsOrder _)
  · exact struck

theorem execClockMinuteChange_keepsOrder : Outcome.KeepsOrder s (execClockMinuteChange s) := by
  refine .next ?_
  split
  · exact s.changeMinute_keepsOrder _
  · exact .refl s

theorem execUnknownCode_keepsOrder (code : Byte) : Outcome.KeepsOrder s (execUnknownCode p code s) := by
  unfold execUnknownCode
  split
  · intro t e
    cases e
  · exact .next (s.fixResult_keepsOrder _ _ _)

theorem execMeterStale_keepsOrder : Outcome.KeepsOrder s (execMeterStale s) := by
  refine .whenDue fun due => s.becomeStale_keepsOrder ?_
  simp only [Supply.staleDue, Bool.and_eq_true, beq_iff_eq] at due
  exact due.2.1

end

/-- Every command keeps the ports orderly and the settings in range. -/
theorem exec_keepsOrder (c : Instr) (s : State) : Outcome.KeepsOrder s (exec c s) := by
  cases c with
  | powerOn straps => exact .next (.ofReset (straps := straps) (marks := 0) rfl rfl rfl rfl rfl)
  | hardReset straps => exact .next (.ofReset (straps := straps) (marks := BitVec.allOnes 8) rfl rfl rfl rfl rfl)
  | hardResetEnd => exact .next (by split; exacts [.ofSame rfl rfl rfl rfl rfl, .refl s])
  | scanComplete => exact execScanComplete_keepsOrder s
  | unknownCode p code => exact execUnknownCode_keepsOrder p s code
  | shortTransaction p => exact .next (s.fixResult_keepsOrder _ _ _)
  | identify p => exact .next (s.fixResult_keepsOrder _ _ _)
  | readNotices p => exact .read rfl
  | ackNotices p params => exact .transact fun accepted => State.setNotices_keepsOrder accepted rfl rfl rfl
  | setNoticeMask p params => exact execSetNoticeMask_keepsOrder p params s
  | readBaySummary p => exact .transact fun accepted => State.setNotices_keepsOrder accepted rfl rfl rfl
  | readPack p params => exact execReadPack_keepsOrder p params s
  | readGroup p params => exact execReadGroup_keepsOrder p params s
  | readMarks p => exact .read rfl
  | readBay p params => exact execReadBay_keepsOrder p params s
  | readSupply p => exact .transact fun _ => s.setPort_keepsOrder _ _ fun h => h.of_same rfl rfl rfl rfl rfl rfl
  | readDeparture p params => exact execReadDeparture_keepsOrder p params s
  | readCounters p => exact .read rfl
  | readQueue p params => exact execReadQueue_keepsOrder p params s
  | readClock p => exact .read rfl
  | readRecall p params => exact execReadRecall_keepsOrder p params s
  | dock p params => exact execDock_keepsOrder p params s
  | undock p params => exact execUndock_keepsOrder p params s
  | report p params => exact execReport_keepsOrder p params s
  | grantAck p params => exact execGrantAck_keepsOrder p params s
  | clearFault p params => exact execClearFault_keepsOrder p params s
  | readGrants p => exact .read rfl
  | setClock p params => exact execSetClock_keepsOrder p params s
  | setSupply p params => exact execSetSupply_keepsOrder p params s
  | otherLoad p params => exact .transact fun _ => s.takeReading_keepsOrder (Nat.min_le_left _ _)
  | hold p => exact execHold_keepsOrder p s
  | resume p => exact execResume_keepsOrder p s
  | setZone p params => exact execSetZone_keepsOrder p params s
  | zoneOn p => exact execZoneOn_keepsOrder p s
  | zoneOff p => exact execZoneOff_keepsOrder p s
  | setSite p params => exact .transact fun _ => s.setSite_keepsOrder (siteOf_inRange params)
  | setWindow p params => exact execSetWindow_keepsOrder p params s
  | tableWrite p => exact execTableWrite_keepsOrder p s
  | profileEntryTake p b => exact execProfileEntryTake_keepsOrder p s b
  | scheduleEntryTake p b => exact execScheduleEntryTake_keepsOrder p s b
  | tableRead p part => exact execTableRead_keepsOrder p s part
  | addDeparture p params => exact execAddDeparture_keepsOrder p params s
  | cancelDeparture p params => exact execCancelDeparture_keepsOrder p params s
  | draw p params => exact execDraw_keepsOrder p params s
  | cancelDraw p params => exact execCancelDraw_keepsOrder p params s
  | quarantine p params => exact execQuarantine_keepsOrder p params s
  | release p params => exact execRelease_keepsOrder p params s
  | forget p params => exact execForget_keepsOrder p params s
  | latchCounters p => exact .transact fun _ => s.latch_keepsOrder
  | softReset p => exact .transact fun _ => s.softReset_keepsOrder
  | timebaseSecond upsets => exact execTimebaseSecond_keepsOrder s upsets
  | clockMinuteChange => exact execClockMinuteChange_keepsOrder s
  | scrubVisit => exact .whenDue fun _ => s.visit_keepsOrder
  | reportTimeoutSilent b => exact .whenDue fun _ => (s.becomeSilent_evolves b).keepsOrder
  | lostTimeout b => exact .whenDue fun _ => (s.becomeLost_evolves b).keepsOrder
  | stallHoldEnd b => exact .whenDue fun _ => (s.endStallHold_evolves b).keepsOrder
  | equaliseEnd b => exact .whenDue fun _ => (s.endEqualise_evolves b).keepsOrder
  | restEnd b => exact .whenDue fun _ => (s.endRest_evolves b).keepsOrder
  | confirmTimerExpiry b => exact .whenDue fun _ => (s.timeOut_evolves b).keepsOrder
  | meterStale => exact execMeterStale_keepsOrder s
  | windDownEnd => exact .whenDue fun _ => s.endWindDown_keepsOrder
  | rampEnd => exact .whenDue fun _ => s.endRamp_keepsOrder
  | allocationPeriodExpiry => exact .whenDue fun _ => s.allocate_keepsOrder.trans (.ofSame rfl rfl rfl rfl rfl)
  | allocationPass => exact .whenDue fun _ => s.allocate_keepsOrder
  | planningPass => exact .whenDue fun _ => s.plan_evolves.keepsOrder
  | tableWriteStreamEnd p => exact execTableWriteStreamEnd_keepsOrder p s

/-- A step keeps the order: the front command does, and on an empty queue the part idles. -/
theorem step_keepsOrder {s t : State} (taken : step s = .next t) : KeepsOrder s t := by
  unfold step at taken
  split at taken
  · cases taken
    exact .refl s
  · rename_i c rest _
    exact KeepsOrder.trans (t := { s with pending := rest }) (.ofSame rfl rfl rfl rfl rfl) (exec_keepsOrder c _ t taken)

end Sys2Proof.Machine

open Sys2Proof.Machine

/-- Settles O59: what joins a port reaches no OFF port and no stream, and every write of a setting clamps it (KeepsOrder), at every command. -/
theorem stepKeepsPortsAndSettings : Obligations.StepKeepsPortsAndSettings := fun _ _ taken orderly ⟨site, supply, clock⟩ =>
  have kept := step_keepsOrder taken
  ⟨kept.ports orderly, kept.site site, kept.supply supply, kept.clock clock⟩

end

section
/-!
The commands and timers of the supply and the clock (R85 to R90, R92, R94, R97, R134): what an event of R89 leaves of the part is said once,
with its pass request (R90), and SET_SUPPLY, OTHER_LOAD and the ends of the supply's timers cite it.
-/

namespace Sys2Proof.Machine

/-! ### A change at an event of R89 -/

/-- The supply changed, with the pass request of R90. -/
theorem State.resupply_eq (s : State) (f : Supply → Supply) : s.resupply f = { s with
    supply := f s.supply
    passMark := s.passMark || decide (({ s with supply := f s.supply } : State).budget < (f s.supply).passFigure) } :=
  State.checkBudget_eq _

/-- A timer of the supply has led from s to t: the supply is x, with the pass request of R90 and the SUPPLY notice. -/
def State.SupplyMoved (s : State) (x : Supply) (t : State) : Prop :=
  t = { s with
    supply := x, ports := t.ports
    passMark := s.passMark || decide (({ s with supply := x } : State).budget < x.passFigure) } ∧
  ∀ q, t.port q = (s.port q).deliver .supply .part

theorem State.resupplied_moved (s : State) (f : Supply → Supply) :
    s.SupplyMoved (f s.supply) ((s.resupply f).notify .supply .part) := by
  rw [State.resupply_eq]
  exact ⟨rfl, State.notify_port _ _ _⟩

theorem State.becomeStale_moved (s : State) : s.SupplyMoved { s.supply with condition := .stale } s.becomeStale :=
  s.resupplied_moved fun x => { x with condition := .stale }

theorem State.endWindDown_moved (s : State) : s.SupplyMoved { s.supply with hold := .held, windDown := none } s.endWindDown :=
  s.resupplied_moved fun x => { x with hold := .held, windDown := none }

theorem State.endRamp_moved (s : State) : s.SupplyMoved { s.supply with hold := .running, elapsed := none } s.endRamp :=
  s.resupplied_moved fun x => { x with hold := .running, elapsed := none }

/-! ### The clock (R134) -/

theorem State.setClock_eq (s : State) (c : Clock) :
    s.setClock c = { s with clock := some c, planMark := true, ports := (s.notify .clock .part).ports } := rfl

theorem State.setClock_port (s : State) (c : Clock) (q : PortId) : (s.setClock c).port q = (s.port q).deliver .clock .part :=
  s.notify_port .clock .part q

/-! ### A reading (R86, R87, R97) -/

/-- The window of eight: the oldest reading leaves a window that is full. -/
theorem appendReading_eq {l : List Nat} (few : l.length ≤ 8) (r : Nat) :
    appendReading l r = (if l.length < 8 then l else l.tail) ++ [r] := by
  unfold appendReading
  split
  · rw [show l.length + 1 - 8 = 0 by omega, List.drop_zero]
  · cases l with
    | nil => contradiction
    | cons oldest rest =>
      rw [show (oldest :: rest).length + 1 - 8 = 1 by omega]
      rfl

/-- The supply with one more reading. -/
def Supply.withReading (x : Supply) (r : Nat) : Supply :=
  { x with readings := appendReading x.readings r, age := some 0, condition := .fresh }

/-- A port at a reading r: a SUPPLY notice where the meter was not FRESH, and its peak raised to the reading. -/
def Port.atReading (condition : MeterCondition) (r : Nat) (y : Port) : Port :=
  { (if condition = .fresh then y else y.deliver .supply .part) with peak := max y.peak r }

theorem Port.atReading_lastResult (condition : MeterCondition) (r : Nat) (y : Port) :
    (y.atReading condition r).lastResult = y.lastResult := by
  unfold Port.atReading
  dsimp only
  split
  · rfl
  · exact (PortMoves.deliver _ _ _).lastResult

theorem State.takeReading_eq (s : State) (r : Nat) : s.takeReading r = { s with
    supply := s.supply.withReading r
    passMark := s.passMark ||
      decide (({ s with supply := s.supply.withReading r } : State).budget < (s.supply.withReading r).passFigure)
    ports := (s.takeReading r).ports } := by
  unfold State.takeReading
  rw [State.resupply_eq]
  cases s.supply.condition <;> rfl

theorem State.takeReading_port (s : State) (r : Nat) (q : PortId) :
    (s.takeReading r).port q = (s.port q).atReading s.supply.condition r := by
  have peak : ((s.port q).deliver .supply .part).peak = (s.port q).peak := by rw [(PortMoves.deliver _ _ _).same]
  have raised (t : State) : (t.raisePeaks r).port q = { t.port q with peak := max (t.port q).peak r } := get_updateAll _ _ _
  unfold State.takeReading Port.atReading
  rw [State.resupply_eq]
  refine (raised _).trans ?_
  by_cases fresh : s.supply.condition = .fresh
  · simp only [fresh, beq_self_eq_true, if_true]
  · simp only [beq_eq_false_iff_ne.mpr fresh, if_neg fresh, Bool.false_eq_true, if_false, State.notify_port, peak]

/-! ### The figures (R88, R89) -/

theorem Supply.otherLoad_of_unmetered {x : Supply} (mode : x.meterMode = .unmetered) : x.otherLoad = 0 := by
  unfold Supply.otherLoad
  rw [mode]

theorem Supply.otherLoad_of_empty {x : Supply} (mode : x.meterMode = .metered) (empty : x.condition = .empty) :
    x.otherLoad = x.limit := by
  unfold Supply.otherLoad
  rw [mode, empty]

theorem Supply.otherLoad_of_fresh {x : Supply} (mode : x.meterMode = .metered) (fresh : x.condition = .fresh) {r : Nat}
    {older : List Nat} (readings : x.readings = older ++ [r]) : x.otherLoad = r := by
  unfold Supply.otherLoad
  rw [mode, fresh, readings]
  exact List.getLastD_concat ..

theorem Supply.otherLoad_of_stale {x : Supply} (mode : x.meterMode = .metered) (stale : x.condition = .stale) :
    x.otherLoad = x.readings.foldl max 0 := by
  unfold Supply.otherLoad
  rw [mode, stale]

/-- The greatest of some numbers is one of them and above none of the others. -/
theorem foldl_max_mem {l : List Nat} (nonempty : l ≠ []) : l.foldl max 0 ∈ l ∧ ∀ r ∈ l, r ≤ l.foldl max 0 := by
  obtain ⟨among, greatest⟩ := foldl_max_greatest l 0
  have bound : ∀ r ∈ l, r ≤ l.foldl max 0 := fun r mem => greatest r (List.mem_cons_of_mem _ mem)
  refine ⟨?_, bound⟩
  rcases List.mem_cons.mp among with zero | mem
  · obtain ⟨r, mem⟩ := List.exists_mem_of_ne_nil l nonempty
    have least := bound r mem
    rwa [show l.foldl max 0 = r by omega]
  · exact mem

theorem Supply.openBudget_eq (x : Supply) :
    (x.openBudget : Int) = min (x.limit : Int) (max 0 ((x.limit : Int) - x.reserve - x.otherLoad)) := by
  unfold Supply.openBudget
  omega

section
variable {s : State}

theorem State.budget_of_none (h : s.supply.hold = .windingDown ∨ s.supply.hold = .held) : s.budget = 0 := by
  unfold State.budget
  rcases h with h | h <;> rw [h]

theorem State.budget_of_running (h : s.supply.hold = .running) : s.budget = s.supply.openBudget := by
  unfold State.budget
  rw [h]

theorem State.budget_of_ramping (h : s.supply.hold = .ramping) {n : Nat} (elapsed : s.supply.elapsed = some n) :
    s.budget = s.supply.openBudget * n / s.site.rampTime := by
  unfold State.budget
  rw [h, elapsed]
  rfl

end

/-- The meter mode of a byte that codes one (R85). -/
theorem meterModeOfByte_of_le {n : Nat} (h : n ≤ 1) :
    meterModeOfByte n = some (if n = 0 then .metered else .unmetered) := by
  match n, h with
  | 0, _ => rfl
  | 1, _ => rfl

theorem meterModeOfByte_of_ge {n : Nat} (h : 2 ≤ n) : meterModeOfByte n = none := by
  match n, h with
  | n + 2, _ => rfl

end Sys2Proof.Machine

open Sys2Proof Sys2Proof.Machine

/-- Settles O32: each command's own checks split on its bytes; State.setClock_eq and State.resupply_eq say what the taken one leaves. -/
theorem clockAndSupplyAreSet : Obligations.ClockAndSupplyAreSet := by
  unfold Obligations.ClockAndSupplyAreSet
  refine ⟨fun p params s accepted => ⟨fun minute second => ?_, fun out => ?_⟩,
    fun p params s accepted => ⟨fun coded => ?_, fun out => ?_⟩⟩
  · have noticed := s.setClock_port ⟨u16At params 0, byteAt params 2⟩
    refine ⟨_, congrArg Host.Outcome.next (State.transact_writes (t := s.setClock _) accepted rfl
      (if_neg (by simp [minute, second])) ?_), rfl, fun q => State.wrote_port s _ p q _ params .ok noticed⟩
    rw [noticed]
    exact (PortMoves.deliver _ _ _).lastResult
  · exact congrArg Host.Outcome.next (State.transact_reply accepted rfl (if_pos (by simpa using out)))
  · intro x u
    refine congrArg Host.Outcome.next
      (State.transact_writes (t := { u with passMark := s.passMark || decide (u.budget < x.passFigure) }) accepted rfl ?_ rfl)
    rw [meterModeOfByte_of_le coded]
    exact congrArg (State.reply · .ok) (s.resupply_eq _)
  · refine congrArg Host.Outcome.next (State.transact_reply accepted rfl ?_)
    rw [meterModeOfByte_of_ge out]

/-- Settles O33: State.takeReading_eq and its ports for the command; for the figures, one equation for each condition and hold state. -/
theorem otherLoadAppendsAReading : Obligations.OtherLoadAppendsAReading := by
  unfold Obligations.OtherLoadAppendsAReading
  refine ⟨fun p params s accepted few => ?_, fun x => ⟨Supply.otherLoad_of_unmetered, fun metered => ⟨?_, ?_, ?_⟩, x.openBudget_eq⟩,
    fun s => ⟨State.budget_of_none, State.budget_of_running, fun ramping _ => State.budget_of_ramping ramping⟩⟩
  · intro r x
    have read : s.supply.withReading r = x := by
      unfold Supply.withReading
      rw [appendReading_eq few]
    have ports := s.takeReading_port r
    refine ⟨_, congrArg Host.Outcome.next (State.transact_writes accepted rfl rfl ?_), ?_, fun q => ?_⟩
    · rw [ports]
      exact Port.atReading_lastResult _ _ _
    · rw [← read, State.takeReading_eq]
      rfl
    · exact State.wrote_port s _ p q _ params .ok ports
  · exact Supply.otherLoad_of_empty metered
  · exact fun fresh r older => Supply.otherLoad_of_fresh metered fresh
  · intro stale some
    rw [Supply.otherLoad_of_stale metered stale]
    exact foldl_max_mem some

/-- Settles O49: each timer's test is its rule's condition, and its end is a change of the supply at an event of R89. -/
theorem supplyTimersEnd : Obligations.SupplyTimersEnd := by
  unfold Obligations.SupplyTimersEnd
  intro s moved staleDue heldDue rampDue
  have stale : (s.phase == .running && s.supply.staleDue) = true ↔ staleDue := by
    simp [Supply.staleDue, staleDue]
  have held : (s.phase == .running && s.supply.hold == .windingDown && s.supply.windDown == some 0) = true ↔ heldDue := by
    simp [heldDue, and_assoc]
  have ramp : s.rampDue = true ↔ rampDue := by
    simp [State.rampDue, rampDue, and_assoc]
  refine ⟨fun due => ⟨_, ?_, s.becomeStale_moved⟩, fun idle => ?_, fun due => ⟨_, ?_, s.endWindDown_moved⟩, fun idle => ?_,
    fun due => ⟨_, ?_, s.endRamp_moved⟩, fun idle => ?_⟩
  · exact congrArg Host.Outcome.next (if_pos (stale.mpr due))
  · exact congrArg Host.Outcome.next (if_neg (mt stale.mp idle))
  · exact congrArg Host.Outcome.next (if_pos (held.mpr due))
  · exact congrArg Host.Outcome.next (if_neg (mt held.mp idle))
  · exact congrArg Host.Outcome.next (if_pos (ramp.mpr due))
  · exact congrArg Host.Outcome.next (if_neg (mt ramp.mp idle))

end

section
/-!
The layouts of R184: fields that bytes spell, taken off the front one by one; the records, the tables and the answers, field by field; and
the two tables read back from the bytes they write.
-/

namespace Sys2Proof.Machine

/-! ### Fields off the front -/

section Fields
variable {bytes rest : List Byte} {fields more : List (Nat × Option Nat)}

/-- Bytes that spell fields come off the front of both lists. -/
theorem spells_append (h : spells bytes fields = true) : spells (bytes ++ rest) (fields ++ more) = spells rest more := by
  induction fields generalizing bytes with
  | nil =>
    have empty : bytes = [] := List.isEmpty_iff.mp h
    rw [empty]
    rfl
  | cons field fields ih =>
    obtain ⟨n, v⟩ := field
    simp only [spells, Bool.and_eq_true, beq_iff_eq] at h
    obtain ⟨⟨size, value⟩, after⟩ := h
    have within : n ≤ bytes.length := by
      rw [List.length_take] at size
      omega
    simp only [List.cons_append, spells, List.take_append_of_le_length within, List.drop_append_of_le_length within, size,
      value, ih after, beq_self_eq_true, Bool.true_and]

/-- Bytes take as much room as the fields they spell. -/
theorem length_of_spells (h : spells bytes fields = true) : bytes.length = (fields.map (·.1)).sum := by
  induction fields generalizing bytes with
  | nil => simpa [spells] using h
  | cons field fields ih =>
    obtain ⟨n, v⟩ := field
    simp only [spells, Bool.and_eq_true, beq_iff_eq] at h
    obtain ⟨⟨size, -⟩, after⟩ := h
    have left := ih after
    rw [List.length_take] at size
    rw [List.length_drop] at left
    rw [List.map_cons, List.sum_cons, ← left]
    omega

/-- The fields of each member of a list come off the front. -/
theorem spells_flatMap {α : Type} {f : α → List Byte} {g : α → List (Nat × Option Nat)} (h : ∀ a, spells (f a) (g a) = true)
    (l : List α) : spells (l.flatMap f ++ rest) (l.flatMap g ++ more) = spells rest more := by
  induction l with
  | nil => rfl
  | cons a l ih => rw [List.flatMap_cons, List.flatMap_cons, List.append_assoc, List.append_assoc, spells_append (h a), ih]

/-- A number in n bytes is one field. -/
@[simp] theorem spells_be_alone (n v : Nat) : spells (be n v) [(n, some v)] = true := by
  simpa using spells_be n v [] []

/-- One number for each member of a list. -/
theorem spells_numbers {α : Type} (n : Nat) (f : α → Nat) (l : List α) :
    spells (l.flatMap (fun a => be n (f a)) ++ rest) (l.map (fun a => (n, some (f a))) ++ more) = spells rest more := by
  rw [List.map_eq_flatMap]
  exact spells_flatMap (fun a => spells_be_alone n (f a)) l

theorem spells_readings (n : Nat) (l : List Nat) :
    spells (l.flatMap (be n) ++ rest) (l.map (fun r => (n, some r)) ++ more) = spells rest more :=
  spells_numbers n (fun r => r) l

theorem spells_numbers_alone {α : Type} (n : Nat) (f : α → Nat) (l : List α) :
    spells (l.flatMap fun a => be n (f a)) (l.map fun a => (n, some (f a))) = true := by
  simpa using spells_numbers (rest := []) (more := []) n f l

/-- A field that may be absent comes off the front. -/
@[simp] theorem spells_optionBe (n : Nat) (v : Option Nat) :
    spells (optionBe n v ++ rest) ((n, v) :: more) = spells rest more := by
  cases v with
  | none => exact spells_absentField n rest more
  | some v => exact spells_be n v rest more

@[simp] theorem spells_optionBe_alone (n : Nat) (v : Option Nat) : spells (optionBe n v) [(n, v)] = true := by
  simpa using spells_optionBe (rest := []) (more := []) n v

/-- A field that is absent in one state of its record comes off the front. -/
@[simp] theorem spells_beWhen_ne {α : Type} [DecidableEq α] (x a : α) (n v : Nat) :
    spells (beWhen (x != a) n v ++ rest) ((n, if x = a then none else some v) :: more) = spells rest more := by
  by_cases absent : x = a
  · simp [beWhen, absent]
  · simp [beWhen, absent]

/-- A field that is present with another comes off the front. -/
@[simp] theorem spells_beWhen_isSome {α : Type} (o : Option α) (n v : Nat) :
    spells (beWhen o.isSome n v ++ rest) ((n, o.map fun _ => v) :: more) = spells rest more := by
  cases o with
  | none => exact spells_absentField n rest more
  | some _ => exact spells_be n v rest more

/-- Absent fields of one size come off the front together. -/
theorem spells_absentFields (n k : Nat) :
    spells (absentField (n * k) ++ rest) (List.replicate k (n, none) ++ more) = spells rest more := by
  induction k with
  | zero => rfl
  | succ k ih =>
    have first : absentField (n * (k + 1)) = absentField n ++ absentField (n * k) := by
      unfold absentField
      rw [List.replicate_append_replicate, Nat.mul_succ, Nat.add_comm]
    rw [first, List.replicate_succ, List.append_assoc, List.cons_append, spells_absentField, ih]

end Fields

/-! ### Bytes as numbers -/

/-- One byte is its number. -/
theorem singleton_eq_be (x : Byte) : [x] = be 1 x.toNat := by simp [be]

/-- A signed byte is its remainder by 256. -/
theorem beSigned_eq (t : Int) : beSigned t = be 1 (t % 256).toNat := by
  rw [beSigned, singleton_eq_be, BitVec.toNat_ofInt]
  rfl

theorem spells_temperature (t : Option Int) (rest : List Byte) (more : List (Nat × Option Nat)) :
    spells (temperatureBytes t ++ rest) (temperatureField t :: more) = spells rest more := by
  cases t with
  | none => exact spells_be 1 0x80 rest more
  | some t =>
    rw [temperatureBytes, beSigned_eq]
    exact spells_be 1 _ rest more

/-- The members of a table, by their places. -/
theorem toList_eq_map {α : Type} {n : Nat} (v : Vector α n) : v.toList = (List.finRange n).map fun k => v[k] := by
  apply List.ext_getElem <;> simp

/-- The values of five counters, by the list of them. -/
theorem counterBytes_eq (v : Vector CounterCell 5) : counterBytes v = v.toList.flatMap fun c => be 2 c.value := by
  rw [counterBytes, toList_eq_map, List.flatMap_map]

/-- Marks in one byte, bit 0 first. -/
def marksValue (marks : List Bool) : Nat := marks.foldr (fun m n => (if m then 1 else 0) + 2 * n) 0

theorem markField_eq (marks : List Bool) : markField marks = (1, some (marksValue marks)) := rfl

theorem Bay.marksByte_eq (x : Bay) : x.marksByte =
    marksValue [x.sensorLimit, x.last.any (·.terminated), x.last.any (·.chargerFault), x.reduction] := by
  have any (f : LastReport → Bool) : (x.last.map f).getD false = x.last.any f := by cases x.last <;> rfl
  unfold Bay.marksByte
  rw [any, any]
  generalize x.sensorLimit = a, x.last.any (·.terminated) = b, x.last.any (·.chargerFault) = c, x.reduction = d
  revert a b c d
  decide

theorem saturatedByte_eq (v : Vector CounterCell 5) : saturatedByte v = marksValue (v.toList.map (·.saturated)) := by
  have marks (a b c d e : Bool) : bitOf a 0 + (bitOf b 1 + (bitOf c 2 + (bitOf d 3 + (bitOf e 4 + 0)))) =
      marksValue [a, b, c, d, e] := by
    revert a b c d e
    decide
  rw [toList_eq_map]
  exact marks _ _ _ _ _

/-- The flags byte of a schedule entry: bit 7 valid, bit 6 the renewal mark, bit 0 the repeat. -/
def Entry.flags (e : Entry) : Nat := marksValue [e.weekly, false, false, false, false, false, e.renewal, e.valid]

theorem Entry.flags_eq (e : Entry) : bitOf e.valid 7 + bitOf e.renewal 6 + bitOf e.weekly 0 = e.flags := by
  unfold Entry.flags
  generalize e.valid = valid, e.renewal = renewal, e.weekly = weekly
  revert valid renewal weekly
  decide

/-- The flags fit one byte, and its bits tell them apart. -/
theorem Entry.flags_bits (e : Entry) :
    e.flags ≤ 255 ∧ (BitVec.ofNat 8 e.flags).getLsbD 0 = e.weekly ∧ (BitVec.ofNat 8 e.flags).getLsbD 7 = e.valid := by
  unfold Entry.flags
  generalize e.valid = valid, e.renewal = renewal, e.weekly = weekly
  revert valid renewal weekly
  decide

/-! ### Records and tables -/

theorem packBytes_spells (i : SlotId) (r : PackRecord) : spells (packBytes i r) (packFields i r) = true := by
  simp only [packBytes, packFields, List.append_assoc, spells_be, spells_optionBe, spells_beWhen_ne, spells_be_alone]

theorem Bay.stageSeconds_eq (x : Bay) : x.stageSeconds = x.restEnd.or x.equaliseEnd := by
  unfold Bay.stageSeconds
  cases x.restEnd <;> rfl

theorem State.bayBytes_spells (s : State) (b : BayId) : spells (s.bayBytes b) (s.bayFields b) = true := by
  have increase : s.pendingIncrease b = (s.pendingList.find? fun y => y.bay = b).map (·.grant) := rfl
  simp only [State.bayBytes, State.bayFields, List.append_assoc, List.cons_append, List.nil_append, bne_iff_ne, ne_eq, ite_not,
    counterBytes_eq, saturatedByte_eq, Bay.marksByte_eq, Bay.stageSeconds_eq, increase, markField_eq, spells_be,
    spells_optionBe, spells_beWhen_ne, spells_beWhen_isSome, spells_temperature, spells_numbers, spells_be_alone]

theorem profileBytes_spells (pr : Profile) : spells (profileBytes pr) (profileFields pr) = true := by
  have valid : bitOf pr.valid 0 = if pr.valid = true then 1 else 0 := rfl
  simp only [profileBytes, profileFields, List.append_assoc, List.cons_append, List.nil_append, spells_be, valid, beSigned_eq,
    toList_eq_map, signedField, List.map_map, Function.comp_def, spells_numbers, spells_numbers_alone]

theorem entryBytes_spells (e : Entry) : spells (entryBytes e) (entryFields e) = true := by
  have flags : markField [e.weekly, false, false, false, false, false, e.renewal, e.valid] = (1, some e.flags) := rfl
  simp only [entryBytes, entryFields, List.append_assoc, Entry.flags_eq, flags, spells_be, spells_optionBe_alone]

theorem packBytes_length (i : SlotId) (r : PackRecord) : (packBytes i r).length = 27 := by
  rw [length_of_spells (packBytes_spells i r)]
  simp [packFields]

theorem State.bayBytes_length (s : State) (b : BayId) : (s.bayBytes b).length = 57 := by
  have temperature (t : Option Int) : (temperatureField t).1 = 1 := by cases t <;> rfl
  rw [length_of_spells (s.bayBytes_spells b)]
  simp [State.bayFields, temperature, markField_eq, toList_eq_map, Function.comp_def]

/-! ### Answers -/

theorem State.departureBody_spells (s : State) (e : EntryId) : spells (s.departureBody e) (s.departureFields e) = true := by
  have minutes (a b : Nat) : weekMinutes a b = (minutesFrom a b).toNat := by rw [← weekMinutes_eq]; rfl
  unfold State.departureBody State.departureFields
  rw [spells_append (entryBytes_spells _)]
  have absent : spells (absentField 1 ++ absentField 2) [(1, none), (2, none)] = true := by decide
  cases s.clock with
  | none => exact absent
  | some c =>
    cases s.windowOf e with
    | none => exact absent
    | some w =>
      cases w <;> simp only [← minutes, DepartureWindow.code, Entry.timeSince, Entry.timeTo, spells_be, spells_be_alone]

/-- The number of the byte by which an answer to the port names a bay (R184, notes/assumptions/34.md). -/
def State.bayField (s : State) (p : PortId) (b : BayId) : Nat := (s.bayByte p b).toNat

theorem State.bayNumber_eq_be (s : State) (p : PortId) (b : BayId) : s.bayNumber p b = be 1 (s.bayField p b) := by
  rw [State.bayNumber_eq, singleton_eq_be]
  rfl

theorem State.bayField_names (s : State) (p : PortId) (b : BayId) : s.names p b (s.bayField p b) := by
  have global (role : ∀ c, (s.port p).role ≠ .cluster c) : s.bayField p b = b.val := by
    rw [State.bayField, State.bayByte_global s p b role, BitVec.toNat_ofNat]
    omega
  unfold State.names
  split
  · rename_i c role
    have byte := (s.bayByte p b).isLt
    refine ⟨Nat.le_of_lt_succ byte, fun k own => ?_⟩
    rw [own, State.bayField, State.bayByte_local s p c k role, BitVec.toNat_ofNat]
    omega
  · rename_i role
    exact global fun c own => role c own

theorem State.supplyBody_spells (s : State) (p : PortId) :
    spells (s.supplyBody p) (s.supplyFields p (s.bayField p)) = true := by
  have on : flagByte s.supply.zoneOn = be 1 (if s.supply.zoneOn = true then 1 else 0) := rfl
  unfold State.supplyBody State.supplyFields Supply.holdSeconds
  cases hold : s.supply.hold <;>
    simp only [hold, List.append_assoc, List.cons_append, List.nil_append, State.bayNumber_eq_be, on, spells_be, spells_optionBe,
      spells_readings, spells_absentFields, spells_be_alone]

theorem State.recallBody_spells (s : State) (p : PortId) (c : ClusterId) :
    spells (s.recallBody p c) (s.recallFields c (s.bayField p)) = true := by
  unfold State.recallBody State.recallFields
  rw [spells_be]
  have each (r : Recall) : spells (s.bayNumber p r.bay ++ be 1 r.slot.val ++ be 4 r.tag.toNat ++ be 1 r.sweeper.val ++ be 2 r.minute)
      [(1, some (s.bayField p r.bay)), (1, some r.slot.val), (4, some r.tag.toNat), (1, some r.sweeper.val),
        (2, some r.minute)] = true := by
    simp only [State.bayNumber_eq_be, List.append_assoc, spells_be, spells_be_alone]
  simpa using spells_flatMap (rest := []) (more := []) each (s.recall c)

/-! ### The tables read back from their bytes -/

section Read
variable (ps : List Byte) (i : Nat)

/-- Byte i written again. -/
theorem be_byteAt : be 1 (byteAt ps i) = [ps.getD i 0] := (singleton_eq_be _).symm

/-- The two bytes from i written again. -/
theorem be_u16At : be 2 (u16At ps i) = [ps.getD i 0, ps.getD (i + 1) 0] := by
  have high := byteAt_lt ps i
  have low := byteAt_lt ps (i + 1)
  have first : u16At ps i / 256 = byteAt ps i := by
    unfold u16At
    omega
  have second : BitVec.ofNat 8 (u16At ps i) = ps.getD (i + 1) 0 := by
    apply BitVec.eq_of_toNat_eq
    rw [BitVec.toNat_ofNat]
    unfold u16At byteAt
    unfold byteAt at low
    omega
  simp only [be, pow_one, pow_zero, Nat.div_one, first, second]
  rw [byteAt, BitVec.ofNat_toNat, BitVec.setWidth_eq]

/-- The signed byte i written again. -/
theorem beSigned_s8At : beSigned (s8At ps i) = [ps.getD i 0] := by
  rw [beSigned, s8At, BitVec.ofInt_toInt]

end Read

/-- A table of bytes, by its places. -/
theorem toList_eq_getD {n : Nat} (v : Vector Byte n) : v.toList = (List.finRange n).map fun i => v.toList.getD i.val 0 := by
  rw [toList_eq_map]
  apply List.map_congr_left
  intro i _
  simp

theorem getElem_eq_getD {n : Nat} (v : Vector Byte n) (i : Nat) (h : i < n) : v[i] = v.toList.getD i 0 := by simp [h]

theorem getElem_of_byteAt {n i m : Nat} {v : Vector Byte n} (h : i < n) (byte : byteAt v.toList i = m) :
    v[i] = BitVec.ofNat 8 m := by
  rw [getElem_eq_getD, ← byte, byteAt, BitVec.ofNat_toNat, BitVec.setWidth_eq]

/-- The 32 bytes of an entry whose valid byte is 0 or 1 are what the entry they write writes (R25, R184). -/
theorem profileBytes_profileOfBytes (v : Vector Byte 32) (flag : v[0] = 0 ∨ v[0] = 1) :
    profileBytes { profileOfBytes v with valid := decide (v[0] = 1) } = v.toList := by
  have valid : be 1 (bitOf (decide (v[0] = 1)) 0) = [v.toList.getD 0 0] := by
    rw [← getElem_eq_getD v 0 (by decide)]
    rcases flag with off | on
    · rw [off]; rfl
    · rw [on]; rfl
  rw [toList_eq_getD v]
  simp only [profileBytes, profileOfBytes, valid, be_byteAt, be_u16At, beSigned_s8At, Fin.getElem_fin, Vector.getElem_ofFn]
  generalize v.toList = bytes
  simp only [List.finRange_succ, List.finRange_zero, List.map_cons, List.map_nil, List.flatMap_cons, List.flatMap_nil,
    List.cons_append, List.nil_append, Fin.val_zero, Fin.val_succ]

/-- The fields of bytes that spell them, by their places. -/
theorem spelled_of_spells {bytes : List Byte} {fields : List (Nat × Option Nat)} (h : spells bytes fields = true) {k n v : Nat}
    (field : fields[k]? = some (n, some v)) :
    spelled ((bytes.drop ((fields.map (·.1)).take k).sum).take n) = v % 256 ^ n := by
  induction fields generalizing bytes k with
  | nil => simp at field
  | cons first fields ih =>
    obtain ⟨m, w⟩ := first
    simp only [spells, Bool.and_eq_true, beq_iff_eq] at h
    obtain ⟨⟨-, value⟩, after⟩ := h
    cases k with
    | zero =>
      rw [List.getElem?_cons_zero, Option.some_inj, Prod.mk.injEq] at field
      obtain ⟨rfl, rfl⟩ := field
      exact value
    | succ k =>
      rw [List.getElem?_cons_succ] at field
      rw [List.map_cons, List.take_succ_cons, List.sum_cons, ← List.drop_drop]
      exact ih after field

section Places
variable {ps : List Byte} {fields : List (Nat × Option Nat)} {k i v : Nat}

theorem spelled_take_one (h : i < ps.length) : spelled ((ps.drop i).take 1) = byteAt ps i := by
  rw [List.drop_eq_getElem_cons h, List.take_succ_cons, List.take_zero]
  simp [spelled, byteAt, h]

theorem spelled_take_two (h : i + 1 < ps.length) : spelled ((ps.drop i).take 2) = u16At ps i := by
  rw [List.drop_eq_getElem_cons (by omega), List.drop_eq_getElem_cons h, List.take_succ_cons, List.take_succ_cons,
    List.take_zero]
  simp [spelled, u16At, byteAt, h, Nat.lt_of_succ_lt h]

/-- A byte of a layout is the field that starts there. -/
theorem byteAt_of_spells (h : spells ps fields = true) (field : fields[k]? = some (1, some v))
    (start : ((fields.map (·.1)).take k).sum = i) (within : i < ps.length) (fits : v ≤ 255) : byteAt ps i = v := by
  have value := spelled_of_spells h field
  rw [start, spelled_take_one within] at value
  omega

/-- Two bytes of a layout are the field that starts there. -/
theorem u16At_of_spells (h : spells ps fields = true) (field : fields[k]? = some (2, some v))
    (start : ((fields.map (·.1)).take k).sum = i) (within : i + 1 < ps.length) (fits : v ≤ 65535) : u16At ps i = v := by
  have value := spelled_of_spells h field
  rw [start, spelled_take_two within] at value
  omega

/-- A signed byte is the number whose remainder by 256 it holds. -/
theorem s8At_of_byteAt {t : Int} (byte : byteAt ps i = (t % 256).toNat) (low : -128 ≤ t) (high : t ≤ 127) : s8At ps i = t := by
  rw [s8At, BitVec.toInt_eq_toNat_cond]
  rw [byteAt] at byte
  rw [byte]
  split <;> omega

end Places

/-- The sizes of the profile entry's fields (R184). -/
def profileSizes : List Nat := [1, 1, 2, 2, 2, 2, 2, 1, 1, 1, 1, 1, 2, 1, 1] ++ List.replicate 11 1

theorem profileFields_sizes (pr : Profile) : (profileFields pr).map (·.1) = profileSizes := by
  unfold profileFields
  rw [toList_eq_map, toList_eq_map]
  rfl

theorem profileBytes_length (pr : Profile) : (profileBytes pr).length = 32 := by
  rw [length_of_spells (profileBytes_spells pr), profileFields_sizes]
  decide

/-- Every number of an entry fits the bytes it is written in (R184). -/
structure Profile.Fits (pr : Profile) : Prop where
  family : pr.family ≤ 255
  nominalVoltage : pr.nominalVoltage ≤ 65535
  rated : pr.rated ≤ 65535
  maxCurrent : pr.maxCurrent ≤ 65535
  minCurrent : pr.minCurrent ≤ 65535
  finishCurrent : pr.finishCurrent ≤ 65535
  absorbPoint : pr.absorbPoint ≤ 255
  acceptance : pr.acceptance ≤ 255
  efficiency : pr.efficiency ≤ 255
  restMinutes : pr.restMinutes ≤ 255
  equaliseInterval : pr.equaliseInterval ≤ 255
  equaliseCurrent : pr.equaliseCurrent ≤ 65535
  equaliseMinutes : pr.equaliseMinutes ≤ 255
  returnEstimate : pr.returnEstimate ≤ 255
  breakpoints : ∀ k : Fin 5, -128 ≤ pr.breakpoints[k] ∧ pr.breakpoints[k] ≤ 127
  factors : ∀ k : Fin 6, pr.factors[k] ≤ 255

/-- An entry is what its 32 bytes are read as, with the valid mark they ask for (R25, R184). -/
theorem Profile.Fits.profileOfBytes {pr : Profile} (fits : pr.Fits) {v : Vector Byte 32} (written : v.toList = profileBytes pr) :
    { profileOfBytes v with valid := decide (v[0] ≠ 0) } = pr := by
  have layout : spells v.toList (profileFields pr) = true := written ▸ profileBytes_spells pr
  have byte {n : Nat} (k i : Nat) (field : (profileFields pr)[k]? = some (1, some n)) (start : (profileSizes.take k).sum = i)
      (within : i < 32) (bound : n ≤ 255) : byteAt v.toList i = n :=
    byteAt_of_spells layout field (by rw [profileFields_sizes, start]) (by simpa using within) bound
  have pair {n : Nat} (k i : Nat) (field : (profileFields pr)[k]? = some (2, some n)) (start : (profileSizes.take k).sum = i)
      (within : i + 1 < 32) (bound : n ≤ 65535) : u16At v.toList i = n :=
    u16At_of_spells layout field (by rw [profileFields_sizes, start]) (by simpa using within) bound
  have valid : decide (v[0] ≠ 0) = pr.valid := by
    have flag := byte 0 0 rfl rfl (by decide) (by split <;> decide)
    rw [getElem_of_byteAt (by decide) flag]
    cases pr.valid <;> rfl
  have breakpoints : (Vector.ofFn fun k : Fin 5 => s8At v.toList (21 + k.val)) = pr.breakpoints := by
    refine vector_ext fun k => ?_
    obtain ⟨low, high⟩ := fits.breakpoints k
    have field : (profileFields pr)[15 + k.val]? = some (1, some (pr.breakpoints[k] % 256).toNat) := by
      unfold profileFields
      rw [toList_eq_map]
      fin_cases k <;> rfl
    have place := byte (15 + k.val) (21 + k.val) field (by fin_cases k <;> rfl) (by omega) (by omega)
    simpa using s8At_of_byteAt place low high
  have factors : (Vector.ofFn fun k : Fin 6 => byteAt v.toList (26 + k.val)) = pr.factors := by
    refine vector_ext fun k => ?_
    have field : (profileFields pr)[20 + k.val]? = some (1, some pr.factors[k]) := by
      unfold profileFields
      rw [toList_eq_map, toList_eq_map]
      fin_cases k <;> rfl
    have place := byte (20 + k.val) (26 + k.val) field (by fin_cases k <;> rfl) (by omega) (fits.factors k)
    simpa using place
  simp only [Machine.profileOfBytes, valid, breakpoints, factors,
    byte 1 1 rfl rfl (by decide) fits.family, pair 2 2 rfl rfl (by decide) fits.nominalVoltage,
    pair 3 4 rfl rfl (by decide) fits.rated, pair 4 6 rfl rfl (by decide) fits.maxCurrent,
    pair 5 8 rfl rfl (by decide) fits.minCurrent, pair 6 10 rfl rfl (by decide) fits.finishCurrent,
    byte 7 12 rfl rfl (by decide) fits.absorbPoint, byte 8 13 rfl rfl (by decide) fits.acceptance,
    byte 9 14 rfl rfl (by decide) fits.efficiency, byte 10 15 rfl rfl (by decide) fits.restMinutes,
    byte 11 16 rfl rfl (by decide) fits.equaliseInterval, pair 12 17 rfl rfl (by decide) fits.equaliseCurrent,
    byte 13 19 rfl rfl (by decide) fits.equaliseMinutes, byte 14 20 rfl rfl (by decide) fits.returnEstimate]

theorem entryBytes_length (e : Entry) : (entryBytes e).length = 8 := by
  rw [length_of_spells (entryBytes_spells e)]
  simp [entryFields, markField_eq]

/-- An entry is what its 8 bytes are read as, but for the fields that are not written (R138, R184). -/
theorem entryOfBytes_of_toList {e : Entry} (sweeper : e.sweeper ≤ 255) (minute : e.minute ≤ 65535) (profile : e.profile ≤ 255)
    (required : e.required ≤ 255) {v : Vector Byte 8} (written : v.toList = entryBytes e) :
    entryOfBytes v = { e with valid := false, status := .idle, reserved := none, renewal := false } ∧
      v[0].getLsbD 7 = e.valid := by
  have layout : spells v.toList (entryFields e) = true := written ▸ entryBytes_spells e
  have byte {n : Nat} (k i : Nat) (field : (entryFields e)[k]? = some (1, some n))
      (start : (((entryFields e).map (·.1)).take k).sum = i) (within : i < 8) (bound : n ≤ 255) : byteAt v.toList i = n :=
    byteAt_of_spells layout field start (by simpa using within) bound
  have minutes : u16At v.toList 2 = e.minute := u16At_of_spells (k := 2) layout rfl rfl (by simp) minute
  obtain ⟨bound, weekly, valid⟩ := e.flags_bits
  have flags : v[0] = BitVec.ofNat 8 e.flags := getElem_of_byteAt (by decide) (byte 0 0 rfl rfl (by decide) bound)
  refine ⟨?_, by rw [flags, valid]⟩
  simp only [entryOfBytes, flags, weekly, minutes, byte 1 1 rfl rfl (by decide) sweeper,
    byte 3 4 rfl rfl (by decide) profile, byte 4 5 rfl rfl (by decide) required]

end Sys2Proof.Machine

open Sys2Proof Sys2Proof.Machine

/-- Settles O55: the layouts by their fields (packBytes_spells and the like), the lengths by the fields' sizes, and the tables read back by the
fields' places (Profile.Fits.profileOfBytes, entryOfBytes_of_toList). -/
theorem tableBytesRoundTrip : Obligations.TableBytesRoundTrip := by
  unfold Obligations.TableBytesRoundTrip
  refine ⟨?_, profileBytes_profileOfBytes,
    fun e sweeper minute profile required =>
      ⟨entryBytes_length e, fun v => entryOfBytes_of_toList sweeper minute profile required⟩,
    fun i r => ⟨packBytes_length i r, packBytes_spells i r⟩, fun s b => ⟨s.bayBytes_length b, s.bayBytes_spells b⟩,
    profileBytes_spells, entryBytes_spells, State.departureBody_spells,
    fun s p => ⟨s.bayField p, s.bayField_names p, s.supplyBody_spells p, s.recallBody_spells p⟩,
    fun n v => ⟨spells_be_alone n v, rfl, rfl⟩, rfl, rfl, rfl, rfl, rfl, rfl, rfl, rfl, rfl, rfl, rfl, rfl⟩
  intro pr family nominal rated maxCurrent minCurrent finish absorb acceptance efficiency rest interval equalise minutes returned
    breakpoints factors
  have fits : pr.Fits := ⟨family, nominal, rated, maxCurrent, minCurrent, finish, absorb, acceptance, efficiency, rest, interval,
    equalise, minutes, returned, breakpoints, factors⟩
  exact ⟨profileBytes_length pr, fun v => fits.profileOfBytes⟩

end

section
/-!
The hand-over of a pass's targets (R100, R116, R121, R122, R129): each target applied to its own bay, the increases that wait in the
order of their targets, and their release where no reduction is unresolved.
-/

namespace Sys2Proof.Machine

/-! ### Grants told (R121, R129, R172) -/

/-- Every bay whose grant differs has its GRANT notice, with its place in the bay summary, at the ports that take it. -/
structure State.Tells (s t : State) : Prop where
  moves : ∀ q, PortMoves (s.port q) (t.port q)
  told : ∀ b q, (t.bay b).grant ≠ (s.bay b).grant → (s.port q).role.takes .grant (.bay b) = true →
    hasFlag (t.port q).raised NoticeKind.grant.bit = true ∧ hasFlag (t.port q).summary b = true

/-- Ports that stand, and no grant that differs. -/
theorem State.Tells.ofSame {s t : State} (ports : t.ports = s.ports) (bays : t.bays = s.bays) : State.Tells s t := by
  refine ⟨fun q => ?_, fun b q differs => absurd ?_ differs⟩
  · rw [State.port, State.port, ports]
    exact .refl _
  · rw [State.bay, State.bay, bays]

theorem State.Tells.refl (s : State) : State.Tells s s := .ofSame rfl rfl

theorem State.Tells.trans {s t u : State} (h : State.Tells s t) (g : State.Tells t u) : State.Tells s u := by
  refine ⟨fun q => (h.moves q).trans (g.moves q), fun b q differs takes => ?_⟩
  by_cases later : (u.bay b).grant = (t.bay b).grant
  · obtain ⟨raised, joined⟩ := h.told b q (fun same => differs (later.trans same)) takes
    exact ⟨(g.moves q).raised _ raised, (g.moves q).summary _ joined⟩
  · exact g.told b q later ((h.moves q).role.symm ▸ takes)

theorem State.Tells.foldl {α : Type} (f : State → α → State) (h : ∀ s a, State.Tells s (f s a)) (l : List α) (s : State) :
    State.Tells s (l.foldl f s) := by
  induction l generalizing s with
  | nil => exact .refl s
  | cons a l ih => exact (h s a).trans (ih _)

/-- A bay written with its GRANT notice. -/
theorem State.setBay_tells (s : State) (b : BayId) (x : Bay) : State.Tells s ((s.setBay b x).notify .grant (.bay b)) := by
  refine ⟨fun q => by rw [State.notify_port]; exact .deliver _ _ _, fun a q differs takes => ?_⟩
  have own : a = b := by
    by_contra other
    exact differs (by rw [State.notify_bay, State.setBay_bay, if_neg other])
  subst own
  rw [State.notify_port]
  exact ⟨Port.deliver_raised takes, Port.deliver_summary takes⟩

theorem State.releaseOne_tells (s : State) (x : Increase) : State.Tells s (s.releaseOne x) := by
  cases value : s.releaseValue x with
  | none =>
    rw [State.releaseOne_of_none value]
    exact .refl s
  | some v =>
    rw [State.releaseOne_of_some value]
    exact s.setBay_tells _ _

theorem State.release_tells (s : State) : State.Tells s s.release :=
  (State.Tells.foldl _ State.releaseOne_tells s.pendingList s).trans (.ofSame rfl rfl)

theorem State.releaseIfResolved_tells (s : State) : State.Tells s s.releaseIfResolved := by
  unfold State.releaseIfResolved
  split
  · exact s.release_tells
  · exact .refl s

theorem State.applyTarget_tells (s : State) (x : Target) : State.Tells s (s.applyTarget x) := by
  unfold State.applyTarget State.lower
  split
  · split
    · exact .ofSame rfl rfl
    · split
      · exact s.setBay_tells _ _
      · exact .refl s
  · exact .refl s

theorem State.allocate_tells (s : State) : State.Tells s s.allocate := by
  have start : State.Tells s { s with supply := { s.supply with passFigure := s.budget }, passMark := false, pendingList := [] } :=
    .ofSame rfl rfl
  exact (start.trans (.foldl _ State.applyTarget_tells s.targets _)).trans (State.releaseIfResolved_tells _)

/-! ### The bounds of a walk (R129) -/

theorem State.releaseValue_le {s : State} {x : Increase} {v : Nat} (value : s.releaseValue x = some v) : v ≤ x.grant := by
  by_cases fits : s.releaseFits x.bay x.grant = true
  · have full : s.releaseValue x = some x.grant := if_pos fits
    rw [full] at value
    exact (Option.some.inj value).ge
  · exact (State.releaseValue_part fits value).2.1.le

/-- A walk leaves the bays that none of its increases names. -/
theorem State.releaseAll_other {l : List Increase} {a : BayId} (absent : ∀ x ∈ l, x.bay ≠ a) (s : State) :
    (l.foldl State.releaseOne s).bay a = s.bay a := by
  induction l generalizing s with
  | nil => rfl
  | cons x l ih =>
    rw [List.foldl_cons, ih (fun y mem => absent y (List.mem_cons_of_mem x mem)),
      s.releaseOne_other x (absent x List.mem_cons_self).symm]

/-- A walk raises no bay above its increases. -/
theorem State.releaseAll_atMost {l : List Increase} {a : BayId} {m : Nat} (most : ∀ x ∈ l, x.bay = a → x.grant ≤ m) (s : State)
    (start : (s.bay a).grant ≤ m) : ((l.foldl State.releaseOne s).bay a).grant ≤ m := by
  induction l generalizing s with
  | nil => exact start
  | cons x l ih =>
    refine ih (fun y mem => most y (List.mem_cons_of_mem x mem)) _ ?_
    by_cases own : a = x.bay
    · subst own
      cases value : s.releaseValue x with
      | none =>
        rw [State.releaseOne_of_none value]
        exact start
      | some v =>
        rw [State.releaseOne_of_some value, State.notify_bay, State.setBay_bay_self]
        exact (State.releaseValue_le value).trans (most x List.mem_cons_self rfl)
    · rw [s.releaseOne_other x own]
      exact start

/-- A release hangs on the bays, the profiles and the budget figure alone. -/
theorem State.releasesInto_congr {s u : State} (bays : u.bays = s.bays) (profiles : u.profiles = s.profiles) (budget : u.budget = s.budget)
    (x : Increase) (y : Bay) : u.releasesInto x y ↔ s.releasesInto x y := by
  have bay (b : BayId) : u.bay b = s.bay b := congrArg (·[b]) bays
  have profile (k : ProfileId) : u.profile k = s.profile k := congrArg (·[k]) profiles
  have power (b : BayId) (v : Nat) : u.powerOf b v = s.powerOf b v := by
    refine State.powerOf_congr profiles ?_ ?_ ?_ v <;> rw [bay]
  unfold State.releasesInto
  simp only [bay, profile, budget, power]

theorem ReleaseWalk.congr {l : List Increase} {s u t : State} (walk : ReleaseWalk l s t) (bays : u.bays = s.bays)
    (profiles : u.profiles = s.profiles) (supply : u.supply.hold = s.supply.hold ∧ u.supply.openBudget = s.supply.openBudget ∧
      u.supply.elapsed = s.supply.elapsed) (site : u.site = s.site) : ReleaseWalk l u t := by
  induction l generalizing s u with
  | nil =>
    intro b
    rw [State.bay, State.bay, bays]
    exact walk b
  | cons x l ih =>
    obtain ⟨y, into, rest⟩ := walk
    have budget : u.budget = s.budget := by
      obtain ⟨hold, openBudget, elapsed⟩ := supply
      unfold State.budget
      rw [hold, openBudget, elapsed, site]
    refine ⟨y, (State.releasesInto_congr bays profiles budget x y).2 into, ih rest ?_ profiles supply site⟩
    rw [State.setBay, bays]
    rfl

/-! ### Each target applied to its bay (R122) -/

/-- A bay as its target leaves it before any release: lowered where the target stands below its grant (R121, R122). -/
def State.aimedBay (s : State) (x : Target) : Bay :=
  if (s.bay x.bay).eligible = true ∧ x.current < (s.bay x.bay).grant then (s.bay x.bay).reduced x.current s.site.confirmTimeout
  else s.bay x.bay

/-- The increases that wait once these targets are applied, in their order (R122). -/
def State.increasesOf (s : State) (l : List Target) : List Increase :=
  (l.filter fun x => (s.bay x.bay).eligible && decide ((s.bay x.bay).grant < x.current)).map fun x => ⟨x.bay, x.current⟩

theorem State.mem_increasesOf (s : State) (l : List Target) (y : Increase) : y ∈ s.increasesOf l ↔
    ∃ x ∈ l, (s.bay x.bay).eligible = true ∧ (s.bay x.bay).grant < x.current ∧ ⟨x.bay, x.current⟩ = y := by
  unfold State.increasesOf
  simp only [List.mem_map, List.mem_filter, Bool.and_eq_true, decide_eq_true_eq, and_assoc]

theorem State.applyTarget_eq (s : State) (x : Target) : s.applyTarget x = { s with
    bays := s.bays.set x.bay (s.aimedBay x), pendingList := s.pendingList ++ s.increasesOf [x], ports := (s.applyTarget x).ports } := by
  have stands : s.bays.set x.bay (s.bay x.bay) = s.bays := set_self _ _
  generalize kept : (s.applyTarget x).ports = ports
  unfold State.applyTarget State.lower at kept ⊢
  unfold State.aimedBay State.increasesOf
  by_cases eligible : (s.bay x.bay).eligible = true
  · by_cases above : (s.bay x.bay).grant < x.current
    · rw [if_pos eligible, if_pos above] at kept ⊢
      rw [if_neg (by omega), stands, ← kept]
      simp [eligible, above]
    · rw [if_pos eligible, if_neg above] at kept ⊢
      by_cases below : x.current < (s.bay x.bay).grant
      · rw [if_pos below] at kept ⊢
        rw [if_pos ⟨eligible, below⟩, ← kept]
        simp [above, State.modBay, State.setBay, State.notify]
      · rw [if_neg below] at kept ⊢
        rw [if_neg (by simp [below]), stands, ← kept]
        simp [above]
  · rw [if_neg eligible] at kept ⊢
    rw [if_neg (by simp [eligible]), stands, ← kept]
    simp [eligible]

/-- The state once each of these targets has been applied to a bay of its own (R122). -/
structure State.Aimed (s : State) (l : List Target) (t : State) : Prop where
  frame : t = { s with bays := t.bays, pendingList := s.pendingList ++ s.increasesOf l, ports := t.ports }
  own : ∀ x ∈ l, t.bay x.bay = s.aimedBay x
  others : ∀ a, (∀ x ∈ l, x.bay ≠ a) → t.bay a = s.bay a

theorem State.applyTargets_aimed (s : State) (l : List Target) (once : (l.map (·.bay)).Nodup) :
    s.Aimed l (l.foldl State.applyTarget s) := by
  induction l using List.reverseRecOn with
  | nil => exact ⟨by simp [State.increasesOf], by simp, fun _ _ => rfl⟩
  | append_singleton l x ih =>
    rw [List.map_append, List.nodup_append] at once
    obtain ⟨earlier, -, apart⟩ := once
    have other {y : Target} (mem : y ∈ l) : y.bay ≠ x.bay := apart y.bay (List.mem_map_of_mem mem) x.bay (by simp)
    obtain ⟨frame, own, others⟩ := ih earlier
    rw [List.foldl_append, List.foldl_cons, List.foldl_nil]
    generalize l.foldl State.applyTarget s = u at frame own others
    have before : u.bay x.bay = s.bay x.bay := others _ fun y mem => other mem
    have aimed : u.aimedBay x = s.aimedBay x := by
      have site : u.site = s.site := by rw [frame]
      unfold State.aimedBay
      rw [before, site]
    have waits : s.pendingList ++ s.increasesOf (l ++ [x]) = u.pendingList ++ u.increasesOf [x] := by
      have listed : u.pendingList = s.pendingList ++ s.increasesOf l := by rw [frame]
      rw [listed, List.append_assoc]
      simp [State.increasesOf, List.filter_append, List.filter_cons, before]
    have bay (a : BayId) : (u.applyTarget x).bay a = if a = x.bay then s.aimedBay x else u.bay a := by
      rw [u.applyTarget_eq x, aimed]
      exact get_set _ _ _ _
    refine ⟨?_, fun y mem => ?_, fun a absent => ?_⟩
    · rw [u.applyTarget_eq x, waits]
      conv_lhs => rw [frame]
      rw [frame]
    · rw [bay]
      rcases List.mem_append.1 mem with early | last
      · rw [if_neg (other early), own y early]
      · rw [List.mem_singleton.1 last, if_pos rfl]
    · rw [bay, if_neg (absent x (by simp)).symm, others a fun y mem => absent y (List.mem_append_left _ mem)]

/-! ### The targets of a pass (R116) -/

theorem State.targets_eq (s : State) : s.targets = s.filledTargets ++
    ((List.finRange 16).filter fun b => !(s.bay b).eligible).map fun b => (⟨b, 0⟩ : Target) := rfl

/-- Every bay has one target. -/
theorem State.targets_perm (s : State) : (s.targets.map fun x => x.bay).Perm (List.finRange 16) := by
  have others : (((List.finRange 16).filter fun b => !(s.bay b).eligible).map fun b => (⟨b, 0⟩ : Target)).map (fun x => x.bay) =
      (List.finRange 16).filter fun b => !(s.bay b).eligible := by simp [Function.comp_def]
  rw [s.targets_eq, List.map_append, s.filledTargets_bays, others]
  exact ((List.perm_insertionSort _ _).append_right _).trans (List.filter_append_perm _ _)

theorem State.targets_nodup (s : State) : (s.targets.map (·.bay)).Nodup := s.targets_perm.nodup_iff.2 (List.nodup_finRange 16)

theorem State.exists_target (s : State) (b : BayId) : ∃ x ∈ s.targets, x.bay = b :=
  List.mem_map.1 (s.targets_perm.mem_iff.2 (List.mem_finRange b))

theorem State.target_unique {s : State} {x y : Target} (memX : x ∈ s.targets) (memY : y ∈ s.targets) (same : x.bay = y.bay) : x = y :=
  List.inj_on_of_nodup_map s.targets_nodup memX memY same

/-- A bay that is not eligible has target 0. -/
theorem State.target_of_ineligible {s : State} {x : Target} (mem : x ∈ s.targets) (barred : (s.bay x.bay).eligible = false) :
    x.current = 0 := by
  rcases List.mem_append.1 mem with filled | idle
  · have can := (s.mem_allocationOrder x.bay).1 (s.filledTargets_bays ▸ List.mem_map_of_mem filled)
    rw [barred] at can
    contradiction
  · obtain ⟨b, -, rfl⟩ := List.mem_map.1 idle
    rfl

/-! ### The pass (R100, R122) -/

/-- A pass leaves a reduction unresolved: one of its own, or one from before it. -/
def State.passWaits (s : State) : Prop :=
  (∃ x ∈ s.targets, (s.bay x.bay).eligible = true ∧ x.current < (s.bay x.bay).grant) ∨ ∃ b, (s.bay b).reduction = true

/-- The state of a pass whose figure is taken and whose mark is cleared, with an empty list. -/
def State.passStart (s : State) : State :=
  { s with supply := { s.supply with passFigure := s.budget }, passMark := false, pendingList := [] }

/-- The state of a pass once its targets are applied. -/
def State.passAimed (s : State) : State := s.targets.foldl State.applyTarget s.passStart

theorem State.allocate_eq_release (s : State) : s.allocate = s.passAimed.releaseIfResolved := rfl

theorem State.passAimed_aimed (s : State) : s.passStart.Aimed s.targets s.passAimed :=
  s.passStart.applyTargets_aimed s.targets s.targets_nodup

theorem State.passAimed_bay (s : State) {x : Target} (mem : x ∈ s.targets) : s.passAimed.bay x.bay = s.aimedBay x :=
  s.passAimed_aimed.own x mem

theorem State.passAimed_pendingList (s : State) : s.passAimed.pendingList = s.increasesOf s.targets := by
  rw [s.passAimed_aimed.frame]
  rfl

theorem State.passAimed_allResolved (s : State) : s.passAimed.allResolved = true ↔ ¬ s.passWaits := by
  have resolved {x : Target} (mem : x ∈ s.targets) : (s.passAimed.bay x.bay).reduction = false ↔
      ¬ ((s.bay x.bay).eligible = true ∧ x.current < (s.bay x.bay).grant) ∧ (s.bay x.bay).reduction = false := by
    rw [s.passAimed_bay mem, State.aimedBay]
    split
    · rename_i lowers
      simp [Bay.reduced, lowers]
    · rename_i stays
      exact ⟨fun clear => ⟨stays, clear⟩, And.right⟩
  simp only [State.allResolved, List.all_eq_true, Bool.not_eq_true', State.passWaits, not_or, not_exists, not_and]
  refine ⟨fun all => ⟨fun x mem can lowers => ?_, fun b => ?_⟩, fun ⟨lowers, clear⟩ b _ => ?_⟩
  · exact ((resolved mem).1 (all x.bay (mem_allBays _))).1 ⟨can, lowers⟩
  · obtain ⟨x, mem, rfl⟩ := s.exists_target b
    simpa using ((resolved mem).1 (all x.bay (mem_allBays _))).2
  · obtain ⟨x, mem, rfl⟩ := s.exists_target b
    exact (resolved mem).2 ⟨fun ⟨can, low⟩ => lowers x mem can low, by simpa using clear x.bay⟩

/-- A pass touches the bays, the pending list and the ports, besides its figure and its mark. -/
theorem State.allocate_eq (s : State) : s.allocate = { s with
    supply := { s.supply with passFigure := s.budget }, passMark := false
    bays := s.allocate.bays, pendingList := s.allocate.pendingList, ports := s.allocate.ports } := by
  obtain ⟨bays, pendingList, ports, released⟩ := s.passAimed.releaseIfResolved_eq
  rw [s.allocate_eq_release, released, s.passAimed_aimed.frame]
  rfl

theorem State.allocate_of_waits {s : State} (waits : s.passWaits) : s.allocate = s.passAimed :=
  if_neg fun all => s.passAimed_allResolved.1 all waits

theorem State.allocate_bay_of_waits {s : State} (waits : s.passWaits) {x : Target} (mem : x ∈ s.targets) :
    s.allocate.bay x.bay = s.aimedBay x := by
  rw [State.allocate_of_waits waits, s.passAimed_bay mem]

theorem State.allocate_of_resolved {s : State} (resolved : ¬ s.passWaits) : s.allocate = s.passAimed.release :=
  if_pos (s.passAimed_allResolved.2 resolved)

/-- Where nothing is lowered, the bays stand until the release. -/
theorem State.passAimed_bays {s : State} (resolved : ¬ s.passWaits) : s.passAimed.bays = s.bays := by
  refine vector_ext fun b => ?_
  obtain ⟨x, mem, rfl⟩ := s.exists_target b
  exact (s.passAimed_bay mem).trans (if_neg fun lowers => resolved (.inl ⟨x, mem, lowers⟩))

/-- Where nothing is unresolved, the bays of a pass are those of the walk over its increases (R129). -/
theorem State.allocate_walk {s : State} (resolved : ¬ s.passWaits) : ReleaseWalk (s.increasesOf s.targets) s s.allocate := by
  rw [State.allocate_of_resolved resolved, ← s.passAimed_pendingList]
  refine (State.release_walk (s := s.passAimed) ⟨rfl, rfl, rfl, rfl⟩).congr (State.passAimed_bays resolved).symm ?_ ?_ ?_
  · rw [s.passAimed_aimed.frame]
    rfl
  · rw [s.passAimed_aimed.frame]
    exact ⟨rfl, rfl, rfl⟩
  · rw [s.passAimed_aimed.frame]
    rfl

/-- A bay that no increase names stands at the release of a pass. -/
theorem State.allocate_bay_stands {s : State} (resolved : ¬ s.passWaits) {x : Target} (mem : x ∈ s.targets)
    (stays : ¬ ((s.bay x.bay).eligible = true ∧ (s.bay x.bay).grant < x.current)) : s.allocate.bay x.bay = s.bay x.bay := by
  rw [State.allocate_of_resolved resolved]
  refine (State.releaseAll_other (fun y waits own => stays ?_) s.passAimed).trans (congrArg (·[x.bay]) (State.passAimed_bays resolved))
  rw [s.passAimed_pendingList] at waits
  obtain ⟨z, memZ, can, above, rfl⟩ := (s.mem_increasesOf _ _).1 waits
  obtain rfl := State.target_unique memZ mem own
  exact ⟨can, above⟩

/-- A bay that waits for an increase is raised towards it at the release of a pass. -/
theorem State.allocate_bay_rises {s : State} (resolved : ¬ s.passWaits) {x : Target} (mem : x ∈ s.targets)
    (above : (s.bay x.bay).grant < x.current) : (s.bay x.bay).grant ≤ (s.allocate.bay x.bay).grant ∧
      (s.allocate.bay x.bay).grant ≤ x.current ∧ s.allocate.bay x.bay = { s.bay x.bay with
        grant := (s.allocate.bay x.bay).grant, allowance := (s.allocate.bay x.bay).allowance
        power := (s.allocate.bay x.bay).power } := by
  have before (b : BayId) : s.passAimed.bay b = s.bay b := congrArg (·[b]) (State.passAimed_bays resolved)
  have released (b : BayId) : s.allocate.bay b = ((s.increasesOf s.targets).foldl State.releaseOne s.passAimed).bay b := by
    rw [State.allocate_of_resolved resolved, ← s.passAimed_pendingList]
    rfl
  have waiting {y : Increase} (waits : y ∈ s.increasesOf s.targets) : ∃ z ∈ s.targets, (s.bay z.bay).grant < z.current ∧
      ⟨z.bay, z.current⟩ = y := by
    obtain ⟨z, memZ, -, rises, same⟩ := (s.mem_increasesOf _ _).1 waits
    exact ⟨z, memZ, rises, same⟩
  rw [released]
  refine ⟨?_, ?_, ?_⟩
  · refine State.releaseAll_grant _ (fun b => (s.bay b).grant) (fun y waits => ?_) _ (fun b => by rw [before]) x.bay
    obtain ⟨z, -, rises, rfl⟩ := waiting waits
    exact rises.le
  · refine State.releaseAll_atMost (fun y waits own => ?_) _ (by rw [before]; exact above.le)
    obtain ⟨z, memZ, -, rfl⟩ := waiting waits
    obtain rfl := State.target_unique memZ mem own
    exact le_refl _
  · obtain ⟨g, n, p, walked⟩ := State.releaseAll_bay (s.increasesOf s.targets) s.passAimed x.bay
    rw [walked, before]

/-- A bay that is not eligible stands at a pass (R122). -/
theorem State.allocate_ineligible {s : State} {b : BayId} (barred : (s.bay b).eligible = false) : s.allocate.bay b = s.bay b := by
  obtain ⟨x, mem, rfl⟩ := s.exists_target b
  by_cases waits : s.passWaits
  · rw [State.allocate_of_waits waits, s.passAimed_bay mem, State.aimedBay, if_neg (by simp [barred])]
  · exact State.allocate_bay_stands waits mem (by simp [barred])

/-- The outcome t of a pass from s (R100, R116, R122, R129). -/
structure State.Passed (s t : State) : Prop where
  frame : t = { s with
    supply := { s.supply with passFigure := s.budget }, passMark := false
    bays := t.bays, pendingList := t.pendingList, ports := t.ports }
  ineligible : ∀ b, (s.bay b).eligible = false → t.bay b = s.bay b
  aimed : s.passWaits → t.pendingList = s.increasesOf s.targets ∧ ∀ x ∈ s.targets, t.bay x.bay = s.aimedBay x
  released : ¬ s.passWaits → t.pendingList = [] ∧ ReleaseWalk (s.increasesOf s.targets) s t
  stands : ¬ s.passWaits → ∀ x ∈ s.targets,
    ¬ ((s.bay x.bay).eligible = true ∧ (s.bay x.bay).grant < x.current) → t.bay x.bay = s.bay x.bay
  rises : ¬ s.passWaits → ∀ x ∈ s.targets, (s.bay x.bay).grant < x.current →
    (s.bay x.bay).grant ≤ (t.bay x.bay).grant ∧ (t.bay x.bay).grant ≤ x.current ∧ t.bay x.bay = { s.bay x.bay with
      grant := (t.bay x.bay).grant, allowance := (t.bay x.bay).allowance, power := (t.bay x.bay).power }
  tells : s.Tells t

theorem State.allocate_passed (s : State) : s.Passed s.allocate where
  frame := s.allocate_eq
  ineligible _ := State.allocate_ineligible
  aimed waits := ⟨(congrArg State.pendingList (State.allocate_of_waits waits)).trans s.passAimed_pendingList,
    fun _ => State.allocate_bay_of_waits waits⟩
  released resolved := ⟨congrArg State.pendingList (State.allocate_of_resolved resolved), State.allocate_walk resolved⟩
  stands resolved _ := State.allocate_bay_stands resolved
  rises resolved _ := State.allocate_bay_rises resolved
  tells := s.allocate_tells

theorem execAllocationPass_due {s : State} (running : s.phase = .running) (asked : s.passMark = true) :
    exec .allocationPass s = .next s.allocate := congrArg Host.Outcome.next (if_pos (by simp [running, asked]))

theorem execAllocationPass_idle {s : State} (idle : s.phase ≠ .running ∨ s.passMark = false) : exec .allocationPass s = .next s := by
  refine congrArg Host.Outcome.next (if_neg ?_)
  rcases idle with idle | idle <;> simp [idle]

theorem execAllocationPeriodExpiry_due {s : State} (running : s.phase = .running) (ended : s.periodTimer = some 0) :
    exec .allocationPeriodExpiry s = .next { s.allocate with periodTimer := some s.site.period } :=
  congrArg Host.Outcome.next (if_pos (by simp [running, ended]))

theorem execAllocationPeriodExpiry_idle {s : State} (idle : s.phase ≠ .running ∨ s.periodTimer ≠ some 0) :
    exec .allocationPeriodExpiry s = .next s := by
  refine congrArg Host.Outcome.next (if_neg ?_)
  rcases idle with idle | idle <;> simp [idle]

end Sys2Proof.Machine

open Sys2Proof Sys2Proof.Machine

/-- Settles O51: each target is applied to its own bay (State.Aimed), and the increases are released by the walk where nothing is
unresolved (State.allocate_walk). -/
theorem passesHandOverTheirTargets : Obligations.PassesHandOverTheirTargets := by
  unfold Obligations.PassesHandOverTheirTargets
  intro s lowers waits increases passed
  obtain ⟨t, is⟩ : ∃ t, s.allocate = t := ⟨_, rfl⟩
  have outcome : s.Passed t := is ▸ s.allocate_passed
  have pass (timer : Option Nat) : passed timer { t with periodTimer := timer } := by
    obtain ⟨frame, ineligible, aimed, released, stands, rises, tells⟩ := outcome
    refine ⟨?_, ineligible, fun x mem can => ⟨fun below => ?_, fun level => ?_, fun above open' => ?_,
      fun above resolved => rises resolved x mem above⟩, fun open' => (aimed open').1, fun resolved => ?_, tells.moves, tells.told⟩
    · conv_lhs => rw [frame]
    · exact ((aimed (.inl ⟨x, mem, can, below⟩)).2 x mem).trans (if_pos ⟨can, below⟩)
    · by_cases open' : s.passWaits
      · exact ((aimed open').2 x mem).trans (if_neg fun lower => lower.2.ne level)
      · exact stands open' x mem fun rise => rise.2.ne' level
    · exact ((aimed open').2 x mem).trans (if_neg fun lower => lower.2.not_gt above)
    · exact ⟨(released resolved).1, (released resolved).2.of_bays rfl⟩
  have timer : ({ t with periodTimer := s.periodTimer } : State) = t := by rw [outcome.frame]
  refine ⟨s.targets_perm, s.targets_eq, fun x => State.target_of_ineligible, fun running asked => ⟨t, ?_, timer ▸ pass s.periodTimer⟩,
    execAllocationPass_idle, fun running ended => ⟨_, ?_, pass _⟩, execAllocationPeriodExpiry_idle⟩
  · rw [execAllocationPass_due running asked, is]
  · rw [execAllocationPeriodExpiry_due running ended, is]

end

section
/-!
Grants that rise (R104, R105, R122 to R129): outside a release, no grant and no allowance power rises (Subsides), which is said once for
each operation; a release leaves the total allowance power within the budget figure wherever it raises a grant (SpendsWithin).
-/

namespace Sys2Proof.Machine

/-- No bay's grant and no bay's allowance power stands above what it was. -/
structure Subsides (s t : State) : Prop where
  grant : ∀ b, (t.bay b).grant ≤ (s.bay b).grant
  power : ∀ b, (t.bay b).power ≤ (s.bay b).power

theorem Subsides.refl (s : State) : Subsides s s := ⟨fun _ => le_refl _, fun _ => le_refl _⟩

theorem Subsides.trans {s t u : State} (h : Subsides s t) (g : Subsides t u) : Subsides s u :=
  ⟨fun b => (g.grant b).trans (h.grant b), fun b => (g.power b).trans (h.power b)⟩

/-- A step told of each bay. -/
theorem Subsides.ofEach {s t : State} (h : ∀ b, (t.bay b).grant ≤ (s.bay b).grant ∧ (t.bay b).power ≤ (s.bay b).power) :
    Subsides s t := ⟨fun b => (h b).1, fun b => (h b).2⟩

theorem Subsides.foldl {α : Type} (f : State → α → State) (h : ∀ s a, Subsides s (f s a)) (l : List α) (s : State) :
    Subsides s (l.foldl f s) := by
  induction l generalizing s with
  | nil => exact .refl s
  | cons a l ih => exact (h s a).trans (ih _)

/-- A write that leaves the bays alone. -/
theorem Subsides.ofSame {s t : State} (bays : t.bays = s.bays) : Subsides s t := by
  refine .ofEach fun b => ?_
  rw [State.bay, State.bay, bays]
  exact ⟨le_refl _, le_refl _⟩

/-- A write of one bay. -/
theorem Subsides.ofBay {s t : State} {b : BayId} {y : Bay} (bays : t.bays = s.bays.set b y) (grant : y.grant ≤ (s.bay b).grant)
    (power : y.power ≤ (s.bay b).power) : Subsides s t := by
  refine .ofEach fun a => ?_
  have bay : t.bay a = if a = b then y else s.bay a := (congrArg (·[a]) bays).trans (get_set _ _ _ _)
  rw [bay]
  split
  · rename_i own
    subst own
    exact ⟨grant, power⟩
  · exact ⟨le_refl _, le_refl _⟩

/-- A step taken under a condition. -/
theorem Subsides.ite {s t : State} {c : Prop} [Decidable c] (h : Subsides s t) : Subsides s (if c then t else s) := by
  split
  · exact h
  · exact .refl s

/-! ### One bay -/

section
variable (s : State) (b : BayId)

theorem State.modBay_subsides (f : Bay → Bay) (grant : (f (s.bay b)).grant ≤ (s.bay b).grant)
    (power : (f (s.bay b)).power ≤ (s.bay b).power) : Subsides s (s.modBay b f) := .ofBay rfl grant power

theorem State.changeBay_subsides (f : Bay → Bay) (grant : (f (s.bay b)).grant ≤ (s.bay b).grant)
    (power : (f (s.bay b)).power ≤ (s.bay b).power) : Subsides s (s.changeBay b f) := by
  rw [State.changeBay_eq]
  exact .ofBay rfl grant power

theorem State.notify_subsides (k : NoticeKind) (w : Scope) : Subsides s (s.notify k w) := .ofSame rfl

theorem Subsides.notify {s t : State} (h : Subsides s t) (k : NoticeKind) (w : Scope) : Subsides s (t.notify k w) := h.trans (.ofSame rfl)

theorem Subsides.requestPass {s t : State} (h : Subsides s t) : Subsides s t.requestPass := h.trans (.ofSame rfl)

theorem Subsides.requestPlan {s t : State} (h : Subsides s t) : Subsides s t.requestPlan := h.trans (.ofSame rfl)

theorem State.lower_subsides (v : Nat) : Subsides s (s.lower b v) := by
  unfold State.lower
  split
  · rename_i below
    exact (s.modBay_subsides b _ below.le (le_refl _)).notify _ _
  · exact .refl s

theorem State.addInhibit_subsides (r : Inhibit) : Subsides s (s.addInhibit b r) :=
  (s.changeBay_subsides b _ (le_refl _) (le_refl _)).trans (State.lower_subsides _ b 0)

theorem State.removeInhibit_subsides (r : Inhibit) : Subsides s (s.removeInhibit b r) :=
  s.changeBay_subsides b _ (le_refl _) (le_refl _)

theorem State.addFault_subsides : Subsides s (s.addFault b) := (s.addInhibit_subsides b .fault).notify _ _

theorem State.enterStage_subsides (st : Stage) : Subsides s (s.enterStage b st) := by
  have moved := s.changeBay_subsides b (fun x => { x with stage := st }) (le_refl _) (le_refl _)
  unfold State.enterStage
  dsimp only
  split
  · exact moved.notify _ _
  · exact (moved.trans (State.lower_subsides _ b 0)).notify _ _

theorem State.count_subsides (k : EventCounter) : Subsides s (s.count b k) := by
  obtain ⟨ports, counted⟩ := s.count_eq b k
  rw [counted]
  exact .ofBay rfl (le_refl _) (le_refl _)

/-! ### The roster (R13, R17, R18, R150, R163) -/

/-- The bay of a record that enters QUARANTINED. -/
theorem State.baysQuarantined_subsides {t : State} {o : Option BayId} (bay : ∀ a, t.bay a = (s.baysQuarantined o)[a]) : Subsides s t := by
  refine .ofEach fun a => ?_
  rw [bay, State.baysQuarantined_get]
  split
  · exact ⟨Nat.zero_le _, le_refl _⟩
  · exact ⟨le_refl _, le_refl _⟩

theorem State.enterQuarantine_subsides (i : SlotId) (why : Reason) : Subsides s (s.enterQuarantine i why) :=
  s.baysQuarantined_subsides (s.enterQuarantine_bay i why)

theorem State.rebuild_subsides (i : SlotId) : Subsides s (s.rebuild i) := s.baysQuarantined_subsides (s.rebuild_bay i)

theorem State.access_subsides (i : SlotId) : Subsides s (s.access i) := by
  unfold State.access State.countCorrection
  split
  · exact .refl s
  · dsimp only
    split <;> exact .ofSame rfl
  · exact s.rebuild_subsides i

theorem State.accessAll_subsides (l : List SlotId) : Subsides s (s.accessAll l) := .foldl _ State.access_subsides l s

theorem State.accessDocked_subsides : Subsides s (s.accessDocked b) := by
  unfold State.accessDocked
  split
  · exact s.access_subsides _
  · exact .refl s

theorem State.putRecord_subsides (i : SlotId) (r : PackRecord) : Subsides s (s.putRecord i r) := by
  obtain ⟨ports, written⟩ := s.putRecord_eq i r
  rw [written]
  exact .ofSame rfl

/-- Detaching what hangs on a record leaves the bays. -/
theorem State.Detaches.subsides {s t : State} {i : SlotId} (h : State.Detaches i s t) : Subsides s t := .ofSame h.bays

theorem State.unreserve_subsides (e : EntryId) : Subsides s (s.unreserve e) := by
  unfold State.unreserve
  split
  · dsimp only
    split
    · exact (s.access_subsides _).trans (State.dropReservation_detaches _ e _).subsides
    · exact s.access_subsides _
  · exact .refl s

theorem State.relist_subsides (i : SlotId) : Subsides s (s.relist i) := by
  unfold State.relist
  split
  · exact .refl s
  · rename_i u _
    have listed (r : PackRecord) := (s.putRecord_subsides i r).trans
      (State.modBay_subsides _ u (fun x => { x with slot := some i }) (le_refl _) (le_refl _))
    dsimp only
    split
    · exact (((listed _).trans (State.removeInhibit_subsides _ u _)).notify _ _).requestPlan
    · exact ((((listed _).trans (State.enterStage_subsides _ u _)).trans (State.removeInhibit_subsides _ u _)).notify _ _).requestPlan

/-! ### Bands and heat (R31, R54, R55, R77, R79) -/

theorem State.followFactor_subsides : Subsides s (s.followFactor b) := by
  unfold State.followFactor
  split
  · exact s.addInhibit_subsides b _
  · exact .ite (s.removeInhibit_subsides b _)

theorem State.heatLimit_subsides : Subsides s (s.heatLimit b) := by
  unfold State.heatLimit
  split
  · exact s.addFault_subsides b
  · dsimp only
    split
    · exact s.access_subsides _
    · exact (s.access_subsides _).trans (State.enterQuarantine_subsides _ _ _)

theorem State.heatEntry_subsides : Subsides s (s.heatEntry b) := by
  have counted := (s.count_subsides b .overtemp).trans
    (State.modBay_subsides _ b (fun x => { x with heat := min 3 (x.heat + 1) }) (le_refl _) (le_refl _))
  unfold State.heatEntry
  dsimp only
  split
  · exact counted
  · exact counted.trans (State.heatLimit_subsides _ b)

theorem State.putBand_subsides (k : Fin 6) : Subsides s (s.putBand b k) := s.modBay_subsides b _ (le_refl _) (le_refl _)

theorem State.changeBand_subsides (k : Fin 6) : Subsides s (s.changeBand b k) := by
  have moved := ((s.putBand_subsides b k).trans (State.followFactor_subsides _ b)).trans (State.notify_subsides _ .bay (.bay b))
  unfold State.changeBand
  dsimp only
  split
  · exact moved.trans (State.heatEntry_subsides _ b)
  · exact moved

theorem State.trackBand_subsides (t : Int) : Subsides s (s.trackBand b t) := by
  have debounced (n : Bay → Nat) : Subsides s (s.modBay b fun y => { y with debounce := n y }) :=
    s.modBay_subsides b _ (le_refl _) (le_refl _)
  unfold State.trackBand
  dsimp only
  split
  · exact .refl s
  · split
    · exact debounced _
    · split
      · exact debounced _
      · exact s.changeBand_subsides b _

theorem State.retakeBand_subsides : Subsides s (s.retakeBand b) := by
  unfold State.retakeBand
  extract_lets x t k
  split
  · exact (s.putBand_subsides b k).trans (State.followFactor_subsides _ b)
  · exact s.changeBand_subsides b k

/-! ### Charge and stages (R52, R56 to R61) -/

theorem State.creditCharge_subsides (c n : Nat) : Subsides s (s.creditCharge b c n) := by
  unfold State.creditCharge
  split
  · exact .refl s
  · exact (s.putRecord_subsides _ _).trans (State.modBay_subsides _ b _ (le_refl _) (le_refl _))

theorem State.makeReady_subsides (i : SlotId) : Subsides s (s.makeReady i) := (s.putRecord_subsides i _).trans (.ofSame rfl)

theorem State.enterDone_subsides : Subsides s (s.enterDone b) := by
  have moved := s.enterStage_subsides b .done
  unfold State.enterDone
  dsimp only
  split
  · split
    · exact ((moved.trans (State.makeReady_subsides _ _)).notify _ _).requestPlan
    · exact moved
  · exact moved

theorem State.enterRest_subsides (n : Nat) : Subsides s (s.enterRest b n) := by
  unfold State.enterRest
  split
  · exact s.enterDone_subsides b
  · exact (s.enterStage_subsides b _).trans (State.modBay_subsides _ b _ (le_refl _) (le_refl _))

theorem State.complete_subsides (i : SlotId) : Subsides s (s.complete b i) := by
  unfold State.complete
  dsimp only
  split
  · exact ((s.putRecord_subsides i _).trans (State.enterStage_subsides _ b _)).trans
      (State.modBay_subsides _ b _ (le_refl _) (le_refl _))
  · exact (s.putRecord_subsides i _).trans (State.enterRest_subsides _ b _)

theorem State.moveStage_subsides (l : LastReport) (u : Bool) : Subsides s (s.moveStage b l u) := by
  unfold State.moveStage
  split
  · exact .refl s
  · rename_i i _
    split
    · exact .refl s
    · extract_lets pr r absorbed terminated
      have absorbs : Subsides s absorbed := .ite (s.enterStage_subsides b _)
      split
      · exact (absorbs.trans (.ite (State.notify_subsides _ _ _))).trans (State.complete_subsides _ b i)
      · exact absorbs

/-! ### Supervision (R66 to R76) -/

theorem State.becomeSilent_subsides : Subsides s (s.becomeSilent b) :=
  ((s.count_subsides b _).trans (State.changeBay_subsides _ b _ (le_refl _) (le_refl _))).notify _ _

theorem State.becomeLost_subsides : Subsides s (s.becomeLost b) :=
  ((Subsides.ite (s.becomeSilent_subsides b)).trans (State.changeBay_subsides _ b _ (le_refl _) (le_refl _))).trans
    (State.addFault_subsides _ b)

theorem State.returnToNormal_subsides : Subsides s (s.returnToNormal b) := by
  unfold State.returnToNormal
  split
  · exact .refl s
  · exact (s.changeBay_subsides b _ (le_refl _) (le_refl _)).notify _ _

theorem State.declareStall_subsides : Subsides s (s.declareStall b) := by
  have declared (f : Bay → Bay) (r : Inhibit) (grant : ∀ x, (f x).grant = x.grant) (power : ∀ x, (f x).power = x.power) :
      Subsides s (s.declaration b f r) :=
    (((s.count_subsides b _).trans (State.modBay_subsides _ b f (grant _).le (power _).le)).trans
      (State.addInhibit_subsides _ b r)).notify _ _
  rw [State.declareStall_eq]
  split
  · exact declared _ _ (fun _ => rfl) fun _ => rfl
  · exact declared _ _ (fun _ => rfl) fun _ => rfl

theorem State.judgeStall_subsides (c : Nat) : Subsides s (s.judgeStall b c) := by
  have counted (n : Bay → Nat) : Subsides s (s.modBay b fun x => { x with stallStreak := n x }) :=
    s.modBay_subsides b _ (le_refl _) (le_refl _)
  unfold State.judgeStall
  split
  · split
    · exact counted _
    · exact s.declareStall_subsides b
  · exact counted _

theorem State.judgeProbation_subsides (c : Nat) : Subsides s (s.judgeProbation b c) := by
  have counted (n : Bay → Option Nat) : Subsides s (s.modBay b fun x => { x with probation := n x }) :=
    s.modBay_subsides b _ (le_refl _) (le_refl _)
  have cleared : Subsides s (s.clearStall b) :=
    (s.modBay_subsides b (fun x => { x with stall := .clear, probation := none }) (le_refl _) (le_refl _)).trans (.ofSame rfl)
  unfold State.judgeProbation
  dsimp only
  split
  · split
    · exact counted _
    · split
      · exact counted _
      · exact cleared
  · exact .refl s

theorem State.supervise_subsides (l : LastReport) : Subsides s (s.supervise b l) :=
  ((Subsides.ite (s.addFault_subsides b)).trans (State.judgeProbation_subsides _ b _)).trans (State.judgeStall_subsides _ b _)

theorem State.recordReport_subsides (l : LastReport) (c : Bool) : Subsides s (s.recordReport b l c) :=
  (s.modBay_subsides b _ (le_refl _) (le_refl _)).trans (.ite (State.notify_subsides _ _ _))

/-! ### All bays (R91, R95, R96) -/

theorem State.holdBay_subsides : Subsides s (s.holdBay b) := by
  unfold State.holdBay
  split
  · exact .refl s
  · exact s.addInhibit_subsides b _

theorem State.clearInhibit_subsides (r : Inhibit) : Subsides s (s.clearInhibit r) :=
  .foldl _ (fun t b => .ite (t.removeInhibit_subsides b r)) allBays s

theorem State.rezone_subsides : Subsides s s.rezone := by
  have rezoned (t : State) (b : BayId) : Subsides t (t.rezoneBay b) := by
    unfold State.rezoneBay
    split
    · exact .refl t
    · split
      · exact .ite (t.removeInhibit_subsides b _)
      · split
        · exact .refl t
        · exact t.addInhibit_subsides b _
  exact ((Subsides.foldl _ rezoned allBays s).notify _ _).requestPass

/-! ### The two tables (R28, R33, R34, R138 to R140) -/

theorem State.takeBay_subsides (valid : Bool) (k : ProfileId) : Subsides s (State.takeBay valid k s b) := by
  have bulk (t : State) : Subsides t (t.reevaluateBulk b) := by
    rw [State.reevaluateBulk_eq]
    exact .ite (t.enterStage_subsides b _)
  unfold State.takeBay
  split
  · exact .ite (((Subsides.ite (s.removeInhibit_subsides b _)).trans (State.retakeBand_subsides _ b)).trans (bulk _))
  · exact .ite (s.addInhibit_subsides b _)

theorem State.takeProfile_subsides (k : ProfileId) (bytes : Vector Byte 32) : Subsides s (s.takeProfile k bytes) := by
  have record (t : State) (i : SlotId) : Subsides t (State.retakeRecord k t i) := by
    unfold State.retakeRecord
    split
    · dsimp only
      split
      · exact (t.access_subsides i).trans (State.putRecord_subsides _ i _)
      · exact t.access_subsides i
    · exact .refl t
  have stored : Subsides s (s.setProfile k (takenProfile bytes)) := .ofSame rfl
  have records : Subsides s (s.recordsTaken k bytes) := by
    unfold State.recordsTaken
    split
    · exact stored.trans (.foldl _ record allSlots _)
    · split
      · exact stored.trans (State.notify_subsides _ _ _)
      · exact stored
  rw [State.takeProfile_eq]
  exact (records.trans (.foldl _ (fun t b => t.takeBay_subsides b _ k) allBays _)).requestPass.requestPlan

theorem State.takeEntry_subsides (e : EntryId) (bytes : Vector Byte 8) : Subsides s (s.takeEntry e bytes) := by
  unfold State.takeEntry
  extract_lets requested written valid stored
  have taken : Subsides s stored := (s.unreserve_subsides e).trans (.ofSame rfl)
  split
  · exact (taken.notify _ _).requestPlan
  · exact taken.requestPlan

theorem State.setEntry_subsides (e : EntryId) (x : Entry) : Subsides s (s.setEntry e x) := .ofSame rfl

theorem State.addDeparture_subsides (e : EntryId) (x : Entry) : Subsides s (s.addDeparture e x) :=
  ((s.unreserve_subsides e).trans (State.setEntry_subsides _ e _)).requestPlan

theorem State.cancelDeparture_subsides (e : EntryId) : Subsides s (s.cancelDeparture e) :=
  ((s.unreserve_subsides e).trans (State.setEntry_subsides _ e _)).requestPlan

/-! ### Planning (R143 to R149) -/

theorem State.plan_subsides : Subsides s s.plan := by
  have reserved (chosen : List Choice) (t : State) (i : SlotId) : Subsides t (State.reserveSlot chosen t i) := by
    unfold State.reserveSlot
    split
    · exact .refl t
    · dsimp only
      split <;> exact (t.access_subsides i).trans (State.putRecord_subsides _ i _)
  have written (t : State) (chosen : List Choice) : Subsides t (t.writeReservations chosen) := by
    have entered (u : State) (l : Vector Entry 48) : Subsides u { u with entries := l } := .ofSame rfl
    have recorded := Subsides.foldl _ (reserved chosen) allSlots t
    unfold State.writeReservations
    dsimp only
    split
    · exact recorded.trans (entered _ _)
    · exact (recorded.trans (entered _ _)).requestPass
  have planned : Subsides s s.plannedPlan := by
    obtain ⟨entries, ports, planned⟩ := s.plannedPlan_eq
    rw [planned]
    exact .ofSame rfl
  rw [State.plan_eq]
  exact planned.trans (written _ _)

/-! ### Draws and the roster commands (R14 to R16, R159 to R164) -/

theorem State.choosePack_subsides (w : SweeperId) (k : ProfileId) (e : Option EntryId) : Subsides s (s.choosePack w k e).1 := by
  have reserved : Subsides s (s.choiceReserved e).1 := by
    unfold State.choiceReserved
    split
    · exact .refl s
    · split
      · exact .refl s
      · dsimp only
        split <;> exact s.access_subsides _
  have fullest (t : State) : Subsides t (t.choicePartial w k).1 := by
    unfold State.choicePartial
    dsimp only
    split
    · split <;> exact t.accessAll_subsides _
    · exact t.accessAll_subsides _
  have ready (t : State) : Subsides t (t.choiceReady w k).1 := t.accessAll_subsides _
  unfold State.choosePack
  split
  · rename_i t i first
    rw [first] at reserved
    exact reserved
  · rename_i t first
    rw [first] at reserved
    refine reserved.trans ?_
    have second := ready t
    split
    · rename_i u i chosen
      rw [chosen] at second
      exact second
    · rename_i u chosen
      rw [chosen] at second
      exact second.trans (fullest u)

theorem State.serveDraw_subsides (w : SweeperId) (i : SlotId) (e : Option EntryId) : Subsides s (s.serveDraw w i e) := by
  have called (r : PackRecord) := ((s.clearReservation_detaches i).trans (State.leaveReady_detaches _ i)).subsides.trans
    (State.putRecord_subsides ((s.clearReservation i).leaveReady i) i r)
  have recalled (t : State) (b : BayId) : Subsides t (t.recallBay w i b) := (t.addInhibit_subsides b .called).trans (.ofSame rfl)
  have entered (t : State) (e : EntryId) : Subsides t (t.callEntry e) := (t.unreserve_subsides e).trans (.ofSame rfl)
  have drawn (t : State) : Subsides t (t.setDraw w (some ⟨i, e⟩)) := .ofSame rfl
  unfold State.serveDraw
  dsimp only
  split <;> split
  · exact (((called _).trans (recalled _ _)).trans (drawn _)).trans (entered _ _)
  · exact ((called _).trans (drawn _)).trans (entered _ _)
  · exact ((called _).trans (recalled _ _)).trans (drawn _)
  · exact (called _).trans (drawn _)

theorem State.drawPack_subsides (w : SweeperId) (k : ProfileId) : Subsides s (s.drawPack w k).state := by
  unfold State.drawPack
  dsimp only
  split
  · exact (s.choosePack_subsides w k _).trans (State.serveDraw_subsides _ w _ _)
  · exact s.choosePack_subsides w k _

theorem State.accessDrawn_subsides (w : SweeperId) : Subsides s (s.accessDrawn w) := by
  unfold State.accessDrawn
  split
  · exact s.access_subsides _
  · exact .refl s

theorem State.cancelDrawOf_subsides (i : SlotId) : Subsides s (s.cancelDrawOf i) := by
  have uncalled (b : BayId) : Subsides s (s.uncall i b) := by
    have kept := s.putRecord_subsides i { s.record i with lifecycle := .docked, sweeper := none }
    unfold State.uncall
    dsimp only
    split
    · exact (kept.trans (State.makeReady_subsides _ i)).notify _ _
    · exact kept
  unfold State.cancelDrawOf
  dsimp only
  refine (Subsides.trans ?_ (State.voidDraw_detaches _ i).subsides).requestPlan
  split
  · exact (uncalled _).trans (State.removeInhibit_subsides _ _ _)
  · exact .refl s

theorem State.releaseQuarantine_subsides (i : SlotId) : Subsides s (s.releaseQuarantine i) := by
  have released : Subsides s (s.releaseRecord i) := by
    unfold State.releaseRecord
    split
    · dsimp only
      split
      · exact (s.putRecord_subsides i _).trans (State.makeReady_subsides _ i)
      · exact s.putRecord_subsides i _
    · exact s.putRecord_subsides i _
  unfold State.releaseQuarantine
  dsimp only
  split
  · exact ((released.trans (State.removeInhibit_subsides _ _ _)).notify _ _).requestPlan
  · exact (released.notify _ _).requestPlan

theorem State.forgetRecord_subsides (i : SlotId) : Subsides s (s.forgetRecord i) := by
  have unlisted (b : BayId) : Subsides s (s.unlistBay b) :=
    ((s.modBay_subsides b _ (le_refl _) (le_refl _)).trans (State.addInhibit_subsides _ b _)).trans (State.removeInhibit_subsides _ b _)
  unfold State.forgetRecord
  dsimp only
  refine Subsides.trans (Subsides.trans ?_ (State.putRecord_subsides _ i _)) (State.relist_subsides _ i)
  split
  · exact unlisted _
  · exact .refl s

/-! ### Docking and undocking (R43 to R49) -/

/-- A dock leaves the grant and the allowance of its bay (R45). -/
theorem State.dockBay_subsides (d : Docking) (o : Option SlotId) : Subsides s (s.dockBay b d o) := by
  have seated : Subsides s (s.dockSeat b d o) := .ofBay rfl (le_refl _) (le_refl _)
  rw [State.dockBay_eq_seat]
  refine ((Subsides.notify ?_ _ _).requestPass).requestPlan
  split
  · exact seated.trans (State.heatEntry_subsides _ b)
  · exact seated

theorem State.dockTag_subsides (d : Docking) : Subsides s (s.dockTag b d).state := by
  have checked := s.accessAll_subsides allSlots
  have roster (t : State) : Subsides t (t.dockRoster b d) := .ofEach fun a => by
    rw [State.dockRoster_bay]
    exact ⟨le_refl _, le_refl _⟩
  unfold State.dockTag
  generalize s.accessAll allSlots = t at checked
  dsimp only
  split
  · exact checked.notify _ _
  · exact (checked.trans (roster t)).trans (State.dockBay_subsides _ b d _)

theorem State.undockRecord_subsides (i : SlotId) : Subsides s (s.undockRecord i) := by
  have unaccounted (w : Option SweeperId) (t : State) (j : SlotId) : Subsides t (State.unaccount w t j) := by
    unfold State.unaccount
    split
    · dsimp only
      split
      · exact ((t.access_subsides j).trans (State.putRecord_subsides _ j _)).notify _ _
      · exact t.access_subsides j
    · exact .refl t
  have issued : Subsides s (s.issue i) :=
    ((Subsides.foldl _ (unaccounted _) _ s).trans (State.endDraw_detaches _ i _).subsides).trans (State.putRecord_subsides _ i _)
  have freed := ((s.clearReservation_detaches i).trans (State.leaveReady_detaches _ i)).subsides
  unfold State.undockRecord
  split
  · exact issued
  · exact freed.trans (State.putRecord_subsides _ i _)
  · exact freed.trans (State.putRecord_subsides _ i _)
  · exact s.putRecord_subsides i _

/-- An emptied bay keeps its allowance (R49). -/
theorem State.undock_subsides : Subsides s (s.undock b) := by
  have dropped (t : State) : Subsides t (t.dropIncrease b) := .ofSame rfl
  have emptied (t : State) : Subsides t (t.undockBay b) :=
    ((((t.lower_subsides b 0).trans (State.modBay_subsides _ b Bay.emptied (le_refl _) (le_refl _))).trans
      (dropped _)).notify _ _).requestPass.requestPlan
  have seen : Subsides s s.countSeen := .ofSame rfl
  unfold State.undock
  dsimp only
  split
  · exact (seen.trans (State.undockRecord_subsides _ _)).trans (emptied _)
  · exact seen.trans (emptied _)

/-! ### Timers (R59, R75, R81) -/

theorem State.endStallHold_subsides : Subsides s (s.endStallHold b) :=
  ((s.modBay_subsides b _ (le_refl _) (le_refl _)).trans (State.removeInhibit_subsides _ b _)).notify _ _

theorem State.endEqualise_subsides : Subsides s (s.endEqualise b) := by
  have cleared (t : State) : Subsides t (t.clearSinceEqualise b) := by
    unfold State.clearSinceEqualise
    split
    · exact t.putRecord_subsides _ _
    · exact .refl t
  exact (((s.accessDocked_subsides b).trans (cleared _)).trans (State.modBay_subsides _ b _ (le_refl _) (le_refl _))).trans
    (State.enterRest_subsides _ b _)

theorem State.endRest_subsides : Subsides s (s.endRest b) :=
  ((s.accessDocked_subsides b).trans (State.modBay_subsides _ b _ (le_refl _) (le_refl _))).trans (State.enterDone_subsides _ b)

theorem State.latch_subsides : Subsides s s.latch := .ofEach fun a => by
  rw [State.latch_bay]
  exact ⟨le_refl _, le_refl _⟩

theorem State.tick_subsides : Subsides s s.tick := .ofEach fun a => by
  rw [State.tick_bay]
  exact ⟨le_refl _, le_refl _⟩

theorem State.changeMinute_subsides (m : Nat) : Subsides s (s.changeMinute m) := by
  have cleared : Subsides s { s with minuteDue := none } := .ofSame rfl
  unfold State.changeMinute
  dsimp only
  refine Subsides.trans ?_ (State.plan_subsides _)
  split
  · exact cleared.trans (State.latch_subsides _)
  · exact cleared

/-! ### Supply, zone and settings (R85 to R96, R181) -/

theorem State.resupply_subsides (f : Supply → Supply) : Subsides s (s.resupply f) := by
  rw [State.resupply, State.checkBudget_eq]
  exact .ofSame rfl

theorem State.startRamp_subsides : Subsides s s.startRamp := (s.resupply_subsides _).notify _ _

theorem State.endRamp_subsides : Subsides s s.endRamp := (s.resupply_subsides _).notify _ _

theorem State.takeReading_subsides (r : Nat) : Subsides s (s.takeReading r) := by
  have noticed : Subsides s (if s.supply.condition == .fresh then s else s.notify .supply .part) := by
    split <;> exact .ofSame rfl
  have raised (t : State) : Subsides t (t.raisePeaks r) := .ofSame rfl
  unfold State.takeReading
  exact (noticed.trans (raised _)).trans (State.resupply_subsides _ _)

theorem State.windDown_subsides : Subsides s s.windDown :=
  ((Subsides.foldl _ State.holdBay_subsides allBays s).trans (State.resupply_subsides _ _)).notify _ _

theorem State.setZone_subsides (first last : BayId) : Subsides s (s.setZone first last) := by
  have placed : Subsides s (s.setSupply { s.supply with zoneFirst := first, zoneLast := last }) := .ofSame rfl
  unfold State.setZone
  dsimp only
  split
  · exact placed.trans (State.rezone_subsides _)
  · exact placed

theorem State.switchZoneOn_subsides : Subsides s s.switchZoneOn :=
  Subsides.trans (t := s.setSupply { s.supply with zoneOn := true }) (.ofSame rfl) (State.rezone_subsides _)

theorem State.switchZoneOff_subsides : Subsides s s.switchZoneOff := by
  have off : Subsides s (s.setSupply { s.supply with zoneOn := false }) := .ofSame rfl
  unfold State.switchZoneOff
  exact ((off.trans (State.clearInhibit_subsides _ .restricted)).notify _ _).requestPass

theorem State.setSite_subsides (x : Site) : Subsides s (s.setSite x) := by
  have retime (t : State) (old : Site) : Subsides t (t.retime old) := by
    unfold State.retime
    split <;> exact .ofSame rfl
  have reramp (t : State) (old : Site) : Subsides t (t.reramp old) := by
    unfold State.reramp
    split
    · exact .refl t
    · split
      · exact t.endRamp_subsides
      · rw [State.checkBudget_eq]
        exact .ofSame rfl
  have replan (t : State) (old : Site) : Subsides t (t.replan old) := by
    unfold State.replan
    split <;> exact .ofSame rfl
  have site : Subsides s { s with site := x } := .ofSame rfl
  exact ((site.trans (retime _ _)).trans (reramp _ _)).trans (replan _ _)

/-! ### Resets and the scan -/

theorem State.softReset_subsides : Subsides s s.softReset := by
  have demoted (t : State) (i : SlotId) : Subsides t (t.demoteRecord i) := by
    unfold State.demoteRecord
    split
    · exact .refl t
    · exact (t.access_subsides i).trans (.ofSame rfl)
  have whole : Subsides s s.softResetBlocks := by
    have low := (Subsides.foldl _ demoted allSlots s).trans
      (.foldl (fun t b => t.lower b 0) (fun t b => t.lower_subsides b 0) allBays _)
    unfold State.softResetBlocks
    extract_lets d lowered
    change Subsides s lowered at low
    clear_value lowered
    refine low.trans (.ofEach fun a => ?_)
    simp only [State.bay, get_updateAll]
    exact ⟨le_refl _, le_refl _⟩
  unfold State.softReset
  generalize s.softResetBlocks = t at whole
  exact (whole.trans (State.startRamp_subsides _)).trans (.ofSame rfl)

theorem State.scanAfterReset_subsides : Subsides s s.scanAfterReset := by
  have scanned (t : State) (i : SlotId) : Subsides t (t.scanRecord i) := by
    unfold State.scanRecord
    split
    · exact .refl t
    · dsimp only
      split
      · exact (t.rebuild_subsides i).trans (State.putRecord_subsides _ i _)
      · exact t.putRecord_subsides i _
  have tables : Subsides s s.scanTables := .ofSame rfl
  have counted (t : State) (n : Nat) : Subsides t { t with seenCounter := n } := .ofSame rfl
  have whole := (tables.trans (State.accessAll_subsides _ allSlots)).trans (.foldl _ scanned allSlots _)
  unfold State.scanAfterReset
  dsimp only
  split
  · exact (whole.trans (counted _ _)).notify _ _
  · exact whole.trans (counted _ _)

theorem State.endScan_subsides : Subsides s s.endScan := by
  have running : Subsides s { s with phase := .running, periodTimer := some s.site.period } := .ofSame rfl
  exact running.trans (State.startRamp_subsides _)

end

/-! ### Commands -/

section
variable (s : State)

theorem State.setPort_subsides (p : PortId) (x : Port) : Subsides s (s.setPort p x) := .ofSame rfl

theorem State.transact_subsides (p : PortId) (row : CommandRow) (params : List Byte) (act : State → Reply)
    (h : Subsides s (act s).state) : Subsides s (s.transact p row params act) := by
  rcases s.transact_cases p row params act with ⟨-, taken⟩ | ⟨r, after, refused⟩
  · rw [taken]
    exact h.trans (State.setPort_subsides _ _ _)
  · rw [refused]
    exact s.setPort_subsides _ _

theorem State.clusterCommand_subsides (p : PortId) (row : CommandRow) (params : List Byte) (act : BayId → State → Reply)
    (h : ∀ b, Subsides s (act b s).state) : Subsides s (s.clusterCommand p row params act) := by
  refine s.transact_subsides p row params _ ?_
  split
  · exact h _
  · exact .refl s

theorem State.slotCommand_subsides (p : PortId) (row : CommandRow) (params : List Byte) (act : SlotId → State → Reply)
    (h : ∀ i t, Subsides t (act i t).state) : Subsides s (s.slotCommand p row params act) := by
  refine s.transact_subsides p row params _ ?_
  split
  · exact (s.access_subsides _).trans (h _ _)
  · exact .refl s

end

/-- A reset leaves every grant and every allowance power at 0 (R21). -/
theorem Subsides.ofReset {s t : State} (bays : t.bays = Vector.replicate 16 emptyBay) : Subsides s t := by
  refine .ofEach fun b => ?_
  have bay : t.bay b = emptyBay := by simp [State.bay, bays]
  rw [bay]
  exact ⟨Nat.zero_le _, Nat.zero_le _⟩

/-- The state that a command leaves, if it leaves one, stands to the one before it as told. -/
def Outcome.Within (rel : State → State → Prop) (s : State) (r : Result) : Prop := ∀ t, r = .next t → rel s t

theorem Outcome.Within.next {rel : State → State → Prop} {s t : State} (h : rel s t) : Outcome.Within rel s (.next t) := by
  intro u e
  cases e
  exact h

/-- An event that takes place only when it is due. -/
theorem Outcome.Within.whenDue {rel : State → State → Prop} {s t : State} (due : Bool) (h : rel s t) (refl : rel s s) :
    Outcome.Within rel s (.next (if due then t else s)) := by
  cases due
  · exact .next refl
  · exact .next h

/-- The command or event raises no grant and no allowance power. -/
abbrev Outcome.Subsides (s : State) (r : Result) : Prop := Outcome.Within Machine.Subsides s r

theorem Outcome.Subsides.whenDue {s t : State} (due : Bool) (h : Machine.Subsides s t) :
    Outcome.Subsides s (.next (if due then t else s)) := Outcome.Within.whenDue due h (.refl s)

/-- A read whose command leaves the state as it is. -/
theorem Outcome.Subsides.read {s : State} {p : PortId} {row : CommandRow} {params : List Byte} {act : State → Reply}
    (h : (act s).state = s) : Outcome.Subsides s (.next (s.transact p row params act)) :=
  .next (s.transact_subsides p row params act (by rw [h]; exact .refl s))

section
variable (p : PortId) (params : List Byte) (s : State)

theorem execReadPack_subsides : Outcome.Subsides s (execReadPack p params s) := by
  have all := s.accessAll_subsides allSlots
  refine .next (s.transact_subsides p rowReadPack params _ ?_)
  split
  · unfold State.readBySlot
    split
    · exact s.access_subsides _
    · exact .refl s
  · unfold State.readByTag
    split
    · exact .refl s
    · dsimp only
      split <;> simpa only [State.answerPack_state, State.reply_state] using all
  · unfold State.readByBay
    split
    · exact .refl s
    · split
      · exact s.access_subsides _
      · exact .refl s
  · unfold State.readBySweeper
    split
    · exact .refl s
    · split
      · exact .refl s
      · dsimp only
        split <;> simpa only [State.answer_state, State.reply_state] using all
  · exact .refl s

theorem execReadGroup_subsides : Outcome.Subsides s (execReadGroup p params s) := by
  refine .next (s.transact_subsides _ _ _ _ ?_)
  split
  · rename_i g _
    have checked := s.accessAll_subsides (slotsOf g)
    generalize s.accessAll (slotsOf g) = t at checked
    exact checked.trans (t.setPort_subsides _ _)
  · exact .refl s

theorem execReadBay_subsides : Outcome.Subsides s (execReadBay p params s) := by
  refine .read ?_
  split <;> rfl

theorem execReadDeparture_subsides : Outcome.Subsides s (execReadDeparture p params s) := by
  refine .read ?_
  split <;> rfl

theorem execReadQueue_subsides : Outcome.Subsides s (execReadQueue p params s) := by
  refine .next (s.transact_subsides _ _ _ _ ?_)
  split
  · exact s.accessAll_subsides _
  · exact .refl s

theorem execReadRecall_subsides : Outcome.Subsides s (execReadRecall p params s) := by
  refine .read ?_
  split
  · split <;> rfl
  · rfl

theorem execSetNoticeMask_subsides : Outcome.Subsides s (execSetNoticeMask p params s) := by
  refine .next (s.transact_subsides _ _ _ _ ?_)
  split
  · exact s.setPort_subsides _ _
  · exact .refl s

theorem execDock_subsides : Outcome.Subsides s (execDock p params s) := by
  refine .next (s.clusterCommand_subsides p rowDock params _ fun b => ?_)
  split
  · exact .refl s
  · split
    · exact s.dockTag_subsides b _
    · exact .refl s

theorem execUndock_subsides : Outcome.Subsides s (execUndock p params s) := by
  refine .next (s.clusterCommand_subsides p rowUndock params _ fun b => ?_)
  have accessed := s.accessDocked_subsides b
  split
  · exact .refl s
  · split
    · exact .refl s
    · split
      · exact accessed
      · exact accessed.trans (State.undock_subsides _ b)

theorem execClearFault_subsides : Outcome.Subsides s (execClearFault p params s) := by
  refine .next (s.clusterCommand_subsides p rowClearFault params _ fun b => ?_)
  split
  · exact .refl s
  · split
    · exact .refl s
    · exact (s.removeInhibit_subsides b .fault).trans (.ofSame rfl)

theorem execSetClock_subsides : Outcome.Subsides s (execSetClock p params s) := by
  refine .next (s.transact_subsides _ _ _ _ ?_)
  split
  · exact .refl s
  · exact .ofSame rfl

theorem execSetSupply_subsides : Outcome.Subsides s (execSetSupply p params s) := by
  refine .next (s.transact_subsides _ _ _ _ ?_)
  split
  · rw [State.reply_state]
    exact s.resupply_subsides _
  · exact .refl s

theorem execHold_subsides : Outcome.Subsides s (execHold p s) := by
  refine .next (s.transact_subsides _ _ _ _ ?_)
  split
  · exact s.windDown_subsides
  · exact s.windDown_subsides
  · exact .refl s
  · exact .refl s

theorem execResume_subsides : Outcome.Subsides s (execResume p s) := by
  refine .next (s.transact_subsides _ _ _ _ ?_)
  split
  · exact .refl s
  · exact .refl s
  · exact .refl s
  · exact (s.clearInhibit_subsides .hold).trans (State.startRamp_subsides _)

theorem execSetZone_subsides : Outcome.Subsides s (execSetZone p params s) := by
  refine .next (s.transact_subsides _ _ _ _ ?_)
  split
  · exact s.setZone_subsides _ _
  · exact .refl s

theorem execZoneOn_subsides : Outcome.Subsides s (execZoneOn p s) := by
  refine .next (s.transact_subsides _ _ _ _ ?_)
  dsimp only [State.reply_state]
  split
  · exact .refl s
  · exact s.switchZoneOn_subsides

theorem execZoneOff_subsides : Outcome.Subsides s (execZoneOff p s) := by
  refine .next (s.transact_subsides _ _ _ _ ?_)
  dsimp only [State.reply_state]
  split
  · exact s.switchZoneOff_subsides
  · exact .refl s

theorem execSetWindow_subsides : Outcome.Subsides s (execSetWindow p params s) := by
  refine .next (s.transact_subsides _ _ _ _ ?_)
  split
  · exact s.setPort_subsides _ _
  · exact .refl s

theorem execTableWrite_subsides : Outcome.Subsides s (execTableWrite p s) := by
  refine .next ?_
  split
  · exact s.setPort_subsides _ _
  · split
    · exact s.setPort_subsides _ _
    · split <;> exact s.setPort_subsides _ _

theorem execTableRead_subsides (part : ReadPart) : Outcome.Subsides s (execTableRead p part s) := by
  refine .next ?_
  cases part with
  | command =>
    have answered : Subsides s (s.transact p rowTableRead [] fun t =>
        if (t.port p).window.isSome then t.answer [] else t.reply .state) :=
      s.transact_subsides _ _ _ _ (by split <;> exact .refl s)
    unfold State.beginReading
    dsimp only
    split
    · exact answered.trans (State.setPort_subsides _ _ _)
    · exact answered
  | nextEntry =>
    unfold State.readEntry
    dsimp only
    split
    · exact (s.setPort_subsides _ _).trans (State.setPort_subsides _ _ _)
    · exact (s.setPort_subsides _ _).trans (State.setPort_subsides _ _ _)
    · exact .refl s

theorem execTableWriteStreamEnd_subsides : Outcome.Subsides s (execTableWriteStreamEnd p s) := by
  refine .next ?_
  split
  · exact s.setPort_subsides _ _
  · exact s.setPort_subsides _ _
  · exact .refl s

theorem execAddDeparture_subsides : Outcome.Subsides s (execAddDeparture p params s) := by
  refine .next (s.transact_subsides _ _ _ _ ?_)
  split
  · exact .refl s
  · split
    · exact s.addDeparture_subsides _ _
    · exact .refl s

theorem execCancelDeparture_subsides : Outcome.Subsides s (execCancelDeparture p params s) := by
  refine .next (s.transact_subsides _ _ _ _ ?_)
  split
  · exact .refl s
  · split
    · exact .refl s
    · split
      · exact .refl s
      · exact s.cancelDeparture_subsides _

theorem execProfileEntryTake_subsides (b : Byte) : Outcome.Subsides s (execProfileEntryTake p b s) := by
  refine .next ?_
  split
  · split
    · exact (s.takeProfile_subsides _ _).trans (State.setPort_subsides _ _ _)
    · exact s.setPort_subsides _ _
  · exact .refl s

theorem execScheduleEntryTake_subsides (b : Byte) : Outcome.Subsides s (execScheduleEntryTake p b s) := by
  refine .next ?_
  split
  · split
    · exact (s.takeEntry_subsides _ _).trans (State.setPort_subsides _ _ _)
    · exact s.setPort_subsides _ _
  · exact .refl s

theorem execDraw_subsides : Outcome.Subsides s (execDraw p params s) := by
  refine .next (s.transact_subsides _ _ _ _ ?_)
  split
  · split
    · exact .refl s
    · split
      · exact .refl s
      · exact s.drawPack_subsides _ _
  · exact .refl s

theorem execCancelDraw_subsides : Outcome.Subsides s (execCancelDraw p params s) := by
  refine .next (s.transact_subsides _ _ _ _ ?_)
  split
  · exact .refl s
  · dsimp only
    split
    · exact (s.accessDrawn_subsides _).trans (State.cancelDrawOf_subsides _ _)
    · exact s.accessDrawn_subsides _

theorem execQuarantine_subsides : Outcome.Subsides s (execQuarantine p params s) := by
  refine .next (s.slotCommand_subsides _ _ _ _ fun i t => ?_)
  split
  · exact .refl t
  · exact .refl t
  · exact t.enterQuarantine_subsides i _

theorem execRelease_subsides : Outcome.Subsides s (execRelease p params s) := by
  refine .next (s.slotCommand_subsides _ _ _ _ fun i t => ?_)
  split
  · exact t.releaseQuarantine_subsides i
  · exact .refl t

theorem execForget_subsides : Outcome.Subsides s (execForget p params s) := by
  refine .next (s.slotCommand_subsides _ _ _ _ fun i t => ?_)
  split
  · exact t.forgetRecord_subsides i
  · exact .refl t

theorem execScanComplete_subsides : Outcome.Subsides s (execScanComplete s) := by
  unfold execScanComplete
  split
  · exact .next s.endScan_subsides
  · exact .next (s.scanAfterReset_subsides.trans (State.endScan_subsides _))
  · exact .next (.refl s)

theorem execTimebaseSecond_subsides (upsets : List (SlotId × Upset)) : Outcome.Subsides s (execTimebaseSecond upsets s) := by
  have struck : Subsides s (upsets.foldl State.sufferUpset s) := by
    obtain ⟨checks, struck, -⟩ := State.sufferUpsets_eq upsets s
    rw [struck]
    exact .ofSame rfl
  refine .next ?_
  split
  · exact struck.trans (State.tick_subsides _)
  · exact struck

theorem execClockMinuteChange_subsides : Outcome.Subsides s (execClockMinuteChange s) := by
  refine .next ?_
  split
  · exact s.changeMinute_subsides _
  · exact .refl s

theorem execUnknownCode_subsides (code : Byte) : Outcome.Subsides s (execUnknownCode p code s) := by
  unfold execUnknownCode
  split
  · intro t e
    cases e
  · exact .next (s.setPort_subsides _ _)

end

/-- The commands and events that release pending increases. -/
def releasing (c : Instr) : Prop :=
  (∃ p params, c = .report p params ∨ c = .grantAck p params) ∨ c = .allocationPass ∨ c = .allocationPeriodExpiry ∨
    ∃ b, c = .confirmTimerExpiry b

/-- Outside the releases no command and no event raises a grant or an allowance power. -/
theorem exec_subsides (c : Instr) (s : State) : releasing c ∨ Outcome.Subsides s (exec c s) := by
  cases c with
  | powerOn straps => exact .inr (.next (.ofReset rfl))
  | hardReset straps => exact .inr (.next (.ofReset rfl))
  | hardResetEnd => exact .inr (.next (by split; exacts [.ofSame rfl, .refl s]))
  | scanComplete => exact .inr (execScanComplete_subsides s)
  | unknownCode p code => exact .inr (execUnknownCode_subsides p s code)
  | shortTransaction p => exact .inr (.next (s.setPort_subsides _ _))
  | identify p => exact .inr (.next (s.setPort_subsides _ _))
  | readNotices p => exact .inr (.read rfl)
  | ackNotices p params => exact .inr (.next (s.transact_subsides _ _ _ _ (s.setPort_subsides _ _)))
  | setNoticeMask p params => exact .inr (execSetNoticeMask_subsides p params s)
  | readBaySummary p => exact .inr (.next (s.transact_subsides _ _ _ _ (s.setPort_subsides _ _)))
  | readPack p params => exact .inr (execReadPack_subsides p params s)
  | readGroup p params => exact .inr (execReadGroup_subsides p params s)
  | readMarks p => exact .inr (.read rfl)
  | readBay p params => exact .inr (execReadBay_subsides p params s)
  | readSupply p => exact .inr (.next (s.transact_subsides _ _ _ _ (s.setPort_subsides _ _)))
  | readDeparture p params => exact .inr (execReadDeparture_subsides p params s)
  | readCounters p => exact .inr (.read rfl)
  | readQueue p params => exact .inr (execReadQueue_subsides p params s)
  | readClock p => exact .inr (.read rfl)
  | readRecall p params => exact .inr (execReadRecall_subsides p params s)
  | dock p params => exact .inr (execDock_subsides p params s)
  | undock p params => exact .inr (execUndock_subsides p params s)
  | report p params => exact .inl (.inl ⟨p, params, .inl rfl⟩)
  | grantAck p params => exact .inl (.inl ⟨p, params, .inr rfl⟩)
  | clearFault p params => exact .inr (execClearFault_subsides p params s)
  | readGrants p => exact .inr (.read rfl)
  | setClock p params => exact .inr (execSetClock_subsides p params s)
  | setSupply p params => exact .inr (execSetSupply_subsides p params s)
  | otherLoad p params => exact .inr (.next (s.transact_subsides _ _ _ _ (s.takeReading_subsides _)))
  | hold p => exact .inr (execHold_subsides p s)
  | resume p => exact .inr (execResume_subsides p s)
  | setZone p params => exact .inr (execSetZone_subsides p params s)
  | zoneOn p => exact .inr (execZoneOn_subsides p s)
  | zoneOff p => exact .inr (execZoneOff_subsides p s)
  | setSite p params => exact .inr (.next (s.transact_subsides _ _ _ _ (s.setSite_subsides _)))
  | setWindow p params => exact .inr (execSetWindow_subsides p params s)
  | tableWrite p => exact .inr (execTableWrite_subsides p s)
  | profileEntryTake p b => exact .inr (execProfileEntryTake_subsides p s b)
  | scheduleEntryTake p b => exact .inr (execScheduleEntryTake_subsides p s b)
  | tableRead p part => exact .inr (execTableRead_subsides p s part)
  | addDeparture p params => exact .inr (execAddDeparture_subsides p params s)
  | cancelDeparture p params => exact .inr (execCancelDeparture_subsides p params s)
  | draw p params => exact .inr (execDraw_subsides p params s)
  | cancelDraw p params => exact .inr (execCancelDraw_subsides p params s)
  | quarantine p params => exact .inr (execQuarantine_subsides p params s)
  | release p params => exact .inr (execRelease_subsides p params s)
  | forget p params => exact .inr (execForget_subsides p params s)
  | latchCounters p => exact .inr (.next (s.transact_subsides _ _ _ _ s.latch_subsides))
  | softReset p => exact .inr (.next (s.transact_subsides _ _ _ _ s.softReset_subsides))
  | timebaseSecond upsets => exact .inr (execTimebaseSecond_subsides s upsets)
  | clockMinuteChange => exact .inr (execClockMinuteChange_subsides s)
  | scrubVisit => exact .inr (.whenDue _ ((s.access_subsides s.scrub).trans (.ofSame rfl)))
  | reportTimeoutSilent b => exact .inr (.whenDue _ (s.becomeSilent_subsides b))
  | lostTimeout b => exact .inr (.whenDue _ (s.becomeLost_subsides b))
  | stallHoldEnd b => exact .inr (.whenDue _ (s.endStallHold_subsides b))
  | equaliseEnd b => exact .inr (.whenDue _ (s.endEqualise_subsides b))
  | restEnd b => exact .inr (.whenDue _ (s.endRest_subsides b))
  | confirmTimerExpiry b => exact .inl (.inr (.inr (.inr ⟨b, rfl⟩)))
  | meterStale => exact .inr (.whenDue _ ((s.resupply_subsides _).trans (State.notify_subsides _ _ _)))
  | windDownEnd => exact .inr (.whenDue _ ((s.resupply_subsides _).trans (State.notify_subsides _ _ _)))
  | rampEnd => exact .inr (.whenDue _ s.endRamp_subsides)
  | allocationPeriodExpiry => exact .inl (.inr (.inr (.inl rfl)))
  | allocationPass => exact .inl (.inr (.inl rfl))
  | planningPass => exact .inr (.whenDue _ s.plan_subsides)
  | tableWriteStreamEnd p => exact .inr (execTableWriteStreamEnd_subsides p s)

/-! ### Releases -/

theorem State.totalPower_mono {s t : State} (h : ∀ a, (t.bay a).power ≤ (s.bay a).power) : t.totalPower ≤ s.totalPower :=
  List.sum_le_sum fun a _ => h a

theorem Evolves.budget {s t : State} (h : Evolves s t) : t.budget = s.budget := by
  unfold State.budget
  rw [h.frame.supply, h.frame.site]

/-- The budget figure stands, and where a grant rises, or the allowance power of a bay that is not free, the total allowance power is
within it. -/
structure SpendsWithin (free : Option BayId) (s t : State) : Prop where
  budget : t.budget = s.budget
  within : ((∀ a, (t.bay a).grant ≤ (s.bay a).grant) ∧ ∀ a, free ≠ some a → (t.bay a).power ≤ (s.bay a).power) ∨ t.withinBudget

theorem Subsides.spends {s t : State} (h : Subsides s t) (budget : t.budget = s.budget) {free : Option BayId} :
    SpendsWithin free s t := ⟨budget, .inl ⟨h.grant, fun a _ => h.power a⟩⟩

theorem SpendsWithin.refl (free : Option BayId) (s : State) : SpendsWithin free s s := (Subsides.refl s).spends rfl

/-- A write of the free bay that raises no grant. -/
theorem SpendsWithin.ofBay (s : State) {b : BayId} {y : Bay} (grant : y.grant ≤ (s.bay b).grant) :
    SpendsWithin (some b) s (s.setBay b y) := by
  refine ⟨rfl, .inl ⟨fun a => ?_, fun a other => ?_⟩⟩
  · rw [State.setBay_bay]
    split
    · rename_i own
      exact own ▸ grant
    · exact le_refl _
  · rw [State.setBay_bay, if_neg fun own => other (congrArg some own.symm)]

/-- What raises the power of no bay keeps the total within the budget. -/
theorem SpendsWithin.keeps {s t : State} (h : SpendsWithin none s t) (before : s.withinBudget) : t.withinBudget := by
  rcases h.within with ⟨-, power⟩ | within
  · rw [State.withinBudget, h.budget]
    exact (State.totalPower_mono fun a => power a nofun).trans before
  · exact within

theorem SpendsWithin.trans {free : Option BayId} {s t u : State} (h : SpendsWithin free s t) (g : SpendsWithin none t u) :
    SpendsWithin free s u := by
  refine ⟨g.budget.trans h.budget, ?_⟩
  rcases h.within with ⟨grant, power⟩ | within
  · refine g.within.imp_left fun ⟨grants, powers⟩ => ⟨fun a => (grants a).trans (grant a), fun a other => ?_⟩
    exact (powers a nofun).trans (power a other)
  · exact .inr (g.keeps within)

/-- A step that raises nothing, before one that spends within. -/
theorem Subsides.before {free : Option BayId} {s t u : State} (h : Subsides s t) (budget : t.budget = s.budget)
    (g : SpendsWithin free t u) : SpendsWithin free s u :=
  ⟨g.budget.trans budget, g.within.imp_left fun ⟨grant, power⟩ =>
    ⟨fun a => (grant a).trans (h.grant a), fun a other => (power a other).trans (h.power a)⟩⟩

/-- A single release fits the budget figure, or does not happen (R129, steps 2 to 4). -/
theorem State.releaseOne_spends (s : State) (x : Increase) : SpendsWithin none s (s.releaseOne x) := by
  cases value : s.releaseValue x with
  | none =>
    rw [State.releaseOne_of_none value]
    exact .refl none s
  | some v =>
    rw [State.releaseOne_of_some value]
    have fits := (s.releaseFits_iff x.bay v).1 (s.releaseValue_spec x v value).2
    refine ⟨rfl, .inr ?_⟩
    have others : ((allBays.filter fun a => a != x.bay).map fun a => ((s.setBay x.bay (s.raisedTo x.bay v)).bay a).power) =
        (allBays.filter fun a => a != x.bay).map fun a => (s.bay a).power := by
      refine List.map_congr_left fun a mem => ?_
      have other : a ≠ x.bay := by simpa using (List.mem_filter.1 mem).2
      rw [State.setBay_bay, if_neg other]
    change (s.setBay x.bay (s.raisedTo x.bay v)).totalPower ≤ s.budget
    rw [State.totalPower_split _ x.bay, others, State.setBay_bay_self, Nat.add_comm]
    exact fits

theorem State.releaseAll_spends (l : List Increase) (s : State) : SpendsWithin none s (l.foldl State.releaseOne s) := by
  induction l generalizing s with
  | nil => exact .refl none s
  | cons x l ih => exact (s.releaseOne_spends x).trans (ih _)

theorem State.releaseIfResolved_spends (s : State) : SpendsWithin none s s.releaseIfResolved := by
  have emptied (t : State) : Subsides t { t with pendingList := [] } := .ofSame rfl
  unfold State.releaseIfResolved
  split
  · exact (State.releaseAll_spends s.pendingList s).trans ((emptied _).spends rfl)
  · exact .refl none s

/-- A confirmation computes the power of its own bay anew, and may release (R123, R129). -/
theorem State.confirm_spends (s : State) (b : BayId) : SpendsWithin (some b) s (s.confirm b) := by
  have confirmed : SpendsWithin (some b) s (s.setBay b (s.confirmedBay b)) := .ofBay s (le_refl _)
  cases marked : (s.bay b).reduction with
  | true =>
    rw [State.confirm_of_reduction marked]
    exact confirmed.trans (State.releaseIfResolved_spends _)
  | false =>
    rw [State.confirm_of_no_reduction marked]
    split
    · exact confirmed
    · exact .refl _ s

theorem State.setOverdrawStreak_subsides (s : State) (b : BayId) (n : Nat) : Subsides s (s.setOverdrawStreak b n) :=
  s.modBay_subsides b _ (le_refl _) (le_refl _)

theorem State.overdrawn_spends (s : State) (b : BayId) (c : Nat) : SpendsWithin (some b) s (s.overdrawn b c) := by
  have allowed (t : State) : SpendsWithin (some b) t (t.raiseAllowance b c) := by
    unfold State.raiseAllowance
    split
    · exact (SpendsWithin.ofBay t (b := b) (y := { t.bay b with allowance := upTo5 c, power := t.powerOf b (upTo5 c) })
        (le_refl _)).trans ((State.notify_subsides _ _ _).spends rfl)
    · exact .refl _ t
  unfold State.overdrawn
  split
  · exact (s.setOverdrawStreak_subsides b _).spends rfl
  · exact (s.count_subsides b _).before (s.count_evolves b _).budget
      ((allowed _).trans ((State.setOverdrawStreak_subsides _ b _).spends rfl))

theorem State.compareCurrent_spends (s : State) (b : BayId) (c : Nat) : SpendsWithin (some b) s (s.compareCurrent b c) := by
  by_cases within : c ≤ (s.bay b).grant + tolerance (s.bay b).grant
  · rw [State.compareCurrent_within within]
    exact (s.confirm_spends b).trans ((State.setOverdrawStreak_subsides _ b _).spends rfl)
  · rw [State.compareCurrent_above within]
    exact s.overdrawn_spends b c

/-- Of the steps of a report the comparison alone raises anything (R51, R123). -/
theorem State.takeReport_spends (s : State) (b : BayId) (l : LastReport) (c : Bool) :
    SpendsWithin (some b) s (s.takeReport b l c) := by
  have normal (t : State) : Subsides t ((t.recordReport b l c).returnToNormal b) :=
    (t.recordReport_subsides b l c).trans (State.returnToNormal_subsides _ b)
  have rest (t : State) (u : Bool) : SpendsWithin none t
      ((((t.creditCharge b l.current l.interval).trackBand b l.temperature).moveStage b l u).supervise b l) :=
    Subsides.spends ((((t.creditCharge_subsides b _ _).trans (State.trackBand_subsides _ b _)).trans
      (State.moveStage_subsides _ b l u)).trans (State.supervise_subsides _ b l))
      ((((t.creditCharge_evolves b _ _).trans (State.trackBand_evolves _ b _)).trans
      (State.moveStage_evolves _ b l u)).trans (State.supervise_evolves _ b l)).budget
  exact ((normal s).before ((s.recordReport_evolves b l c).trans (State.returnToNormal_evolves _ b)).budget
    (State.compareCurrent_spends _ b _)).trans (rest _ _)

theorem State.timeOut_spends (s : State) (b : BayId) : SpendsWithin none s (s.timeOut b) := by
  have released := (s.gaveUp b).releaseIfResolved_spends
  have budget : (s.gaveUp b).budget = s.budget := released.budget.symm.trans (s.timeOut_evolves b).budget
  have faulted (t : State) : Subsides t (t.faultUnconfirmed b) := by
    have barred := t.changeBay_subsides b (fun x => { x with inhibits := addFlag x.inhibits Inhibit.fault.bit, grant := 0 })
      (Nat.zero_le _) (le_refl _)
    unfold State.faultUnconfirmed
    dsimp only
    split
    · exact (barred.notify _ _).notify _ _
    · exact barred.notify _ _
  have cleared := (s.count_subsides b .confirmTimeout).trans
    (State.modBay_subsides _ b (fun x => { x with reduction := false, confirmTimer := none }) (le_refl _) (le_refl _))
  have gave : Subsides s (s.gaveUp b) := by
    unfold State.gaveUp
    dsimp only
    split
    · exact cleared
    · exact cleared.trans (faulted _)
  exact gave.before budget released

/-- A pass lowers grants, and then releases (R122, R129). -/
theorem State.allocate_spends (s : State) : SpendsWithin none s s.allocate := by
  have released := s.passAimed.releaseIfResolved_spends
  have budget : s.passAimed.budget = s.budget := by
    rw [s.passAimed_aimed.frame]
    rfl
  have start : Subsides s s.passStart := .ofSame rfl
  have aimed (t : State) (x : Target) : Subsides t (t.applyTarget x) := by
    unfold State.applyTarget
    split
    · split
      · exact .ofSame rfl
      · exact t.lower_subsides _ _
    · exact .refl t
  exact (start.trans (.foldl _ aimed s.targets _)).before budget released

/-! ### The commands and events that release -/

theorem State.transact_spends {free : Option BayId} (s : State) (p : PortId) (row : CommandRow) (params : List Byte) (act : State → Reply)
    (h : SpendsWithin free s (act s).state) : SpendsWithin free s (s.transact p row params act) := by
  rcases s.transact_cases p row params act with ⟨-, taken⟩ | ⟨r, after, refused⟩
  · rw [taken]
    exact h.trans ((State.setPort_subsides _ _ _).spends rfl)
  · rw [refused]
    exact (s.setPort_subsides _ _).spends rfl

/-- A cluster command that spends within, its own bay free. -/
theorem State.clusterCommand_spends (s : State) (p : PortId) (row : CommandRow) (params : List Byte) (act : BayId → State → Reply)
    (h : ∀ b, SpendsWithin (some b) s (act b s).state) :
    SpendsWithin (s.localBay p (byteAt params 0)) s (s.clusterCommand p row params act) := by
  refine s.transact_spends p row params _ ?_
  cases named : s.localBay p (byteAt params 0) with
  | none => exact .refl none s
  | some b => exact h b

section
variable (p : PortId) (params : List Byte) (s : State)

theorem execReport_spends :
    Outcome.Within (SpendsWithin (s.localBay p (byteAt params 0))) s (execReport p params s) := by
  refine .next (s.clusterCommand_spends p rowReport params _ fun b => ?_)
  split
  · exact s.compareCurrent_spends b _
  · exact (s.accessDocked_subsides b).before (s.accessDocked_evolves b).budget (State.takeReport_spends _ b _ _)

theorem execGrantAck_spends :
    Outcome.Within (SpendsWithin (s.localBay p (byteAt params 0))) s (execGrantAck p params s) := by
  refine .next (s.clusterCommand_spends p rowGrantAck params _ fun b => ?_)
  split
  · exact s.confirm_spends b
  · exact .refl _ s

end

theorem execAllocationPass_spends (s : State) : Outcome.Within (SpendsWithin none) s (execAllocationPass s) :=
  .whenDue _ s.allocate_spends (.refl none s)

theorem execAllocationPeriodExpiry_spends (s : State) : Outcome.Within (SpendsWithin none) s (execAllocationPeriodExpiry s) := by
  have restarted (t : State) (n : Option Nat) : Subsides t { t with periodTimer := n } := .ofSame rfl
  exact .whenDue _ (s.allocate_spends.trans ((restarted _ _).spends rfl)) (.refl none s)

theorem execConfirmTimerExpiry_spends (b : BayId) (s : State) : Outcome.Within (SpendsWithin none) s (execConfirmTimerExpiry b s) :=
  .whenDue _ (s.timeOut_spends b) (.refl none s)

/-- Whatever releases spends within the budget, some bay free. -/
theorem releasing.spends {c : Instr} (h : releasing c) (s : State) : ∃ free, Outcome.Within (SpendsWithin free) s (exec c s) := by
  rcases h with ⟨p, params, rfl | rfl⟩ | rfl | rfl | ⟨b, rfl⟩
  · exact ⟨_, execReport_spends p params s⟩
  · exact ⟨_, execGrantAck_spends p params s⟩
  · exact ⟨_, execAllocationPass_spends s⟩
  · exact ⟨_, execAllocationPeriodExpiry_spends s⟩
  · exact ⟨_, execConfirmTimerExpiry_spends b s⟩

/-- A grant rises at a release alone, and the total allowance power is then within the budget figure. -/
theorem exec_grant_rises {c : Instr} {s t : State} (taken : exec c s = .next t) {a : BayId}
    (rises : (s.bay a).grant < (t.bay a).grant) : t.withinBudget ∧ releasing c := by
  rcases exec_subsides c s with h | subsides
  · obtain ⟨free, spends⟩ := h.spends s
    refine ⟨(spends t taken).within.resolve_left fun ⟨grant, _⟩ => ?_, h⟩
    exact absurd rises (grant a).not_gt
  · exact absurd rises ((subsides t taken).grant a).not_gt

/-- The power of a bay that is not free rises only where the total is within the budget figure. -/
theorem SpendsWithin.power_rises {free : Option BayId} {s t : State} (h : SpendsWithin free s t) {a : BayId} (other : free ≠ some a)
    (rises : (s.bay a).power < (t.bay a).power) : t.withinBudget :=
  h.within.resolve_left fun ⟨_, power⟩ => absurd rises (power a other).not_gt

theorem SpendsWithin.totalPower {s t : State} (h : SpendsWithin none s t) : t.totalPower ≤ max s.totalPower s.budget := by
  rcases h.within with ⟨-, power⟩ | within
  · exact (State.totalPower_mono fun a => power a nofun).trans (le_max_left _ _)
  · exact le_max_of_le_right (h.budget ▸ within)

end Sys2Proof.Machine

open Sys2Proof Sys2Proof.Machine

/-- Settles O53: outside the releases nothing rises (exec_subsides), and a release spends within the budget (SpendsWithin). -/
theorem releasesKeepTheBudget : Obligations.ReleasesKeepTheBudget := by
  refine ⟨fun c s t taken a rises => exec_grant_rises taken rises, fun p params s t b named taken => ?_, fun s t b taken => ?_⟩
  · have spends : SpendsWithin (some b) s t := by
      rw [← named]
      exact taken.elim (execReport_spends p params s t) (execGrantAck_spends p params s t)
    exact ⟨spends.budget, fun a other => spends.power_rises fun same => other (Option.some.inj same).symm⟩
  · have spends : SpendsWithin none s t := by
      rcases taken with pass | period | timeout
      · exact execAllocationPass_spends s t pass
      · exact execAllocationPeriodExpiry_spends s t period
      · exact execConfirmTimerExpiry_spends b s t timeout
    exact ⟨spends.budget, spends.totalPower, spends.keeps, fun a => spends.power_rises nofun⟩
end

section
/-!
The planning pass of its own (R142 to R149): windows and seconds to departure in whole numbers, the settlement by its window, and the
projection of a pack by the band of its bay. The pass itself is State.PlannedTo, as at a minute change.
-/

namespace Sys2Proof.Machine

/-! ### Windows and seconds to departure (R111, R142) -/

theorem State.planDue_iff (s : State) : s.planDue = true ↔
    s.phase = .running ∧ s.planMark = true ∧ s.clock ≠ none ∧ s.minuteDue = none := by
  simp [State.planDue, and_assoc, Option.isSome_iff_ne_none]

theorem State.windowOf_none {s : State} {e : EntryId} (absent : s.clock = none ∨ (s.entry e).valid = false) : s.windowOf e = none := by
  unfold State.windowOf
  rcases absent with unset | invalid
  · rw [unset]
  · rw [invalid]
    cases s.clock <;> rfl

theorem State.windowOf_valid {s : State} {e : EntryId} {c : Clock} (clock : s.clock = some c) (valid : (s.entry e).valid = true) :
    s.windowOf e = some ((s.entry e).windowAt s.site c.minute) := by
  unfold State.windowOf
  rw [clock]
  exact if_pos valid

/-- The windows at a minute are those of R142. -/
theorem Entry.windowAt_standsIn (x : Entry) (site : Site) (m : Nat) : x.standsIn site m (x.windowAt site m) := by
  unfold Entry.standsIn Entry.windowAt Entry.timeSince Entry.timeTo
  simp only [← weekMinutes_eq, Nat.cast_le, Nat.cast_lt]
  refine ⟨fun due => if_pos due, fun past near => ?_, fun past far => ?_⟩
  · rw [if_neg past.not_ge, if_pos near]
  · rw [if_neg past.not_ge, if_neg far.not_ge]

theorem Entry.secondsTo_departsIn (x : Entry) (site : Site) (c : Clock) : x.departsIn site c (x.secondsTo site c) := by
  rw [Entry.secondsTo_eq]
  exact ⟨fun due => if_pos due, fun past => if_neg past.not_ge⟩

theorem State.departureIn_of_clock {s : State} {c : Clock} (clock : s.clock = some c) (e : EntryId) :
    s.departureIn e = (s.entry e).secondsTo s.site c := by
  unfold State.departureIn
  rw [clock]

/-! ### Settlement by the window (R144) -/

/-- A valid entry OUTSIDE its windows, field by field as R144 settles it. -/
theorem Entry.settled_eq (x : Entry) : x.settled = { x with
    status := match x.status with
      | .planned | .short | .late => .missed
      | .served | .missed => if x.weekly then x.status else .finished
      | other => other
    reserved := match x.status with
      | .planned | .short | .late => none
      | _ => x.reserved
    renewal := x.renewal || (x.weekly && x.status != .called && x.status != .finished) } := by
  obtain ⟨valid, weekly, sweeper, minute, profile, required, status, reserved, renewal⟩ := x
  cases status <;> cases weekly <;> cases renewal <;> rfl

theorem Entry.renewed_eq (x : Entry) : x.renewed =
    if x.weekly = true ∧ x.renewal = true ∧ x.status ≠ .called then { x with status := .idle, renewal := false } else x := by
  unfold Entry.renewed
  simp only [Bool.and_eq_true, bne_iff_ne, and_assoc]

/-- A missed entry is MISSED once settled (R144). -/
theorem State.misses.settled {s : State} {e : EntryId} (missed : s.misses e) : (s.settledEntry e).status = .missed := by
  have becomes := (s.becomesMissed_iff e).2 missed
  unfold State.becomesMissed at becomes
  rw [Bool.and_eq_true, beq_iff_eq] at becomes
  exact becomes.1

/-! ### Projections (R32, R146, R147) -/

/-- The lowest place with a property, found from the front. -/
theorem find?_finRange_eq_some {n : Nat} {ok : Fin n → Bool} {i : Fin n} :
    (List.finRange n).find? ok = some i ↔ ok i = true ∧ ∀ j, j < i → ok j = false := by
  refine ⟨fun found => ?_, fun ⟨holds, least⟩ => find?_finRange_of_least holds least⟩
  obtain ⟨holds, k, inside, here, before⟩ := List.find?_eq_some_iff_getElem.1 found
  refine ⟨holds, fun j earlier => ?_⟩
  rw [List.getElem_finRange] at here
  subst here
  simpa using before j.val earlier

/-- The warm-up factor of a band is that of the lowest band above it with a factor above 0 (R32). -/
theorem Profile.warmUp_iff (pr : Profile) (k : Fin 6) (f : Nat) : pr.warmUp k = some f ↔
    ∃ j, k < j ∧ f = pr.factor j ∧ 0 < f ∧ ∀ m, k < m → m < j → pr.factor m = 0 := by
  unfold Profile.warmUp
  simp only [Option.map_eq_some_iff, find?_finRange_eq_some, Bool.and_eq_true, decide_eq_true_eq, Bool.and_eq_false_iff,
    decide_eq_false_iff_not]
  constructor
  · rintro ⟨j, ⟨⟨above, warms⟩, cold⟩, rfl⟩
    exact ⟨j, above, rfl, warms, fun m later earlier => by simpa using (cold m earlier).resolve_left (not_not.2 later)⟩
  · rintro ⟨j, above, rfl, warms, cold⟩
    refine ⟨j, ⟨⟨above, warms⟩, fun m earlier => ?_⟩, rfl⟩
    by_cases later : k < m
    · exact .inr (by simp [cold m later earlier])
    · exact .inl later

/-- The seconds that a pack short of its charge is projected to need (R147): those at its band's factor f, or at the warm-up factor with
the 45 minutes of a warm-up added. -/
theorem projectedSeconds_iff (pr : Profile) (k : Fin 6) (need n : Nat) : projectedSeconds pr k need = some n ↔
    ∃ f, (pr.factor k ≠ 0 → f = pr.factor k) ∧ (pr.factor k = 0 → pr.warmUp k = some f) ∧
      pr.minCurrent ≤ pr.maxCurrent * f / 100 ∧
      n = ceilDiv (need * 360000) (pr.maxCurrent * f / 100 * pr.acceptance) + if pr.factor k = 0 then 2700 else 0 := by
  unfold projectedSeconds
  dsimp only
  by_cases cold : pr.factor k = 0
  · simp only [cold, ne_eq, not_true_eq_false, false_implies, true_and, true_implies]
    cases pr.warmUp k with
    | none => simp
    | some f => simp [eq_comm]
  · simp only [cold, ne_eq, not_false_eq_true, true_implies, false_implies, true_and, exists_eq_left]
    simp [eq_comm]

/-- A slot's pack is a candidate as R146 says, with its projected time (R147). -/
theorem State.projection_iff (s : State) (e : EntryId) (i : SlotId) (n : Nat) : s.projection e i = some n ↔
    ((s.record i).lifecycle = .docked ∨ (s.record i).lifecycle = .ready) ∧ (s.record i).profile.val = (s.entry e).profile ∧
      (s.profile (s.record i).profile).valid = true ∧ ∃ b, (s.record i).bay = some b ∧ (s.bay b).carries .fault = false ∧
        if (s.record i).lifecycle = .ready ∨ (s.entry e).requiredCharge (s.record i).capacity ≤ (s.record i).estimate then n = 0
        else projectedSeconds (s.profile (s.record i).profile) (s.bay b).band
          ((s.entry e).requiredCharge (s.record i).capacity - (s.record i).estimate) = some n := by
  unfold State.projection
  dsimp only
  by_cases held : (s.record i).lifecycle = .docked ∨ (s.record i).lifecycle = .ready
  · by_cases profile : (s.record i).profile.val = (s.entry e).profile
    · cases valid : (s.profile (s.record i).profile).valid with
      | false => simp
      | true =>
        rw [if_neg (by simpa [profile, or_iff_not_imp_left] using held)]
        cases bay : (s.record i).bay with
        | none => simp
        | some b =>
          cases fault : (s.bay b).carries .fault with
          | true => simp [fault]
          | false =>
            simp only [Bool.false_eq_true, if_false, Bool.or_eq_true, beq_iff_eq, decide_eq_true_eq, held, profile, fault, true_and,
              Option.some.injEq, exists_eq_left']
            split
            · rw [Option.some.injEq, eq_comm]
            · rfl
    · simp [profile]
  · have out : (!((s.record i).lifecycle == .docked || (s.record i).lifecycle == .ready)) = true := by simpa using held
    simp [out, held]

end Sys2Proof.Machine

open Sys2Proof Sys2Proof.Machine

/-- Settles O54: the pass is the one of State.sound.plan_plannedTo, and every pack it reserves was projected (State.projection_iff). -/
theorem planningReservationsAgree : Obligations.PlanningReservationsAgree := by
  unfold Obligations.PlanningReservationsAgree
  intro s
  refine ⟨fun idle => ?_, fun running asked set noMinute sound => ?_, fun e => ⟨State.windowOf_none, fun c clock valid => ?_⟩,
    fun e => ?_, fun e i n => ?_⟩
  · refine congrArg Host.Outcome.next (if_neg (s.planDue_iff.not.2 ?_))
    rintro ⟨running, asked, set, noMinute⟩
    simp [running, asked, set, noMinute] at idle
  · have planned := sound.plan_plannedTo
    refine ⟨s.plan, congrArg Host.Outcome.next (if_pos (s.planDue_iff.2 ⟨running, asked, set, noMinute⟩)), planned, fun e i held => ?_,
      fun e missed => ?_⟩
    · obtain ⟨-, offered⟩ := s.settledPlan.picks_distinct s.settledPlan.planOrder s.settledPlan.planOrder_nodup
      obtain ⟨n, time⟩ := offered _ ((sound.plan_reserves.reserved e i).1 held)
      rw [s.settledPlan_plansAs.projection] at time
      obtain ⟨lifecycle, profile, valid, b, bay, fault, -⟩ := (s.projection_iff e i n).1 time
      exact ⟨lifecycle, profile, valid, b, bay, fault⟩
    · obtain ⟨order, plans, away, -⟩ := planned.planned
      obtain ⟨free, status⟩ := away e fun placed => by
        obtain ⟨inside, -⟩ := (plans.2 e).1 placed
        rw [missed.1] at inside
        simp at inside
      exact ⟨status.trans missed.settled, free⟩
  · refine ⟨⟨_, State.windowOf_valid clock valid, Entry.windowAt_standsIn _ _ _⟩, ?_, weekMinutes_eq _ _, weekMinutes_eq _ _⟩
    rw [State.departureIn_of_clock clock]
    exact Entry.secondsTo_departsIn _ _ _
  · unfold State.settledEntry
    cases s.windowOf e with
    | none => rfl
    | some w =>
      cases w with
      | outside => exact (s.entry e).settled_eq
      | due => exact (s.entry e).renewed_eq
      | active => exact (s.entry e).renewed_eq
  · rw [State.projection_iff]
    simp only [projectedSeconds_iff, Profile.warmUp_iff]
    rfl

end

section
/-!
Departure entries written (R137 to R140, R150): on a sound roster a take, an addition and a cancel each put one entry in its place, and
clear the reservation that stood there on both sides.
-/

namespace Sys2Proof.Machine

/-! ### A reservation cleared with its entry (R150) -/

/-- The records without the reservation of the slot that an entry reserves (R150). -/
def State.recordsWithout (s : State) (o : Option SlotId) : Vector PackRecord 64 :=
  match o with
  | some i => s.records.set i { s.record i with reservation := none }
  | none => s.records

theorem State.recordsWithout_get (s : State) (o : Option SlotId) (i : SlotId) :
    (s.recordsWithout o)[i] = if o = some i then { s.record i with reservation := none } else s.record i := by
  cases o with
  | none => rfl
  | some j =>
    refine (get_set _ _ _ _).trans ?_
    by_cases same : i = j
    · subst same
      rw [if_pos rfl, if_pos rfl]
    · rw [if_neg same, if_neg (by simpa using Ne.symm same)]
      rfl

/-- Entry e written as x: its reservation cleared on both sides, the requests of R150, and a planning pass requested. -/
def State.rewritten (s : State) (e : EntryId) (x : Entry) (draws : Vector (Option Draw) 64) (ports : Vector Port 6) : State :=
  { s with
    entries := s.entries.set e x, records := s.recordsWithout (s.entry e).reserved
    passMark := s.passMark || (s.entry e).reserved.isSome, planMark := true, draws := draws, ports := ports }

/-- What every write of entry e leaves outside the entry, the draws and the ports (R150). -/
def State.Unreserves (s : State) (e : EntryId) (t : State) : Prop :=
  (∀ i, t.record i = if (s.entry e).reserved = some i then { s.record i with reservation := none } else s.record i) ∧
    t.passMark = (s.passMark || (s.entry e).reserved.isSome) ∧ t.planMark = true ∧
    (∀ f, f ≠ e → t.entry f = s.entry f) ∧ t.bays = s.bays ∧ t.profiles = s.profiles ∧ t.readyQueues = s.readyQueues

section
variable (s : State) (e : EntryId) (x : Entry) (draws : Vector (Option Draw) 64) (ports : Vector Port 6)

theorem State.rewritten_entry (f : EntryId) : (s.rewritten e x draws ports).entry f = if f = e then x else s.entry f :=
  get_set _ _ _ _

theorem State.rewritten_unreserves : s.Unreserves e (s.rewritten e x draws ports) :=
  ⟨s.recordsWithout_get _, rfl, rfl, fun f other => (s.rewritten_entry e x draws ports f).trans (if_neg other), rfl, rfl, rfl⟩

end

/-- The end of the transaction that wrote an entry changes its port alone. -/
theorem State.rewritten_atPort {s t : State} {e : EntryId} {x : Entry} {draws : Vector (Option Draw) 64} {ports : Vector Port 6}
    (written : t = s.rewritten e x draws ports) (p : PortId) (y : Port) :
    s.Unreserves e (t.setPort p y) ∧ (t.setPort p y).entry e = x := by
  subst written
  exact ⟨s.rewritten_unreserves e x draws (ports.set p y), (s.rewritten_entry e x draws (ports.set p y) e).trans (if_pos rfl)⟩

/-- An entry's reservation cleared on a sound roster, where the access corrects nothing (R17, R150). -/
theorem State.sound.unreserve {s : State} (h : s.sound) (e : EntryId) : ∃ ports, s.unreserve e = { s with
    entries := s.entries.set e { s.entry e with reserved := none }
    records := s.recordsWithout (s.entry e).reserved
    passMark := s.passMark || (s.entry e).reserved.isSome
    planMark := s.planMark || (s.entry e).reserved.isSome, ports := ports } := by
  unfold State.unreserve
  cases held : (s.entry e).reserved with
  | some i =>
    obtain ⟨ports, dropped⟩ := s.dropReservation_eq e i
    refine ⟨ports, ?_⟩
    dsimp only
    rw [h.access, held, if_pos (beq_self_eq_true _), dropped, h.checks_set, Option.isSome_some, Bool.or_true, Bool.or_true]
    rfl
  | none =>
    have same : ({ s.entry e with reserved := none } : Entry) = s.entry e := by rw [← held]
    refine ⟨s.ports, ?_⟩
    rw [same, State.entry, set_self, Option.isSome_none, Bool.or_false, Bool.or_false]
    rfl

/-- An entry written over the reservation it held, on a sound roster. -/
theorem State.sound.unreserve_setEntry {s : State} (h : s.sound) (e : EntryId) (x : Entry) :
    ∃ ports, ((s.unreserve e).setEntry e x).requestPlan = s.rewritten e x s.draws ports := by
  obtain ⟨ports, freed⟩ := h.unreserve e
  refine ⟨ports, ?_⟩
  have latest : (s.entries.set e { s.entry e with reserved := none }).set e x = s.entries.set e x := by simp
  rw [freed, State.rewritten, ← latest]
  rfl

/-! ### The three events (R138 to R140) -/

/-- The entry that the bytes of a take leave (R137, R138): valid where they ask it and every field lies in its range. -/
def takenEntry (bytes : Vector Byte 8) : Entry :=
  { entryOfBytes bytes with valid := bytes[0].getLsbD 7 && (entryOfBytes bytes).inRange }

theorem Entry.inRange_iff (x : Entry) : x.inRange = true ↔
    1 ≤ x.sweeper ∧ x.sweeper ≤ 63 ∧ x.minute ≤ 10079 ∧ x.profile ≤ 7 ∧ 50 ≤ x.required ∧ x.required ≤ 100 := by
  simp [Entry.inRange, and_assoc]

theorem takenEntry_valid_iff (bytes : Vector Byte 8) : (takenEntry bytes).valid = true ↔
    bytes[0].getLsbD 7 = true ∧ 1 ≤ (takenEntry bytes).sweeper ∧ (takenEntry bytes).sweeper ≤ 63 ∧
      (takenEntry bytes).minute ≤ 10079 ∧ (takenEntry bytes).profile ≤ 7 ∧ 50 ≤ (takenEntry bytes).required ∧
      (takenEntry bytes).required ≤ 100 :=
  (Bool.and_eq_true_iff).trans (and_congr_right fun _ => (entryOfBytes bytes).inRange_iff)

theorem byteAt_toList (bytes : Vector Byte 8) (n : Fin 8) : byteAt bytes.toList n.val = bytes[n].toNat := by
  simp [byteAt]

/-- The fields of a taken entry stand in its bytes as R184 lays them out. -/
theorem takenEntry_fields (bytes : Vector Byte 8) : (takenEntry bytes).weekly = bytes[0].getLsbD 0 ∧
    (takenEntry bytes).sweeper = bytes[1].toNat ∧ (takenEntry bytes).minute = bytes[2].toNat * 256 + bytes[3].toNat ∧
    (takenEntry bytes).profile = bytes[4].toNat ∧ (takenEntry bytes).required = bytes[5].toNat :=
  ⟨rfl, byteAt_toList bytes 1, congrArg₂ (fun high low => high * 256 + low) (byteAt_toList bytes 2) (byteAt_toList bytes 3),
    byteAt_toList bytes 4, byteAt_toList bytes 5⟩

theorem State.orphanDraws_drawOf (s : State) (e : EntryId) (w : SweeperId) :
    (s.orphanDraws e).drawOf w = (s.drawOf w).map fun d => { d with entry := if d.entry = some e then none else d.entry } := by
  refine (get_updateAll _ _ _).trans (congrArg (Option.map · (s.drawOf w)) (funext fun d => ?_))
  simp only [beq_iff_eq]
  split <;> rfl

/-- A schedule entry taken on a sound roster (R138): its draws lose it. -/
theorem State.sound.takeEntry {s : State} (h : s.sound) (e : EntryId) (bytes : Vector Byte 8) :
    ∃ ports, s.takeEntry e bytes = s.rewritten e (takenEntry bytes) (s.orphanDraws e).draws ports := by
  obtain ⟨ports, stored⟩ := h.unreserve_setEntry e (takenEntry bytes)
  have orphaned : (((s.unreserve e).setEntry e (takenEntry bytes)).orphanDraws e).requestPlan =
      s.rewritten e (takenEntry bytes) (s.orphanDraws e).draws ports :=
    (congrArg (State.orphanDraws · e) stored).trans rfl
  unfold State.takeEntry
  dsimp only
  split
  · exact ⟨_, congrArg (State.notify · .profile .part) orphaned⟩
  · exact ⟨ports, orphaned⟩

theorem State.sound.addDeparture {s : State} (h : s.sound) (e : EntryId) (x : Entry) :
    ∃ ports, s.addDeparture e x = s.rewritten e x s.draws ports :=
  h.unreserve_setEntry e x

theorem State.sound.cancelDeparture {s : State} (h : s.sound) (e : EntryId) :
    ∃ ports, s.cancelDeparture e = s.rewritten e (s.entry e).cancelled s.draws ports := by
  obtain ⟨_, freed⟩ := h.unreserve e
  have cancelled : ((s.unreserve e).entry e).cancelled = (s.entry e).cancelled := by
    rw [freed]
    refine (congrArg Entry.cancelled ((get_set _ _ _ _).trans (if_pos rfl))).trans ?_
    rfl
  unfold State.cancelDeparture
  dsimp only
  rw [cancelled]
  exact h.unreserve_setEntry e _

theorem exec_scheduleEntryTake_last {s : State} {p : PortId} {e last : EntryId} {bytes : Vector Byte 8}
    (stream : (s.port p).stream = some (.schedule (some e) last)) (held : (s.port p).held = bytes.toList.take 7) :
    exec (.scheduleEntryTake p bytes[7]) s =
      .next ((s.takeEntry e bytes).setStream p (some (.schedule (nextUpTo e last) last))) := by
  have whole : (s.port p).wholeEntry 8 bytes[7] = bytes := Port.wholeEntry_eq bytes held
  have completes : (s.port p).completes 8 = true := by
    unfold Port.completes
    rw [held]
    simp
  change execScheduleEntryTake p bytes[7] s = _
  unfold execScheduleEntryTake
  rw [stream]
  dsimp only
  rw [if_pos completes, whole]

/-- The lowest entry that is invalid or FINISHED is the one an addition takes (R139). -/
theorem State.freeEntry_of_least {s : State} {e : EntryId} (free : (s.entry e).valid = false ∨ (s.entry e).status = .finished)
    (taken : ∀ f, f < e → (s.entry f).valid = true ∧ (s.entry f).status ≠ .finished) : s.freeEntry = some e :=
  find?_finRange_of_least (by simpa using free) fun f below => by simpa using taken f below

theorem State.freeEntry_eq_none {s : State} : s.freeEntry = none ↔ ∀ f, (s.entry f).valid = true ∧ (s.entry f).status ≠ .finished :=
  find?_finRange_eq_none.trans (by simp)

/-- ADD_DEPARTURE taken for the lowest free entry (R139). -/
theorem exec_addDeparture_taken {s : State} {p : PortId} {e : EntryId} {params : List Byte}
    (accepted : s.accepts p rowAddDeparture params = true) (kind : byteAt params 0 ≤ 1)
    (ranged : (departureOf params).inRange = true) (free : s.freeEntry = some e) :
    exec (.addDeparture p params) s = .next ((s.addDeparture e (departureOf params)).setPort p
      (((s.addDeparture e (departureOf params)).port p).wrote params .ok)) := by
  refine congrArg Host.Outcome.next (State.transact_writes accepted rfl ?_
    ((s.addDeparture_evolves e (departureOf params)).ports p).lastResult)
  rw [if_neg (by simp [ranged, kind]), free]

/-- CANCEL_DEPARTURE taken for a valid entry that is not CALLED (R140). -/
theorem exec_cancelDeparture_taken {s : State} {p : PortId} {e : EntryId} {params : List Byte}
    (accepted : s.accepts p rowCancelDeparture params = true) (named : byteAt params 0 = e.val)
    (valid : (s.entry e).valid = true) (uncalled : (s.entry e).status ≠ .called) :
    exec (.cancelDeparture p params) s = .next ((s.cancelDeparture e).setPort p
      (((s.cancelDeparture e).port p).wrote params .ok)) := by
  refine congrArg Host.Outcome.next (State.transact_writes accepted rfl ?_ ((s.cancelDeparture_evolves e).ports p).lastResult)
  simp only [index_eq_some.2 named]
  rw [if_neg (by simp [valid]), if_neg (by simpa using uncalled)]

end Sys2Proof.Machine

open Sys2Proof Sys2Proof.Machine

/-- Settles O39: each event leaves State.rewritten but for the ports (State.sound.takeEntry, State.sound.addDeparture,
State.sound.cancelDeparture), and the refusals leave the port alone. -/
theorem departureEntriesWritten : Obligations.DepartureEntriesWritten := by
  intro p s e sound unreserved
  refine ⟨fun bytes last stream held => ?_, fun params => (departureOf params).inRange_iff, fun params accepted =>
    ⟨fun out => ?_, fun kind ranged free taken => ?_, fun kind ranged full => ?_⟩, fun params accepted =>
    ⟨fun above => ?_, fun named idle => ?_, fun named valid uncalled => ?_⟩⟩
  · obtain ⟨ports, written⟩ := sound.takeEntry e bytes
    have draws (w : SweeperId) : (s.takeEntry e bytes).drawOf w = (s.orphanDraws e).drawOf w := by rw [written]; rfl
    obtain ⟨frees, own⟩ := State.rewritten_atPort written p { (s.takeEntry e bytes).port p with
      stream := some (.schedule (nextUpTo e last) last), held := [] }
    obtain ⟨weekly, sweeper, minute, profile, required⟩ := takenEntry_fields bytes
    refine ⟨_, exec_scheduleEntryTake_last stream held, frees, ?_⟩
    unfold State.setStream
    rw [own, State.setPort_port_self]
    exact ⟨weekly, sweeper, minute, profile, required, rfl, rfl, rfl, takenEntry_valid_iff bytes,
      fun w => (draws w).trans (s.orphanDraws_drawOf e w), rfl, rfl⟩
  · exact congrArg Host.Outcome.next (State.transact_reply accepted rfl (if_pos (by simpa using out)))
  · obtain ⟨ports, written⟩ := sound.addDeparture e (departureOf params)
    obtain ⟨frees, own⟩ := State.rewritten_atPort written p _
    exact ⟨_, exec_addDeparture_taken accepted kind ranged (State.freeEntry_of_least free taken), frees,
      State.wrote_lastResult _ _ _ _, own⟩
  · refine congrArg Host.Outcome.next (State.transact_reply accepted rfl ?_)
    rw [if_neg (by simp [ranged, kind]), State.freeEntry_eq_none.2 full]
  · refine congrArg Host.Outcome.next (State.transact_reply accepted rfl ?_)
    rw [index_eq_none.2 above]
  · refine congrArg Host.Outcome.next (State.transact_reply accepted rfl ?_)
    simp only [index_eq_some.2 named]
    rcases idle with invalid | called
    · exact if_pos (by simp [invalid])
    · simp [called]
  · obtain ⟨ports, written⟩ := sound.cancelDeparture e
    obtain ⟨frees, own⟩ := State.rewritten_atPort written p _
    exact ⟨_, exec_cancelDeparture_taken accepted named valid uncalled, frees, State.wrote_lastResult _ _ _ _, own⟩

end

section
/-!
Ready queues in their order (R154), the choices of a draw on a sound roster (R159), and a draw cancelled (R164): O12, O40, O42.
-/

namespace Sys2Proof.Machine

/-! ### Ready queues (R154, R155) -/

theorem State.mem_queueOrder (s : State) (k : ProfileId) (i : SlotId) : i ∈ s.queueOrder k ↔ hasFlag (s.queue k) i = true := by
  unfold State.queueOrder State.queueMembers sortByKey
  rw [List.mem_insertionSort, List.mem_filter]
  exact and_iff_right (mem_allSlots i)

theorem State.queueOrder_nodup (s : State) (k : ProfileId) : (s.queueOrder k).Nodup :=
  (List.perm_insertionSort _ _).nodup_iff.2 ((List.nodup_finRange 64).filter _)

/-- A slot stands before another in a ready queue: fewer cycles, then the greater age, then the lower slot (R154). -/
def State.queuedBefore (s : State) (i j : SlotId) : Prop :=
  (s.record i).cycles < (s.record j).cycles ∨ (s.record i).cycles = (s.record j).cycles ∧
    (s.readyAge j < s.readyAge i ∨ s.readyAge i = s.readyAge j ∧ i ≤ j)

/-- The key of the order spells out what stands before. -/
theorem State.queuedBefore_of_key {s : State} {i j : SlotId} (h : keyLe (s.queueKey i) (s.queueKey j) = true) :
    s.queuedBefore i j := by
  unfold State.queueKey at h
  simp only [keyLe_cons] at h
  unfold State.queuedBefore
  rw [Fin.le_def]
  omega

theorem State.queueOrder_pairwise (s : State) (k : ProfileId) : (s.queueOrder k).Pairwise s.queuedBefore :=
  (pairwise_sortByKey s.queueKey _).imp State.queuedBefore_of_key

/-- While the clock is UNSET every READY pack has the same age. -/
theorem State.readyAge_unset {s : State} (unset : s.clock = none) (i : SlotId) : s.readyAge i = 0 := by
  rw [State.readyAge, unset]

/-- The age of a READY pack is the minutes since its ready-since. -/
theorem State.readyAge_eq {s : State} {i : SlotId} {c : Clock} {m : Nat} (clock : s.clock = some c)
    (since : (s.record i).readySince = some m) : (s.readyAge i : Int) = minutesFrom m c.minute := by
  rw [State.readyAge, clock, since]
  exact weekMinutes_eq m c.minute

/-- READ_QUEUE of a profile's queue on a sound roster (R155). -/
theorem State.sound.exec_readQueue {s : State} (sound : s.sound) {p : PortId} {params : List Byte} {k : ProfileId}
    (accepted : s.accepts p rowReadQueue params = true) (named : byteAt params 0 = k.val) :
    exec (.readQueue p params) s = .next (s.setPort p ((s.port p).answered 1 .ok (s.queueBody k))) := by
  refine congrArg Host.Outcome.next (State.transact_read accepted (by decide) ?_)
  rw [index_eq_some.2 named]
  dsimp only
  rw [sound.accessAll]
  rfl

/-! ### The reserved pack (R159, choice 1) -/

/-- A pack can serve a draw as its matching entry's reserved one: it is READY, or DOCKED with the entry's required charge. -/
def State.servesEntry (s : State) (e : EntryId) (i : SlotId) : Prop :=
  (s.record i).lifecycle = .ready ∨
    (s.record i).lifecycle = .docked ∧ (s.entry e).requiredCharge (s.record i).capacity ≤ (s.record i).estimate

theorem State.sound.choiceReserved_state {s : State} (h : s.sound) (o : Option EntryId) : (s.choiceReserved o).1 = s := by
  unfold State.choiceReserved
  split
  · rfl
  · split
    · rfl
    · dsimp only
      rw [h.access]
      split <;> rfl

/-- The first choice yields the matching entry's reserved pack, where that can serve the draw, and nothing else. -/
theorem State.sound.choiceReserved_iff {s : State} (h : s.sound) (o : Option EntryId) (x : Pick) :
    (s.choiceReserved o).2 = some x ↔
      ∃ e i, o = some e ∧ (s.entry e).reserved = some i ∧ s.servesEntry e i ∧ x = ⟨i, .ok⟩ := by
  unfold State.choiceReserved
  cases o with
  | none => simp
  | some e =>
    dsimp only
    cases reserved : (s.entry e).reserved with
    | none => simp [reserved]
    | some i =>
      dsimp only
      rw [h.access]
      by_cases serves : s.servesEntry e i
      · rw [if_pos (by simpa [State.servesEntry] using serves)]
        simp [reserved, serves, eq_comm]
      · rw [if_neg (by simpa [State.servesEntry] using serves)]
        simp [reserved, serves]

/-! ### The first open pack of the ready queue (R159, choice 2) -/

/-- A pack is open to a sweeper: no entry of another sweeper reserves it. -/
def State.openTo (s : State) (w : SweeperId) (i : SlotId) : Prop :=
  ∀ e, (s.record i).reservation = some e → (s.entry e).sweeper = w.val

theorem State.heldForOther_eq_false (s : State) (w : SweeperId) (i : SlotId) : s.heldForOther w i = false ↔ s.openTo w i := by
  unfold State.heldForOther State.openTo
  cases (s.record i).reservation <;> simp

theorem State.sound.choiceReady {s : State} (h : s.sound) (w : SweeperId) (k : ProfileId) :
    s.choiceReady w k = (s, ((s.queueOrder k).find? fun i => !s.heldForOther w i).map fun i => ⟨i, .ok⟩) := by
  unfold State.choiceReady
  rw [h.accessAll]

theorem State.sound.choiceReady_first {s : State} (h : s.sound) {w : SweeperId} {k : ProfileId} {i : SlotId}
    {pre post : List SlotId} (order : s.queueOrder k = pre ++ i :: post) (free : s.openTo w i)
    (held : ∀ j ∈ pre, ¬ s.openTo w j) : (s.choiceReady w k).2 = some ⟨i, .ok⟩ := by
  have first : ((s.queueOrder k).find? fun j => !s.heldForOther w j) = some i := by
    rw [List.find?_eq_some_iff_append]
    refine ⟨by simpa [s.heldForOther_eq_false] using free, pre, post, order, fun j mem => ?_⟩
    simpa [← s.heldForOther_eq_false] using held j mem
  rw [h.choiceReady, first]
  rfl

theorem State.sound.choiceReady_none {s : State} (h : s.sound) {w : SweeperId} {k : ProfileId}
    (held : ∀ j ∈ s.queueOrder k, ¬ s.openTo w j) : (s.choiceReady w k).2 = none := by
  have nothing : ((s.queueOrder k).find? fun j => !s.heldForOther w j) = none :=
    List.find?_eq_none.2 fun j mem => by simpa [← s.heldForOther_eq_false] using held j mem
  rw [h.choiceReady, nothing]
  rfl

/-! ### The fullest open DOCKED pack (R159, choice 3) -/

/-- A DOCKED pack of the profile is open to the sweeper and stands in no faulted bay. -/
def State.drawable (s : State) (w : SweeperId) (k : ProfileId) (i : SlotId) : Prop :=
  (s.record i).lifecycle = .docked ∧ (s.record i).profile = k ∧ s.openTo w i ∧
    ∀ b, (s.record i).bay = some b → (s.bay b).carries .fault = false

/-- The drawable packs, in slot order. -/
def State.drawablePacks (s : State) (w : SweeperId) (k : ProfileId) : List SlotId :=
  (s.dockedOf k).filter fun i => !s.heldForOther w i && !s.standsFaulted i

theorem State.standsFaulted_eq_false (s : State) (i : SlotId) :
    s.standsFaulted i = false ↔ ∀ b, (s.record i).bay = some b → (s.bay b).carries .fault = false := by
  unfold State.standsFaulted
  cases (s.record i).bay <;> simp

theorem State.mem_drawablePacks (s : State) (w : SweeperId) (k : ProfileId) (i : SlotId) :
    i ∈ s.drawablePacks w k ↔ s.drawable w k i := by
  simp only [State.drawablePacks, State.dockedOf, State.drawable, List.mem_filter, mem_allSlots, Bool.and_eq_true, beq_iff_eq,
    Bool.not_eq_true', s.heldForOther_eq_false, s.standsFaulted_eq_false, true_and, and_assoc]

/-- A pack stands before another in the third choice: the higher percentage, then fewer cycles, then the lower slot. -/
def State.fullerThan (s : State) (i j : SlotId) : Prop :=
  (s.record j).percent < (s.record i).percent ∨ (s.record j).percent = (s.record i).percent ∧
    ((s.record i).cycles < (s.record j).cycles ∨ (s.record i).cycles = (s.record j).cycles ∧ i < j)

theorem State.fullerThan.not_keyLe {s : State} {i j : SlotId} (fuller : s.fullerThan i j) :
    ¬ keyLe (s.partialKey j) (s.partialKey i) = true := by
  unfold State.fullerThan at fuller
  unfold State.partialKey
  simp only [keyLe_cons]
  rw [Fin.lt_def] at fuller
  omega

/-- The pack that the third choice considers: the first of the drawable ones by its key. -/
def State.fullestPack (s : State) (w : SweeperId) (k : ProfileId) : Option SlotId :=
  (sortByKey s.partialKey (s.drawablePacks w k)).head?

theorem State.sound.choicePartial {s : State} (h : s.sound) (w : SweeperId) (k : ProfileId) :
    s.choicePartial w k = (s, ((s.fullestPack w k).filter fun i => s.site.minimumIssue ≤ (s.record i).percent).map
      (Pick.mk · .okPartial)) := by
  unfold State.choicePartial State.fullestPack State.drawablePacks
  dsimp only
  rw [h.accessAll]
  split
  · rename_i i best
    rw [best, Option.filter_some]
    simp only [decide_eq_true_eq]
    split <;> rfl
  · rename_i best
    rw [best]
    rfl

theorem State.sound.choicePartial_fullest {s : State} (h : s.sound) {w : SweeperId} {k : ProfileId} {i : SlotId}
    (can : s.drawable w k i) (charged : s.site.minimumIssue ≤ (s.record i).percent)
    (fullest : ∀ j, s.drawable w k j → j ≠ i → s.fullerThan i j) : (s.choicePartial w k).2 = some ⟨i, .okPartial⟩ := by
  have first : s.fullestPack w k = some i :=
    head?_sortByKey _ ((s.mem_drawablePacks w k i).2 can) fun j mem le => by
      by_contra other
      exact (fullest j ((s.mem_drawablePacks w k j).1 mem) other).not_keyLe le
  rw [h.choicePartial, first, Option.filter_some, if_pos (by simpa using charged)]
  rfl

theorem State.sound.choicePartial_none {s : State} (h : s.sound) {w : SweeperId} {k : ProfileId}
    (low : ∀ i, s.drawable w k i → (s.record i).percent < s.site.minimumIssue) : (s.choicePartial w k).2 = none := by
  rw [h.choicePartial]
  cases first : s.fullestPack w k with
  | none => rfl
  | some i =>
    have short := low i ((s.mem_drawablePacks w k i).1 (head?_sortByKey_mem _ first))
    rw [Option.filter_some, if_neg (by simpa using short)]
    rfl

/-! ### The three choices in their order (R159) -/

/-- On a sound roster the choice of a pack changes nothing, and it is the first of the three that yields one. -/
theorem State.sound.choosePack {s : State} (h : s.sound) (w : SweeperId) (k : ProfileId) (o : Option EntryId) :
    s.choosePack w k o = (s, (s.choiceReserved o).2.or ((s.choiceReady w k).2.or (s.choicePartial w k).2)) := by
  have reserved : s.choiceReserved o = (s, (s.choiceReserved o).2) := Prod.ext (h.choiceReserved_state o) rfl
  have ready : s.choiceReady w k = (s, (s.choiceReady w k).2) := by rw [h.choiceReady]
  have docked : s.choicePartial w k = (s, (s.choicePartial w k).2) := by rw [h.choicePartial]
  unfold State.choosePack
  rw [reserved]
  cases (s.choiceReserved o).2 with
  | some x => rfl
  | none =>
    dsimp only
    rw [ready]
    cases (s.choiceReady w k).2 with
    | some x => rfl
    | none => exact docked

/-! ### A called pack returned (R164) -/

theorem sweeperOf_eq_none {n : Nat} (h : n = 0 ∨ 64 ≤ n) : sweeperOf n = none := by
  unfold sweeperOf
  split
  · rfl
  · rename_i positive
    exact index_eq_none.2 (h.resolve_left positive)

theorem sweeperOf_val {w : SweeperId} (h : w ≠ 0) : sweeperOf w.val = some w := by
  unfold sweeperOf
  rw [if_neg (show w.val ≠ 0 from fun zero => h (Fin.ext zero)), index_val]

theorem State.sound.accessDrawn {s : State} (h : s.sound) (w : SweeperId) : s.accessDrawn w = s := by
  unfold State.accessDrawn
  split
  · exact h.access _
  · rfl

/-- The record of a pack whose draw is cancelled: READY from now on in a DONE bay, DOCKED in any other (R164). -/
def State.returnedRecord (s : State) (i : SlotId) (b : BayId) : PackRecord :=
  { s.record i with
    lifecycle := if (s.bay b).stage = .done then .ready else .docked
    sweeper := none
    readySince := if (s.bay b).stage = .done then some s.minuteNow else (s.record i).readySince }

/-- The ready queues with a pack whose draw is cancelled in a DONE bay (R164). -/
def State.returnedQueues (s : State) (i : SlotId) (b : BayId) : Vector (FlagSet 64) 8 :=
  if (s.bay b).stage = .done then (s.joinReady (s.record i).profile i).readyQueues else s.readyQueues

theorem State.returnedQueues_hasFlag (s : State) (i j : SlotId) (b : BayId) (k : ProfileId) :
    hasFlag (s.returnedQueues i b)[k] j =
      (hasFlag (s.queue k) j || decide ((s.bay b).stage = .done ∧ k = (s.record i).profile ∧ j = i)) := by
  unfold State.returnedQueues
  split
  · rename_i done
    change hasFlag ((s.joinReady (s.record i).profile i).queue k) j = _
    rw [State.joinReady_queue]
    split
    · rename_i own
      simp [own, done, beq_eq_decide]
    · rename_i other
      simp [other]
  · rename_i charging
    simp [charging, State.queue]

theorem State.sound.uncall {s : State} (h : s.sound) (i : SlotId) (b : BayId) : ∃ ports, s.uncall i b = { s with
    records := s.records.set i (s.returnedRecord i b), readyQueues := s.returnedQueues i b, ports := ports } := by
  obtain ⟨before, docked⟩ := h.putRecord i { s.record i with lifecycle := .docked, sweeper := none }
  unfold State.uncall State.returnedRecord State.returnedQueues
  simp only [beq_iff_eq]
  split
  · have own : (s.putRecord i { s.record i with lifecycle := .docked, sweeper := none }).record i =
        { s.record i with lifecycle := .docked, sweeper := none } := by rw [State.putRecord_record, if_pos rfl]
    obtain ⟨ports, ready⟩ := State.sound.makeReady (h.of_checks (by rw [docked])) own
    refine ⟨updateAll ports fun _ x => x.deliver .ready .part, ?_⟩
    rw [ready, docked]
    simp only [Vector.set_set]
    rfl
  · exact ⟨before, docked⟩

/-- The pack of a cancelled draw back at its bay, which loses CALLED, before the draw ends (R164, steps 1 and 2). -/
def State.returnPack (s : State) (i : SlotId) (b : BayId) : State := (s.uncall i b).removeInhibit b .called

theorem State.cancelDrawOf_eq {s : State} {i : SlotId} {b : BayId} (place : (s.record i).bay = some b) :
    s.cancelDrawOf i = ((s.returnPack i b).voidDraw i).requestPlan := by
  unfold State.cancelDrawOf
  rw [place]
  rfl

theorem State.sound.returnPack {s : State} (h : s.sound) (i : SlotId) (b : BayId) : ∃ pass ports, s.returnPack i b = { s with
    records := s.records.set i (s.returnedRecord i b), readyQueues := s.returnedQueues i b
    bays := s.bays.set b ((s.bay b).uninhibited .called), passMark := pass, ports := ports } := by
  obtain ⟨ports, uncalled⟩ := h.uncall i b
  unfold State.returnPack
  rw [State.removeInhibit_eq, uncalled]
  exact ⟨_, ports, rfl⟩

/-- A draw cancelled on a sound roster, where one sweeper draws the pack (R164). -/
theorem State.sound.cancelDrawOf {s : State} (h : s.sound) {i : SlotId} {b : BayId} {w : SweeperId}
    (place : (s.record i).bay = some b) (only : ∀ v, (s.drawOf v).map (·.slot) = some i ↔ v = w) :
    ∃ pass ports, s.cancelDrawOf i = { s with
      records := s.records.set i (s.returnedRecord i b), readyQueues := s.returnedQueues i b
      bays := s.bays.set b ((s.bay b).uninhibited .called)
      draws := s.draws.set w none
      recalls := updateAll s.recalls fun _ q => q.filter fun r => r.slot != i
      entries := s.entriesSettled ((s.drawOf w).bind (·.entry)) .idle
      passMark := pass, planMark := true, ports := ports } := by
  obtain ⟨pass, before, returned⟩ := h.returnPack i b
  obtain ⟨ports, voided⟩ := (s.returnPack i b).voidDraw_of_unique (i := i) (w := w) (by rw [returned]; exact only)
  refine ⟨pass, ports, ?_⟩
  rw [State.cancelDrawOf_eq place, voided, returned]
  rfl

/-- The DRAW notice of a cancelled draw (R163). -/
theorem State.cancelDrawOf_drawNoticed {s : State} {i : SlotId} {b : BayId} (place : (s.record i).bay = some b) {q : PortId}
    (office : (s.port q).role = .depot ∨ (s.port q).role = .observer) :
    hasFlag ((s.cancelDrawOf i).port q).raised NoticeKind.draw.bit = true := by
  have evolves : Evolves s (s.returnPack i b) := (s.uncall_evolves i b).trans (State.removeInhibit_evolves _ b .called)
  rw [State.cancelDrawOf_eq place]
  exact (s.returnPack i b).voidDraw_drawNoticed i ((evolves.ports q).role ▸ office)

/-- CANCEL_DRAW taken on a sound roster for a sweeper with a draw (R164). -/
theorem State.sound.exec_cancelDraw {s : State} (sound : s.sound) {p : PortId} {params : List Byte} {w : SweeperId} {d : Draw}
    (accepted : s.accepts p rowCancelDraw params = true) (named : byteAt params 0 = w.val) (known : w ≠ 0)
    (drawn : s.drawOf w = some d) : exec (.cancelDraw p params) s =
      .next ((s.cancelDrawOf d.slot).setPort p (((s.cancelDrawOf d.slot).port p).wrote params .ok)) := by
  refine congrArg Host.Outcome.next (State.transact_writes accepted rfl ?_ ((s.cancelDrawOf_evolves d.slot).ports p).lastResult)
  rw [named, sweeperOf_val known]
  dsimp only
  rw [sound.accessDrawn, drawn]

end Sys2Proof.Machine

open Sys2Proof Sys2Proof.Machine

/-- Settles O40: the three choices in their order (State.sound.choosePack), each by what it yields. -/
theorem drawChoosesItsPack : Obligations.DrawChoosesItsPack := by
  unfold Obligations.DrawChoosesItsPack
  intro s w k match' sound takes reserved open' docked
  rw [sound.choosePack]
  refine ⟨rfl, fun i ⟨e, matching, holds, serves⟩ => ?_, fun never => ?_⟩
  · have serving : s.servesEntry e i := serves.imp id fun ⟨at_, f, same, charged⟩ => by
      rw [matching] at same
      cases same
      exact ⟨at_, charged⟩
    have pick : (s.choiceReserved match').2 = some ⟨i, .ok⟩ :=
      (sound.choiceReserved_iff match' _).2 ⟨e, i, matching, holds, serving, rfl⟩
    rw [pick, Option.some_or]
  · have nothing : (s.choiceReserved match').2 = none := by
      refine Option.eq_none_iff_forall_ne_some.2 fun x pick => ?_
      obtain ⟨e, i, matching, holds, serving, -⟩ := (sound.choiceReserved_iff match' x).1 pick
      exact never i ⟨e, matching, holds, serving.imp id fun ⟨at_, charged⟩ => ⟨at_, e, matching, charged⟩⟩
    rw [nothing, Option.none_or]
    refine ⟨fun i pre post order free held => ?_, fun closed => ?_⟩
    · rw [sound.choiceReady_first order free held, Option.some_or]
    · rw [sound.choiceReady_none closed, Option.none_or]
      exact ⟨fun i can charged fullest => sound.choicePartial_fullest can charged fullest, fun low => sound.choicePartial_none low⟩

/-- Settles O12: the answer, and the order of the sorted keys (State.queuedBefore). -/
theorem readQueueAnswersInOrder : Obligations.ReadQueueAnswersInOrder := by
  intro p params s accepted
  refine ⟨fun k named sound => ⟨sound.exec_readQueue accepted named, s.mem_queueOrder k, s.queueOrder_nodup k,
    s.queueOrder_pairwise k⟩, fun i => ⟨rfl, fun unset => State.readyAge_unset unset i, fun c m clock since =>
    State.readyAge_eq clock since⟩, fun above => ?_⟩
  refine congrArg Host.Outcome.next (State.transact_read accepted (by decide) ?_)
  rw [index_eq_none.2 above]
  rfl

/-- Settles O42: the cancelled draw is one update but for the ports and the pass mark (State.sound.cancelDrawOf). -/
theorem cancelDrawReturnsThePack : Obligations.CancelDrawReturnsThePack := by
  intro p params s accepted sound
  refine ⟨fun unnamed => ?_, fun w named known => ⟨fun undrawn => ?_, fun d b drawn place single => ?_⟩⟩
  · refine congrArg Host.Outcome.next (State.transact_reply accepted rfl ?_)
    rw [sweeperOf_eq_none unnamed]
  · refine congrArg Host.Outcome.next (State.transact_reply accepted rfl ?_)
    rw [named, sweeperOf_val known]
    dsimp only
    rw [sound.accessDrawn, undrawn]
  · have only (v : SweeperId) : (s.drawOf v).map (·.slot) = some d.slot ↔ v = w :=
      ⟨single v, fun own => by rw [own, drawn]; rfl⟩
    obtain ⟨pass, ports, cancelled⟩ := sound.cancelDrawOf place only
    refine ⟨_, sound.exec_cancelDraw accepted named known drawn, fun j other => ?_, fun a other => ?_, ?_, ?_, fun v => ?_, fun c => ?_,
      fun e => ?_, fun n j => ?_, ?_, State.wrote_lastResult _ _ _ _, fun q office => ?_⟩
    · rw [State.setPort_record, cancelled]
      exact (get_set _ _ _ _).trans (if_neg other)
    · rw [State.setPort_bay, cancelled]
      exact (get_set _ _ _ _).trans (if_neg other)
    · rw [State.setPort_record, cancelled, ← s.minuteNow_eq]
      exact (get_set _ _ _ _).trans (if_pos rfl)
    · rw [State.setPort_bay, cancelled]
      exact (get_set _ _ _ _).trans (if_pos rfl)
    · rw [State.setPort_drawOf, cancelled]
      exact get_set _ _ _ _
    · rw [State.setPort_recall, cancelled]
      exact get_updateAll _ _ _
    · rw [State.setPort_entry, cancelled]
      refine (s.entriesSettled_get _ _ e).trans ?_
      rw [drawn]
      rfl
    · rw [State.setPort_queue, cancelled]
      exact s.returnedQueues_hasFlag d.slot j b n
    · rw [cancelled]
      rfl
    · rw [State.wrote_raised]
      exact State.cancelDrawOf_drawNoticed place office

end

section
/-!
Notices (R167 to R172): which ports a notice reaches, and the four commands by which a port reads, clears and masks its own: O5 to O8.
-/

namespace Sys2Proof.Machine

/-! ### The roles a notice reaches (R167) -/

/-- A notice for a bay is taken by the offices and by the port of the bay's cluster. -/
theorem Role.takes_bay_iff {role : Role} {k : NoticeKind} {b : BayId} :
    role.takes k (.bay b) = true ↔ role = .depot ∨ role = .observer ∨ role = .cluster (clusterOf b) := by
  cases role with
  | cluster d => simpa [Role.takes] using eq_comm
  | depot | observer | off => simp [Role.takes]

/-- A notice for a cluster is taken by the offices and by the cluster's port. -/
theorem Role.takes_cluster_iff {role : Role} {k : NoticeKind} {c : ClusterId} :
    role.takes k (.cluster c) = true ↔ role = .depot ∨ role = .observer ∨ role = .cluster c := by
  cases role with
  | cluster d => simpa [Role.takes] using eq_comm
  | depot | observer | off => simp [Role.takes]

/-- A notice for the part is taken by the offices; SUPPLY alone is taken by the clusters' ports too. -/
theorem Role.takes_part_iff {role : Role} {k : NoticeKind} :
    role.takes k .part = true ↔ role = .depot ∨ role = .observer ∨ k = .supply ∧ role ≠ .off := by
  cases role with
  | cluster d => simp [Role.takes]
  | depot | observer | off => simp [Role.takes]

/-! ### What a notice leaves at every port (R167, R169, R172) -/

section
variable (s : State) (k : NoticeKind) (q : PortId)

theorem State.notify_bay_port (b : BayId) : (s.notify k (.bay b)).port q =
    if (s.port q).role = .depot ∨ (s.port q).role = .observer ∨ (s.port q).role = .cluster (clusterOf b) then
      { s.port q with
        raised := (s.port q).raised ||| BitVec.twoPow 12 k.bit
        summary := (s.port q).summary ||| BitVec.twoPow 16 b }
    else s.port q := by
  rw [State.notify_port]
  exact if_congr Role.takes_bay_iff rfl rfl

theorem State.notify_cluster_port (c : ClusterId) : (s.notify k (.cluster c)).port q =
    if (s.port q).role = .depot ∨ (s.port q).role = .observer ∨ (s.port q).role = .cluster c then
      { s.port q with raised := (s.port q).raised ||| BitVec.twoPow 12 k.bit }
    else s.port q := by
  rw [State.notify_port]
  exact if_congr Role.takes_cluster_iff rfl rfl

theorem State.notify_part_port : (s.notify k .part).port q =
    if (s.port q).role = .depot ∨ (s.port q).role = .observer ∨ k = .supply ∧ (s.port q).role ≠ .off then
      { s.port q with raised := (s.port q).raised ||| BitVec.twoPow 12 k.bit }
    else s.port q := by
  rw [State.notify_port]
  exact if_congr Role.takes_part_iff rfl rfl

/-- A clear is delivered as a declaration is, but only where the option is BOTH. -/
theorem State.notifyFaultClear_port_eq (b : BayId) : (s.notifyFaultClear b).port q =
    if (s.port q).edge = .both then (s.notify .fault (.bay b)).port q else s.port q := by
  rw [State.notifyFaultClear_port, State.notify_port]
  exact if_congr beq_iff_eq rfl rfl

end

/-! ### The attention line (R168) -/

/-- A set is not empty where some flag stands in it. -/
theorem flags_ne_zero_iff {n : Nat} {f : FlagSet n} : f ≠ 0 ↔ ∃ i, hasFlag f i = true := by
  refine ⟨fun some_left => ?_, fun ⟨i, stands⟩ empty => ?_⟩
  · by_contra none_left
    exact some_left (flags_ext fun i => by
      rw [hasFlag_zero, Bool.eq_false_iff]
      exact fun stands => none_left ⟨i, stands⟩)
  · rw [empty, hasFlag_zero] at stands
    cases stands

theorem hasFlag_and {n : Nat} (f g : FlagSet n) (i : Fin n) : hasFlag (f &&& g) i = (hasFlag f i && hasFlag g i) :=
  BitVec.getLsbD_and

/-- The line is asserted while some kind is both pending and in the mask. -/
theorem State.attention_iff (s : State) (p : PortId) :
    s.attention p = true ↔ ∃ k, hasFlag (s.port p).raised k = true ∧ hasFlag (s.port p).mask k = true := by
  rw [State.attention, bne_iff_ne, flags_ne_zero_iff]
  simp only [hasFlag_and, Bool.and_eq_true]

/-- The line is read off its own port alone. -/
theorem State.attention_congr {s t : State} {q : PortId} (raised : (t.port q).raised = (s.port q).raised)
    (mask : (t.port q).mask = (s.port q).mask) : t.attention q = s.attention q := by
  rw [State.attention, State.attention, raised, mask]

/-- A write of one port leaves the other ports' lines. -/
theorem State.setPort_attention_ne (s : State) {p q : PortId} (x : Port) (other : q ≠ p) :
    (s.setPort p x).attention q = s.attention q :=
  State.attention_congr (by rw [State.setPort_port_ne s x other]) (by rw [State.setPort_port_ne s x other])

/-- A write of a port that keeps its pending set and its mask moves no line. -/
theorem State.setPort_attention_same (s : State) (p : PortId) {x : Port} (raised : x.raised = (s.port p).raised)
    (mask : x.mask = (s.port p).mask) (q : PortId) : (s.setPort p x).attention q = s.attention q := by
  by_cases own : q = p
  · subst own
    exact State.attention_congr (by rw [State.setPort_port_self, raised]) (by rw [State.setPort_port_self, mask])
  · exact s.setPort_attention_ne x own

/-! ### READ_NOTICES and ACK_NOTICES (R170, R171) -/

theorem EdgeOption.code_eq (o : EdgeOption) : o.code = if o = .both then 1 else 0 := by cases o <;> rfl

theorem execReadNotices_eq {p : PortId} {s : State} (accepted : s.accepts p rowReadNotices [] = true) :
    exec (.readNotices p) s = .next (s.setPort p ((s.port p).answered 0 .ok
      (be 2 (s.port p).raised.toNat ++ be 2 (s.port p).mask.toNat ++
        be 1 (if (s.port p).edge = .both then 1 else 0)))) := by
  rw [← EdgeOption.code_eq]
  exact congrArg Host.Outcome.next (State.transact_read accepted (by decide) rfl)

/-- The kinds named are the low twelve bits of the two bytes; the bits above name no kind (R184). -/
theorem hasFlag_kindsAt (params : List Byte) (k : Fin 12) : hasFlag (kindsAt params) k = (u16At params 0).testBit k.val := by
  rw [hasFlag, kindsAt, BitVec.getLsbD_ofNat, decide_eq_true k.isLt, Bool.true_and]

/-- A kind stays pending unless the set acknowledged names it. -/
theorem hasFlag_acknowledged (f : FlagSet 12) (params : List Byte) (k : Fin 12) :
    hasFlag (f &&& ~~~ kindsAt params) k = (hasFlag f k && !(u16At params 0).testBit k.val) := by
  have complement : hasFlag (~~~ kindsAt params) k = !hasFlag (kindsAt params) k := by simp [hasFlag]
  rw [hasFlag_and, complement, hasFlag_kindsAt]

theorem execAckNotices_eq {p : PortId} {params : List Byte} {s : State} (accepted : s.accepts p rowAckNotices params = true) :
    exec (.ackNotices p params) s = .next (s.setPort p
      (({ s.port p with raised := (s.port p).raised &&& ~~~ kindsAt params } : Port).wrote params .ok)) := by
  refine congrArg Host.Outcome.next ((State.transact_writes accepted rfl rfl (by rw [State.setPort_port_self])).trans ?_)
  rw [State.setPort_port_self, State.setPort_setPort]

/-! ### SET_NOTICE_MASK (R168) -/

theorem edgeOfByte_eq_some {n : Nat} (coded : n ≤ 1) : edgeOfByte n = some (if n = 0 then .declare else .both) := by
  interval_cases n <;> rfl

theorem edgeOfByte_eq_none {n : Nat} (above : 1 < n) : edgeOfByte n = none := by
  unfold edgeOfByte
  split
  · omega
  · omega
  · rfl

theorem execSetNoticeMask_eq {p : PortId} {params : List Byte} {s : State}
    (accepted : s.accepts p rowSetNoticeMask params = true) :
    exec (.setNoticeMask p params) s = .next (s.setPort p
      (if byteAt params 2 ≤ 1 then
        (({ s.port p with
          mask := kindsAt params
          edge := if byteAt params 2 = 0 then .declare else .both } : Port)).wrote params .ok
      else (s.port p).wrote params .range)) := by
  refine congrArg Host.Outcome.next ?_
  by_cases coded : byteAt params 2 ≤ 1
  · rw [if_pos coded]
    refine (State.transact_writes (r := .ok) (t := s.setPort p { s.port p with
      mask := kindsAt params, edge := if byteAt params 2 = 0 then .declare else .both }) accepted rfl ?_ ?_).trans ?_
    · rw [edgeOfByte_eq_some coded]
    · rw [State.setPort_port_self]
    · rw [State.setPort_port_self, State.setPort_setPort]
  · rw [if_neg coded]
    exact State.transact_reply accepted rfl (by rw [edgeOfByte_eq_none (Nat.lt_of_not_le coded)])

/-! ### READ_BAY_SUMMARY (R172) -/

/-- The places of flags, each with its weight, add up to the number whose bits they are. -/
theorem sum_bitOf {n : Nat} (f : Fin n → Bool) : ((List.finRange n).map fun k => bitOf (f k) k.val).sum = Nat.ofBits f := by
  induction n with
  | zero => rfl
  | succ n ih =>
    have doubled (k : Fin n) : bitOf (f k.succ) (k.val + 1) = 2 * bitOf (f k.succ) k.val := by
      unfold bitOf
      split
      · exact Nat.pow_succ'
      · rfl
    have first : bitOf (f 0) 0 = (f 0).toNat := by cases f 0 <;> rfl
    rw [List.finRange_succ, List.map_cons, List.sum_cons, List.map_map, Nat.ofBits_succ, ← ih, ← List.sum_map_mul_left]
    simp only [Function.comp_def, Fin.val_succ, Fin.val_zero, doubled, first, Nat.add_comm]

/-- A cluster's four bays in a summary, in local order, are the four bits from 4c. -/
theorem sum_localBays (f : FlagSet 16) (c : ClusterId) :
    ((List.finRange 4).map fun k => bitOf (hasFlag f (globalBay c k)) k.val).sum = f.toNat / 2 ^ (4 * c.val) % 16 := by
  have bits : (fun k : Fin 4 => hasFlag f (globalBay c k)) = fun k => (f.toNat / 2 ^ (4 * c.val)).testBit k.val := by
    funext k
    rw [Nat.testBit_div_two_pow, Nat.add_comm]
    rfl
  rw [sum_bitOf, bits, Nat.ofBits_testBit]

theorem State.summaryBody_eq (s : State) (p : PortId) :
    s.summaryBody p = match (s.port p).role with
      | .cluster c => be 2 ((s.port p).summary.toNat / 2 ^ (4 * c.val) % 16)
      | _ => be 2 (s.port p).summary.toNat := by
  unfold State.summaryBody State.clusterOfPort
  cases (s.port p).role with
  | cluster c => exact congrArg (be 2) (sum_localBays _ c)
  | depot | observer | off => rfl

theorem execReadBaySummary_eq {p : PortId} {s : State} (accepted : s.accepts p rowReadBaySummary [] = true) :
    exec (.readBaySummary p) s = .next (s.setPort p
      (({ s.port p with summary := 0 } : Port).answered 0 .ok (s.summaryBody p))) := by
  refine congrArg Host.Outcome.next ((State.transact_reads accepted (by decide) rfl (by rw [State.setPort_port_self])).trans ?_)
  rw [State.setPort_port_self, State.setPort_setPort]
  rfl

end Sys2Proof.Machine

open Sys2Proof Sys2Proof.Machine

/-- Settles O5: one equation for each scope a notice is raised for (Role.takes_bay_iff and the like), and the clear (R169). -/
theorem noticesReachTheirPorts : Obligations.NoticesReachTheirPorts := by
  intro s k q
  refine ⟨fun b _ => s.notify_bay_port k q b, fun c _ => s.notify_cluster_port k q c, s.notify_part_port k q,
    s.notifyFaultClear_port_eq q, fun w => ⟨(s.notify_port k w q).symm, ?_⟩⟩
  generalize (s.port q).role = role
  cases role with
  | cluster c => cases w <;> simp [Role.takes]
  | depot | observer | off => simp [Role.takes]

/-- Settles O6: the answer (execReadNotices_eq), which keeps every port's pending set and mask. -/
theorem readNoticesChangesNothing : Obligations.ReadNoticesChangesNothing := fun p s accepted =>
  ⟨_, execReadNotices_eq accepted, rfl, s.setPort_attention_same p rfl rfl⟩

/-- Settles O7: the pending set less the kinds named, kind by kind (hasFlag_acknowledged). -/
theorem ackNoticesClearsItsKinds : Obligations.AckNoticesClearsItsKinds := by
  intro p params s accepted
  refine ⟨_, execAckNotices_eq accepted, rfl, ?_, fun q other => s.setPort_attention_ne _ other⟩
  rw [State.attention_iff, State.setPort_port_self]
  simp only [Port.wrote, Port.ended, hasFlag_acknowledged, Bool.and_eq_true, Bool.not_eq_true', and_assoc]

/-- Settles O8: the mask by the option's byte (edgeOfByte), the summary by its port's role (State.summaryBody_eq). -/
theorem maskAndSummary : Obligations.MaskAndSummary := by
  refine fun p s => ⟨fun params accepted => execSetNoticeMask_eq accepted, fun accepted => ?_⟩
  have answered := execReadBaySummary_eq accepted
  rw [State.summaryBody_eq] at answered
  exact answered

end

section
/-!
The port-level statements: who a port is (R182) and what its straps make of it (R176).
-/

namespace Sys2Proof.Machine

/-! ### IDENTIFY (R182) -/

theorem be_one (n : Nat) : be 1 n = [BitVec.ofNat 8 n] := by simp [be]

/-- The eight bytes of IDENTIFY, written out. -/
theorem State.identifyBody_eq (s : State) (p : PortId) :
    s.identifyBody p = [0x47, 0x16, 0xD2, 0x01, BitVec.ofNat 8 p.val, BitVec.ofNat 8 (s.port p).role.code,
      BitVec.ofNat 8 (s.port p).strap.val,
      BitVec.ofNat 8 ((if (s.port p).conflict then 1 else 0) +
        (if s.phase = .scanAfterPowerOn ∨ s.phase = .scanAfterHardReset then 2 else 0))] := by
  have fixed : be 1 Config.vendorCode ++ be 2 Config.partCode ++ be 1 Config.revision = [0x47, 0x16, 0xD2, 0x01] := by decide
  unfold State.identifyBody
  rw [fixed]
  simp [be_one, bitOf]

theorem execIdentify_eq (p : PortId) (s : State) :
    exec (.identify p) s = .next (s.setPort p ((s.port p).answered 0 .ok (s.identifyBody p))) := rfl

/-! ### Roles (R176) -/

theorem strapConflict_iff (straps : Straps) (p : PortId) :
    strapConflict straps p = true ↔ (straps[p]).val < 4 ∧ ∃ q, q < p ∧ straps[q] = straps[p] := by
  simp [strapConflict]

theorem portRole_of_conflict {straps : Straps} {p : PortId} (h : strapConflict straps p = true) : portRole straps p = .off :=
  if_pos h

theorem portRole_of_alone {straps : Straps} {p : PortId} (h : strapConflict straps p = false) :
    portRole straps p = roleOfStrap straps[p] := if_neg (by simp [h])

/-- The role of each strap code by itself. -/
theorem roleOfStrap_cases (code : Fin 8) :
    (∀ h : code.val < 4, roleOfStrap code = .cluster ⟨code.val, h⟩) ∧ (code.val = 4 → roleOfStrap code = .depot) ∧
      (code.val = 5 → roleOfStrap code = .observer) ∧ (5 < code.val → roleOfStrap code = .off) := by
  unfold roleOfStrap
  refine ⟨fun h => dif_pos h, fun h => ?_, fun h => ?_, fun h => ?_⟩
  · rw [dif_neg (by omega), if_pos h]
  · rw [dif_neg (by omega), if_neg (by omega), if_pos h]
  · rw [dif_neg (by omega), if_neg (by omega), if_neg (by omega)]

/-- Every port after POWER_ON and after HARD_RESET is a port reset with these straps. -/
theorem resetPort_of_resets {straps : Straps} {s : State} {p : PortId} {x : Port}
    (after : x = ({ State.poweredOn straps s.pending with freeUses := s.freeUses } : State).port p ∨
      x = (s.hardReset straps).port p) : ∃ marks, x = resetPort straps marks p := by
  rcases after with rfl | rfl
  · exact ⟨_, State.poweredOn_port straps s.pending p⟩
  · exact ⟨_, get_ofFn _ _⟩

/-- Which classes of commands a role may issue. -/
theorem Role.mayIssue_iff (r : Role) (k : CommandClass) : r.mayIssue k = true ↔ match r with
    | .off => False
    | .observer => k = .common
    | .depot => k ≠ .cluster
    | .cluster _ => k ≠ .depot := by
  cases r with
  | cluster _ | depot | observer | off => cases k <;> simp [Role.mayIssue]

end Sys2Proof.Machine

open Sys2Proof Sys2Proof.Machine

/-- Settles O4: the answer is IDENTIFY's body (State.identifyBody_eq), whatever the role and the phase. -/
theorem identifyAnswersAlways : Obligations.IdentifyAnswersAlways := by
  intro p s
  rw [execIdentify_eq, State.identifyBody_eq]
  rfl

/-- Settles O13: either reset leaves resetPort, whose role is the strap code's own except under a conflict. -/
theorem strapsFixRoles : Obligations.StrapsFixRoles := by
  refine ⟨⟨fun k => rfl, fun k => Role.observer.mayIssue_iff k, fun k => Role.depot.mayIssue_iff k,
    fun c k => (Role.cluster c).mayIssue_iff k⟩,
    fun c k => ⟨rfl, clusterOf_globalBay c k, localOf_globalBay c k⟩, fun straps s p => ⟨_, _, rfl, rfl, fun x after => ?_⟩⟩
  obtain ⟨marks, rfl⟩ := resetPort_of_resets after
  rw [← strapConflict_iff]
  refine ⟨rfl, fun conflict => ⟨portRole_of_conflict conflict, conflict⟩, fun alone => ?_⟩
  rw [Bool.not_eq_true] at alone
  have role : (resetPort straps marks p).role = roleOfStrap straps[p] := portRole_of_alone alone
  rw [role]
  exact ⟨alone, roleOfStrap_cases straps[p]⟩
end

section
/-!
Windows, streams and the reading of a table (R178 to R180).
-/

namespace Sys2Proof.Machine

/-! ### SET_WINDOW (R178) -/

theorem windowFor_profiles {first last : Nat} {f l : ProfileId} (hf : first = f.val) (hl : l.val = min 7 last)
    (order : first ≤ last) : windowFor 0 first last = some (.profiles f l) := by
  simp [windowFor, index_eq_some.mpr hf, index_eq_some.mpr hl.symm, order]

theorem windowFor_schedule {first last : Nat} {f l : EntryId} (hf : first = f.val) (hl : l.val = min 47 last)
    (order : first ≤ last) : windowFor 1 first last = some (.schedule f l) := by
  simp [windowFor, index_eq_some.mpr hf, index_eq_some.mpr hl.symm, order]

/-- No window: a table above 1, a first entry beyond the table, or a last entry before the first. -/
theorem windowFor_eq_none {table first last : Nat}
    (refused : 2 ≤ table ∨ table = 0 ∧ 7 < first ∨ table = 1 ∧ 47 < first ∨ last < first) :
    windowFor table first last = none := by
  unfold windowFor
  split
  · split
    · rename_i f l named _
      have place := index_eq_some.mp named
      exact if_neg (by omega)
    · rfl
  · split
    · rename_i f l named _
      have place := index_eq_some.mp named
      exact if_neg (by omega)
    · rfl
  · rfl

section
variable {p : PortId} {s : State} {params : List Byte} (accepted : s.accepts p rowSetWindow params = true)
include accepted

theorem execSetWindow_some {w : Window} (named : windowFor (byteAt params 0) (byteAt params 1) (byteAt params 2) = some w) :
    exec (.setWindow p params) s = .next (s.setPort p (({ s.port p with window := some w } : Port).wrote params .ok)) := by
  refine congrArg Host.Outcome.next ((State.transact_writes (t := s.setWindow p (some w)) (r := .ok) accepted rfl ?_ ?_).trans ?_)
  · simp only [named]
  · rw [State.setWindow, State.setPort_port_self]
  · rw [State.setWindow, State.setPort_port_self, State.setPort_setPort]

theorem execSetWindow_none (named : windowFor (byteAt params 0) (byteAt params 1) (byteAt params 2) = none) :
    exec (.setWindow p params) s = .next (s.setPort p ((s.port p).wrote params .range)) :=
  congrArg Host.Outcome.next (State.transact_reply accepted rfl (by simp only [named]))

end

/-! ### TABLE_WRITE (R179) -/

theorem execTableWrite_eq {p : PortId} {s : State} (accepted : s.accepts p rowTableWrite [] = true) :
    exec (.tableWrite p) s = .next (match (s.port p).window with
      | some w => s.openStream p w
      | none => s.refuseCode p .state) := by
  obtain ⟨running, issues, -⟩ := (s.accepts_iff p rowTableWrite []).mp accepted
  exact congrArg Host.Outcome.next ((if_neg (by simp [running])).trans (if_neg (by simp [issues])))

theorem Port.completes_eq_false {x : Port} {n : Nat} (short : x.held.length < n) : x.completes (n + 1) = false :=
  decide_eq_false (by omega)

section
variable (p : PortId) (b : Byte) (s : State)

theorem execProfileEntryTake_held {k last : ProfileId} (stream : (s.port p).stream = some (.profiles (some k) last))
    (short : (s.port p).held.length < 31) : exec (.profileEntryTake p b) s = .next (s.holdByte p b) := by
  have taken : exec (.profileEntryTake p b) s = execProfileEntryTake p b s := rfl
  rw [taken, execProfileEntryTake, stream]
  dsimp only
  rw [if_neg (by simp [Port.completes_eq_false short])]

theorem execProfileEntryTake_ignored (stream : ∀ k last, (s.port p).stream ≠ some (.profiles (some k) last)) :
    exec (.profileEntryTake p b) s = .next s := by
  have taken : exec (.profileEntryTake p b) s = execProfileEntryTake p b s := rfl
  rw [taken, execProfileEntryTake]
  split
  · rename_i k last found
    exact absurd found (stream k last)
  · rfl

theorem execScheduleEntryTake_held {e last : EntryId} (stream : (s.port p).stream = some (.schedule (some e) last))
    (short : (s.port p).held.length < 7) : exec (.scheduleEntryTake p b) s = .next (s.holdByte p b) := by
  have taken : exec (.scheduleEntryTake p b) s = execScheduleEntryTake p b s := rfl
  rw [taken, execScheduleEntryTake, stream]
  dsimp only
  rw [if_neg (by simp [Port.completes_eq_false short])]

theorem execScheduleEntryTake_ignored (stream : ∀ e last, (s.port p).stream ≠ some (.schedule (some e) last)) :
    exec (.scheduleEntryTake p b) s = .next s := by
  have taken : exec (.scheduleEntryTake p b) s = execScheduleEntryTake p b s := rfl
  rw [taken, execScheduleEntryTake]
  split
  · rename_i e last found
    exact absurd found (stream e last)
  · rfl

end

/-! ### TABLE_READ (R180) -/

/-- TABLE_READ's answer is the result alone: OK where the port holds a window, and its entries are read from the first. -/
theorem State.beginReading_eq {s : State} {p : PortId} (accepted : s.accepts p rowTableRead [] = true) :
    s.beginReading p = s.setPort p (match (s.port p).window with
      | some w => { (s.port p).answered 0 .ok [] with reading := some w.open }
      | none => (s.port p).answered 0 .state []) := by
  unfold State.beginReading
  dsimp only
  cases window : (s.port p).window with
  | some w =>
    rw [State.transact_read (r := .ok) (body := []) accepted (by decide) (by rw [window]; rfl), State.setPort_port_self,
      if_pos (by rfl), State.setReading, State.setPort_port_self, State.setPort_setPort]
    rfl
  | none =>
    rw [State.transact_read (r := .state) (body := []) accepted (by decide) (by rw [window]; rfl), State.setPort_port_self,
      if_neg nofun]
    rfl

/-- An entry shifted out, and the place of the next one. -/
theorem State.shiftOut_setReading (s : State) (p : PortId) (bytes : List Byte) (x : Option Stream) :
    (s.shiftOut p bytes).setReading p x = s.setPort p { s.port p with out := (s.port p).out ++ bytes, reading := x } := by
  rw [State.setReading, State.shiftOut, State.setPort_port_self, State.setPort_setPort]

end Sys2Proof.Machine

open Sys2Proof Sys2Proof.Machine

/-- Settles O37: SET_WINDOW by the window its bytes name (windowFor), and each part of a TABLE_WRITE and of a TABLE_READ by the stream that
stands at the port. -/
theorem windowsAndStreams : Obligations.WindowsAndStreams := by
  intro p s
  refine ⟨fun params accepted => ⟨fun f l table first last order => ?_, fun f l table first last order => ?_, fun refused => ?_⟩,
    fun accepted => ?_, fun b => ⟨?_, ?_, ?_, ?_⟩, ?_, fun accepted => ?_, ?_⟩
  · exact execSetWindow_some accepted (by rw [table, windowFor_profiles first last order])
  · exact execSetWindow_some accepted (by rw [table, windowFor_schedule first last order])
  · exact execSetWindow_none accepted (windowFor_eq_none refused)
  · rw [execTableWrite_eq accepted]
    cases (s.port p).window with
    | some w => cases w <;> rfl
    | none => rfl
  · rintro ⟨k, l, stream⟩ short
    exact execProfileEntryTake_held p b s stream short
  · exact execProfileEntryTake_ignored p b s
  · rintro ⟨e, l, stream⟩ short
    exact execScheduleEntryTake_held p b s stream short
  · exact execScheduleEntryTake_ignored p b s
  · rfl
  · have taken : exec (.tableRead p .command) s = .next (s.beginReading p) := rfl
    rw [taken, State.beginReading_eq accepted]
    cases (s.port p).window with
    | some w => cases w <;> rfl
    | none => rfl
  · have taken : exec (.tableRead p .nextEntry) s = .next (s.readEntry p) := rfl
    rw [taken, State.readEntry]
    simp only [State.shiftOut_setReading]
    rfl
end

section
/-!
The queue of waiting commands at every command and event: each but UNKNOWN_CODE with a code of the command table is answered by a next
state, and none of them writes the queue. What evolves the part leaves the queue (Frame); what is left are the writes of a command's
own, the resets and the scan.
-/

namespace Sys2Proof.Machine

/-! ### Accesses and reads (R6, R17) -/

section
variable (s : State)

@[simp] theorem State.access_pending (i : SlotId) : (s.access i).pending = s.pending := (s.access_evolves i).frame.pending

@[simp] theorem State.accessAll_pending (l : List SlotId) : (s.accessAll l).pending = s.pending := (s.accessAll_evolves l).frame.pending

@[simp] theorem State.accessDocked_pending (b : BayId) : (s.accessDocked b).pending = s.pending := (s.accessDocked_evolves b).frame.pending

@[simp] theorem State.accessDrawn_pending (w : SweeperId) : (s.accessDrawn w).pending = s.pending := (s.accessDrawn_evolves w).frame.pending

@[simp] theorem State.clearMark_pending (p : PortId) (g : GroupId) : (s.clearMark p g).pending = s.pending := rfl

theorem State.readBySlot_pending (key : Nat) : (s.readBySlot key).state.pending = s.pending := by
  unfold State.readBySlot
  split <;> simp

theorem State.readByTag_pending (key : Nat) : (s.readByTag key).state.pending = s.pending := by
  unfold State.readByTag
  dsimp only
  split
  · simp
  · split <;> simp

theorem State.readByBay_pending (p : PortId) (key : Nat) : (s.readByBay p key).state.pending = s.pending := by
  unfold State.readByBay
  split
  · simp
  · split <;> simp

theorem State.readBySweeper_pending (key : Nat) : (s.readBySweeper key).state.pending = s.pending := by
  unfold State.readBySweeper
  split
  · simp
  · dsimp only
    split
    · simp
    · split <;> simp

/-! ### Writes of a command's own -/

theorem State.dockTag_pending (b : BayId) {d : Docking} (sane : d.sane) : (s.dockTag b d).state.pending = s.pending := by
  have checked := s.accessAll_pending allSlots
  unfold State.dockTag
  generalize s.accessAll allSlots = t at checked
  dsimp only
  split
  · exact checked
  · exact ((t.dockRoster_evolves b d sane).trans (State.dockBay_evolves _ b d _)).frame.pending.trans checked

@[simp] theorem State.undock_pending (b : BayId) : (s.undock b).pending = s.pending := (s.undock_evolves b).frame.pending

@[simp] theorem State.setClock_pending (c : Clock) : (s.setClock c).pending = s.pending := rfl

@[simp] theorem State.resupply_pending (f : Supply → Supply) : (s.resupply f).pending = s.pending := by rw [State.resupply_eq]

@[simp] theorem State.startRamp_pending : s.startRamp.pending = s.pending := by rw [State.startRamp_eq]

@[simp] theorem State.endRamp_pending : s.endRamp.pending = s.pending := by rw [State.endRamp_eq]

@[simp] theorem State.takeReading_pending (r : Nat) : (s.takeReading r).pending = s.pending := by rw [State.takeReading_eq]

@[simp] theorem State.windDown_pending : s.windDown.pending = s.pending := by rw [State.windDown_eq]

@[simp] theorem State.clearInhibit_pending (r : Inhibit) : (s.clearInhibit r).pending = s.pending := (s.clearInhibit_evolves r).frame.pending

@[simp] theorem State.rezone_pending : s.rezone.pending = s.pending := s.rezone_evolves.frame.pending

@[simp] theorem State.setZone_pending (first last : BayId) : (s.setZone first last).pending = s.pending := by
  unfold State.setZone
  dsimp only
  split <;> simp

@[simp] theorem State.switchZoneOn_pending : s.switchZoneOn.pending = s.pending := State.rezone_pending _

@[simp] theorem State.switchZoneOff_pending : s.switchZoneOff.pending = s.pending := by rw [State.switchZoneOff_eq]

@[simp] theorem State.setSite_pending (x : Site) : (s.setSite x).pending = s.pending := by rw [State.setSite_eq]

@[simp] theorem State.takeProfile_pending (k : ProfileId) (bytes : Vector Byte 32) : (s.takeProfile k bytes).pending = s.pending := by
  obtain ⟨v, -, evolves⟩ := s.takeProfile_evolves k bytes
  exact evolves.frame.pending

@[simp] theorem State.takeEntry_pending (e : EntryId) (bytes : Vector Byte 8) : (s.takeEntry e bytes).pending = s.pending :=
  (s.takeEntry_evolves e bytes).frame.pending

@[simp] theorem State.openStream_pending (p : PortId) (w : Window) : (s.openStream p w).pending = s.pending := rfl

@[simp] theorem State.closeStream_pending (p : PortId) (r : ResultCode) : (s.closeStream p r).pending = s.pending := rfl

@[simp] theorem State.refuseCode_pending (p : PortId) (r : ResultCode) : (s.refuseCode p r).pending = s.pending := rfl

@[simp] theorem State.latch_pending : s.latch.pending = s.pending := rfl

/-! ### Timers and passes -/

theorem State.tick_pending : s.tick.pending = s.pending := by
  rw [State.tick_eq]
  rfl

theorem State.sufferUpsets_pending (upsets : List (SlotId × Upset)) : (upsets.foldl State.sufferUpset s).pending = s.pending := by
  obtain ⟨checks, struck, -⟩ := State.sufferUpsets_eq upsets s
  rw [struck]

theorem State.changeMinute_pending (m : Nat) : (s.changeMinute m).pending = s.pending := by
  have base : (s.minuteBase m).pending = s.pending := by
    unfold State.minuteBase
    dsimp only
    split <;> rfl
  rw [State.changeMinute_eq, (State.plan_evolves _).frame.pending, base]

theorem State.visit_pending : s.visit.pending = s.pending := s.access_pending s.scrub

theorem State.allocate_pending : s.allocate.pending = s.pending := by rw [State.allocate_eq]

/-! ### Resets and the scan -/

theorem State.softReset_pending : s.softReset.pending = s.pending := by
  have blocks : s.softResetBlocks.pending = s.pending := by
    have lowered := ((Evolves.foldl _ State.demoteRecord_evolves allSlots s).trans
      (Evolves.foldl (fun t b => t.lower b 0) (fun t b => t.lower_evolves b 0 rfl) allBays _)).frame.pending
    unfold State.softResetBlocks
    dsimp only
    generalize allBays.foldl (fun t b => State.lower t b 0) (allSlots.foldl State.demoteRecord s) = t at lowered
    exact lowered
  unfold State.softReset
  generalize s.softResetBlocks = t at blocks
  exact t.startRamp_pending.trans blocks

theorem State.scanAfterReset_pending : s.scanAfterReset.pending = s.pending := by
  have scanned : (allSlots.foldl State.scanRecord (s.scanTables.accessAll allSlots)).pending = s.pending :=
    ((s.scanTables.accessAll_evolves allSlots).trans (Evolves.foldl _ State.scanRecord_evolves allSlots _)).frame.pending
  unfold State.scanAfterReset
  dsimp only
  generalize allSlots.foldl State.scanRecord (s.scanTables.accessAll allSlots) = t at scanned
  split <;> exact scanned

theorem State.endScan_pending : s.endScan.pending = s.pending := State.startRamp_pending _

end

/-! ### Transactions -/

/-- A transaction leaves the queue where its command's own effect does. -/
theorem State.transact_pending {s : State} {p : PortId} {row : CommandRow} {params : List Byte} {act : State → Reply}
    (h : (act s).state.pending = s.pending) : (s.transact p row params act).pending = s.pending := by
  rcases s.transact_cases p row params act with ⟨-, taken⟩ | ⟨r, after, refused⟩
  · rw [taken, State.fixResult_pending, h]
  · rw [refused, State.setPort_pending]

/-- The command or event is answered by a next state, with the queue as it was. -/
def Outcome.Completes (s : State) (r : Result) : Prop := ∃ t, r = .next t ∧ t.pending = s.pending

theorem Outcome.Completes.next {s t : State} (h : t.pending = s.pending) : Outcome.Completes s (.next t) := ⟨t, rfl, h⟩

/-- An event that takes place only when it is due. -/
theorem Outcome.Completes.whenDue {s t : State} {due : Bool} (h : t.pending = s.pending) :
    Outcome.Completes s (.next (if due then t else s)) := by
  cases due
  · exact .next rfl
  · exact .next h

theorem Outcome.Completes.transact {s : State} {p : PortId} {row : CommandRow} {params : List Byte} {act : State → Reply}
    (h : (act s).state.pending = s.pending) : Outcome.Completes s (.next (s.transact p row params act)) :=
  .next (State.transact_pending h)

/-- A cluster command completes where its own effect leaves the queue. -/
theorem Outcome.Completes.clusterCommand {s : State} {p : PortId} {row : CommandRow} {params : List Byte}
    {act : BayId → State → Reply} (h : ∀ b, (act b s).state.pending = s.pending) :
    Outcome.Completes s (.next (s.clusterCommand p row params act)) := by
  refine .transact ?_
  split
  · exact h _
  · rfl

/-- A command that names a slot completes where its own effect leaves the queue. -/
theorem Outcome.Completes.slotCommand {s : State} {p : PortId} {row : CommandRow} {params : List Byte}
    {act : SlotId → State → Reply} (h : ∀ i t, (act i t).state.pending = t.pending) :
    Outcome.Completes s (.next (s.slotCommand p row params act)) := by
  refine .transact ?_
  split
  · exact (h _ _).trans (s.access_pending _)
  · rfl

/-! ### Commands -/

section
variable (p : PortId) (params : List Byte) (s : State)

theorem execReadPack_completes : Outcome.Completes s (execReadPack p params s) := by
  refine .transact ?_
  split
  · exact s.readBySlot_pending _
  · exact s.readByTag_pending _
  · exact s.readByBay_pending p _
  · exact s.readBySweeper_pending _
  · rfl

theorem execReadRecall_completes : Outcome.Completes s (execReadRecall p params s) := by
  refine .transact ?_
  split
  · split <;> rfl
  · rfl

theorem execDock_completes : Outcome.Completes s (execDock p params s) := by
  refine .clusterCommand fun b => ?_
  split
  · rfl
  · split
    · rename_i d docking
      exact s.dockTag_pending b (dockingOf_sane params d docking)
    · rfl

theorem execUndock_completes : Outcome.Completes s (execUndock p params s) := by
  refine .clusterCommand fun b => ?_
  split
  · rfl
  · split
    · rfl
    · split <;> simp

theorem execReport_completes : Outcome.Completes s (execReport p params s) := by
  refine .clusterCommand fun b => ?_
  split
  · exact (s.compareCurrent_evolves b _).frame.pending
  · exact ((s.accessDocked_evolves b).trans (State.takeReport_evolves _ b _ _)).frame.pending

theorem execGrantAck_completes : Outcome.Completes s (execGrantAck p params s) := by
  refine .clusterCommand fun b => ?_
  split
  · exact (s.confirm_evolves b).frame.pending
  · rfl

theorem execClearFault_completes : Outcome.Completes s (execClearFault p params s) := by
  refine .clusterCommand fun b => ?_
  split
  · rfl
  · split
    · rfl
    · exact (s.removeInhibit_evolves b .fault).frame.pending

theorem execTableWrite_completes : Outcome.Completes s (execTableWrite p s) := by
  refine .next ?_
  split
  · simp
  · split
    · simp
    · split <;> simp

theorem execProfileEntryTake_completes (b : Byte) : Outcome.Completes s (execProfileEntryTake p b s) := by
  refine .next ?_
  split
  · split <;> simp
  · rfl

theorem execScheduleEntryTake_completes (b : Byte) : Outcome.Completes s (execScheduleEntryTake p b s) := by
  refine .next ?_
  split
  · split <;> simp
  · rfl

theorem execTableWriteStreamEnd_completes : Outcome.Completes s (execTableWriteStreamEnd p s) := by
  refine .next ?_
  split <;> simp

theorem State.beginReading_pending : (s.beginReading p).pending = s.pending := by
  have answered : (s.transact p rowTableRead [] fun t =>
      if (t.port p).window.isSome then t.answer [] else t.reply .state).pending = s.pending :=
    State.transact_pending (by split <;> rfl)
  unfold State.beginReading
  dsimp only
  split
  · rw [State.setReading_pending, answered]
  · exact answered

theorem State.readEntry_pending : (s.readEntry p).pending = s.pending := by
  unfold State.readEntry
  split <;> simp

theorem execTableRead_completes (part : ReadPart) : Outcome.Completes s (execTableRead p part s) := by
  cases part with
  | command => exact .next (s.beginReading_pending p)
  | nextEntry => exact .next (s.readEntry_pending p)

theorem execAddDeparture_completes : Outcome.Completes s (execAddDeparture p params s) := by
  refine .transact ?_
  split
  · rfl
  · split
    · exact (s.addDeparture_evolves _ _).frame.pending
    · rfl

theorem execCancelDeparture_completes : Outcome.Completes s (execCancelDeparture p params s) := by
  refine .transact ?_
  split
  · rfl
  · split
    · rfl
    · split
      · rfl
      · exact (s.cancelDeparture_evolves _).frame.pending

theorem execDraw_completes : Outcome.Completes s (execDraw p params s) := by
  refine .transact ?_
  split
  · split
    · rfl
    · split
      · rfl
      · exact (s.drawPack_evolves _ _).frame.pending
  · rfl

theorem execCancelDraw_completes : Outcome.Completes s (execCancelDraw p params s) := by
  refine .transact ?_
  split
  · rfl
  · dsimp only
    split
    · exact ((s.accessDrawn_evolves _).trans (State.cancelDrawOf_evolves _ _)).frame.pending
    · simp

theorem execQuarantine_completes : Outcome.Completes s (execQuarantine p params s) := by
  refine .slotCommand fun i t => ?_
  split
  · rfl
  · rfl
  · exact (t.enterQuarantine_evolves i _).frame.pending

theorem execRelease_completes : Outcome.Completes s (execRelease p params s) := by
  refine .slotCommand fun i t => ?_
  split
  · exact (t.releaseQuarantine_evolves i).frame.pending
  · rfl

theorem execForget_completes : Outcome.Completes s (execForget p params s) := by
  refine .slotCommand fun i t => ?_
  split
  · exact (t.forgetRecord_evolves i).frame.pending
  · rfl

theorem execScanComplete_completes : Outcome.Completes s (execScanComplete s) := by
  unfold execScanComplete
  split
  · exact .next s.endScan_pending
  · exact .next ((State.endScan_pending _).trans s.scanAfterReset_pending)
  · exact .next rfl

theorem execTimebaseSecond_completes (upsets : List (SlotId × Upset)) : Outcome.Completes s (execTimebaseSecond upsets s) := by
  have struck := s.sufferUpsets_pending upsets
  refine .next ?_
  split
  · exact (State.tick_pending _).trans struck
  · exact struck

theorem execClockMinuteChange_completes : Outcome.Completes s (execClockMinuteChange s) := by
  refine .next ?_
  split
  · exact s.changeMinute_pending _
  · rfl

theorem execUnknownCode_completes {code : Byte} (unknown : knownCode code = false) :
    Outcome.Completes s (execUnknownCode p code s) := by
  unfold execUnknownCode
  rw [if_neg (by simp [unknown])]
  exact .next rfl

end

/-- Every command and event of the part completes. -/
theorem exec_completes (c : Instr) (s : State) (wellFormed : c.wellFormed = true) : Outcome.Completes s (exec c s) := by
  cases c with
  | powerOn straps => exact .next rfl
  | hardReset straps => exact .next rfl
  | hardResetEnd => exact .whenDue rfl
  | scanComplete => exact execScanComplete_completes s
  | unknownCode p code => exact execUnknownCode_completes p s (by simpa [Instr.wellFormed] using wellFormed)
  | shortTransaction p => exact .next rfl
  | identify p => exact .next rfl
  | readNotices p => exact .transact rfl
  | ackNotices p params => exact .transact rfl
  | setNoticeMask p params => exact .transact (by split <;> rfl)
  | readBaySummary p => exact .transact rfl
  | readPack p params => exact execReadPack_completes p params s
  | readGroup p params => exact .transact (by split <;> simp)
  | readMarks p => exact .transact rfl
  | readBay p params => exact .transact (by split <;> rfl)
  | readSupply p => exact .transact rfl
  | readDeparture p params => exact .transact (by split <;> rfl)
  | readCounters p => exact .transact rfl
  | readQueue p params => exact .transact (by split <;> simp)
  | readClock p => exact .transact rfl
  | readRecall p params => exact execReadRecall_completes p params s
  | dock p params => exact execDock_completes p params s
  | undock p params => exact execUndock_completes p params s
  | report p params => exact execReport_completes p params s
  | grantAck p params => exact execGrantAck_completes p params s
  | clearFault p params => exact execClearFault_completes p params s
  | readGrants p => exact .transact rfl
  | setClock p params => exact .transact (by split <;> simp)
  | setSupply p params => exact .transact (by split <;> simp)
  | otherLoad p params => exact .transact (s.takeReading_pending _)
  | hold p => exact .transact (by split <;> simp)
  | resume p => exact .transact (by split <;> simp)
  | setZone p params => exact .transact (by split <;> simp)
  | zoneOn p => exact .transact (by rw [State.reply_state]; split <;> simp)
  | zoneOff p => exact .transact (by rw [State.reply_state]; split <;> simp)
  | setSite p params => exact .transact (s.setSite_pending _)
  | setWindow p params => exact .transact (by split <;> simp)
  | tableWrite p => exact execTableWrite_completes p s
  | profileEntryTake p b => exact execProfileEntryTake_completes p s b
  | scheduleEntryTake p b => exact execScheduleEntryTake_completes p s b
  | tableRead p part => exact execTableRead_completes p s part
  | addDeparture p params => exact execAddDeparture_completes p params s
  | cancelDeparture p params => exact execCancelDeparture_completes p params s
  | draw p params => exact execDraw_completes p params s
  | cancelDraw p params => exact execCancelDraw_completes p params s
  | quarantine p params => exact execQuarantine_completes p params s
  | release p params => exact execRelease_completes p params s
  | forget p params => exact execForget_completes p params s
  | latchCounters p => exact .transact s.latch_pending
  | softReset p => exact .transact s.softReset_pending
  | timebaseSecond upsets => exact execTimebaseSecond_completes s upsets
  | clockMinuteChange => exact execClockMinuteChange_completes s
  | scrubVisit => exact .whenDue s.visit_pending
  | reportTimeoutSilent b => exact .whenDue (s.becomeSilent_evolves b).frame.pending
  | lostTimeout b => exact .whenDue (s.becomeLost_evolves b).frame.pending
  | stallHoldEnd b => exact .whenDue (s.endStallHold_evolves b).frame.pending
  | equaliseEnd b => exact .whenDue (s.endEqualise_evolves b).frame.pending
  | restEnd b => exact .whenDue (s.endRest_evolves b).frame.pending
  | confirmTimerExpiry b => exact .whenDue (s.timeOut_evolves b).frame.pending
  | meterStale => exact .whenDue (s.resupply_pending _)
  | windDownEnd => exact .whenDue (s.resupply_pending _)
  | rampEnd => exact .whenDue s.endRamp_pending
  | allocationPeriodExpiry => exact .whenDue s.allocate_pending
  | allocationPass => exact .whenDue s.allocate_pending
  | planningPass => exact .whenDue s.plan_evolves.frame.pending
  | tableWriteStreamEnd p => exact execTableWriteStreamEnd_completes p s

/-- The one term that is no command or event is refused by name. -/
theorem exec_of_illFormed {c : Instr} (s : State) (h : c.wellFormed = false) : exec c s = .refused (.illFormed "UNKNOWN_CODE") := by
  cases c with
  | unknownCode p code => exact if_pos (by simpa [Instr.wellFormed] using h)
  | _ => cases h

end Sys2Proof.Machine

open Sys2Proof Sys2Proof.Machine

/-- Settles O2: every command and event completes (exec_completes), and the one ill-formed term is refused. -/
theorem everyCommandCompletes : Obligations.EveryCommandCompletes := by
  intro c s
  cases formed : c.wellFormed with
  | true =>
    obtain ⟨t, taken, queue⟩ := exec_completes c s formed
    rw [taken]
    exact ⟨⟨fun _ => ⟨t, rfl⟩, fun _ => rfl⟩, nofun, fun u next => by cases next; exact queue⟩
  | false =>
    rw [exec_of_illFormed s formed]
    exact ⟨⟨nofun, fun ⟨_, next⟩ => nomatch next⟩, fun _ => rfl, fun _ next => nomatch next⟩
end

section
/-! ### The part as a machine: the queue of waiting commands -/

namespace Sys2Proof.Machine

theorem step_of_pending_nil {s : State} (empty : s.pending = []) : step s = .next s := by
  rw [step, empty]

theorem step_of_pending_cons {c : Instr} {rest : List Instr} {s : State} (queued : s.pending = c :: rest) :
    step s = exec c { s with pending := rest } := by
  rw [step, queued]

end Sys2Proof.Machine

open Sys2Proof Sys2Proof.Machine

/-- Settles O1, by the two shapes of the queue: a command in front is run with the queue's rest, and an empty queue idles. -/
theorem stepTakesFrontCommand : Obligations.StepTakesFrontCommand :=
  ⟨fun _ _ _ queued => step_of_pending_cons queued, fun _ empty => step_of_pending_nil empty⟩
end
